-- ==== Sys2Proof/Word.lean ====
section
/-!
DEFINITION. The word types of the Hallys H9 and the record types that travel in it: items, remote requests,
messages between packages, flits, and the data that the events of spec/opcode_table.json carry.
-/
namespace Sys2Proof

/-- A scalar register, an address, a system register (02 R22). -/
abbrev Word := BitVec 64
/-- One byte of storage. -/
abbrev Byte := BitVec 8
/-- One instruction word (02 R28). -/
abbrev IWord := BitVec 32
/-- One lane of a vector register (11 R226). -/
abbrev Lane := BitVec 32
/-- A register field of an instruction (02 R29). -/
abbrev Reg := BitVec 5

/-- A core of the package, as die × 4096 + cluster × 256 + core (05 R117). -/
abbrev CoreId := Nat
/-- A cluster of the package, as die × 16 + cluster. -/
abbrev ClusterId := Nat
/-- An ensemble of the package, as cluster id × 32 + ensemble. -/
abbrev EnsId := Nat
/-- A queue of the package: cluster id × 512 + index; from 16384 up, the fault queue of core (key − 16384). -/
abbrev QKey := Nat

/-- A queue item (02 R39, 06 R123): a 4-bit tag held outside the payload, and up to 8 granules of 16 bytes. -/
structure Item where
  tag  : BitVec 4
  data : BitVec 1024
  /-- The model's own: the device put the item into a service's queue, and it is no call (15 R332). -/
  note : Bool := false
  deriving DecidableEq, Repr

/-- An item on its way to a queue in another cluster or package (06 R137, R138).
`checked` says that the push passes the domain check of R128: a push through a handle, or the device's own. -/
structure Push where
  qid     : BitVec 32
  item    : Item
  domain  : BitVec 12
  checked : Bool
  srcPkg  : BitVec 12
  core    : CoreId
  /-- The model's number of the push, rising in issue order at a core; it names the outstanding slot of a push to
  another package (15 R324). 0: the device's own. -/
  serial  : Nat
  /-- The device pushed the item as a curtain of a recast (20 R416): `core` is then the role. -/
  curtain : Bool
  /-- A break notice (05 R120). -/
  notice  : Bool
  deriving DecidableEq, Repr

/-- How a store that carries a cue is marked when it is sent (15 R329). -/
inductive CueMark where
  | plain | landed | watch
  deriving DecidableEq, Repr

/-- One write of an engine's packet (13 R306): the bits `bits` of `n` bytes at an address of the target. -/
structure PacketWrite where
  addr  : Word
  n     : Nat
  value : Nat
  bits  : Nat
  /-- The element it is for, of a block the first (13 R304). -/
  index : Nat
  deriving DecidableEq, Repr

/-- A range that an engine's packet reads at a remote source, for an element. -/
structure PacketRead where
  addr  : Word
  n     : Nat
  index : Nat
  deriving DecidableEq, Repr

/-- What a remote request asks of its target (15 R323, R337–R339; 13 R306). -/
inductive RemoteKind where
  /-- A store of the low n bytes, with the cue it carries (GEN 0: none), its mark, and the cue it returns. -/
  | store (n : Nat) (value : Word) (carries : BitVec 32) (mark : CueMark) (returns : BitVec 32)
  /-- GETQ: a read of n bytes for the queue, with the cookie. -/
  | read (n : Nat) (q : BitVec 32) (cookie : Word)
  /-- AMOQ: an atomic of n bytes for the queue. -/
  | atomic (op : BitVec 4) (n : Nat) (operand cmp : Word) (q : BitVec 32)
  /-- An engine's packet of the elements [lo, hi) of a copy, with the writes it carries; or one that asks a remote source
  for those elements, by the ranges it reads. -/
  | packet (lo hi : Nat) (writes : List PacketWrite)
  | fetch (lo hi : Nat) (reads : List PacketRead)
  deriving DecidableEq, Repr

/-- A remote request (15 R323), with the outstanding slot's serial at the issuing core. For an engine's packet `core` is
8192 + the engine, `serial` the model's number of the command, and `inst` the issuing core. -/
structure RemoteReq where
  serial : Nat
  origin : BitVec 12
  core   : CoreId
  domain : BitVec 12
  svc    : Bool
  /-- The issuing instance and its instruction's address, for R335 and the request of R325. -/
  inst   : Nat
  pc     : Word
  addr   : Word
  kind   : RemoteKind
  deriving DecidableEq, Repr

/-- What comes back for an outstanding slot (15 R324). `code` 0 is success. For a packet of an engine's copy (13 R306)
`core` is 8192 + the engine and `serial` the model's number of the command. -/
structure RemoteAck where
  core   : CoreId
  serial : Nat
  code   : BitVec 8
  /-- The address or cue or queue id concerned, for a report. -/
  where_ : Word
  /-- What an engine's packet read at a remote source: each range's value, in the order asked (13 R306). -/
  data   : List Nat
  /-- Of a packet, where it ends; or the element at which it failed. -/
  at_    : Nat
  deriving DecidableEq, Repr

/-- A result item of GETQ or AMOQ (15 R339). -/
structure RemoteRes where
  core   : CoreId
  serial : Nat
  q      : BitVec 32
  item   : Item
  deriving DecidableEq, Repr

/-- Who asks for a cue's fate: a package that holds stores, or a CUEQ of a core (15 R329, R338). -/
inductive Watcher where
  | package (p : BitVec 12)
  | core (p : BitVec 12) (c : CoreId) (serial : Nat) (q : BitVec 32)
  deriving DecidableEq, Repr

/-- The answer to a CUEQ (15 R338): status 0, CUEBAD, CUEEXP or LINK. -/
structure CueqRes where
  core   : CoreId
  serial : Nat
  q      : BitVec 32
  cue    : BitVec 32
  status : BitVec 8
  deriving DecidableEq, Repr

/-- A REDF contribution (09 R206); `addr` is the cell's point. -/
structure Contribution where
  core  : CoreId
  addr  : Nat
  index : BitVec 16
  value : BitVec 32
  /-- The cell's address as issued, for a report. -/
  issued : Word
  /-- The issuing instance, and the model's number of the contribution, rising in issue order (09 R192). -/
  inst   : Nat
  id     : Nat
  deriving DecidableEq, Repr

/-- A barrier arrival on its way to the group entry (09 R216). -/
structure Arrival where
  core  : CoreId
  group : Nat
  rank  : BitVec 16
  value : BitVec 32
  queue : QKey
  deriving DecidableEq, Repr

/-- A release item on its way to a member (09 R217). -/
structure Release where
  core  : CoreId
  group : Nat
  queue : QKey
  data  : BitVec 128
  deriving DecidableEq, Repr

/-- A service event of SVHALT (20 R427). -/
structure SvcEvent where
  target : CoreId
  word   : Word
  by_    : CoreId
  queue  : BitVec 32
  addr   : Word
  deriving DecidableEq, Repr

/-- A migration command in a home's device registers (08 R181): frames are HBM physical addresses. -/
structure MigCmd where
  domain : BitVec 12
  va     : BitVec 48
  large  : Bool
  frame  : BitVec 40
  deriving DecidableEq, Repr

/-- An exact value (03 R52, R53, R64, R65): a NaN with the sign of its code, an infinity, or (−1)^neg × m × 2^e, zeros with their sign. -/
inductive Num where
  | nan (neg : Bool)
  | inf (neg : Bool)
  | fin (neg : Bool) (m : Nat) (e : Int)
  deriving DecidableEq, Repr

/-- A rank's arrival at a collective's root (13 R308, R309). `pkg`, `eng` and `id` name the rank's own package,
engine and command. -/
structure RankArrival where
  pkg   : BitVec 12
  eng   : BitVec 6
  id    : Nat
  key   : BitVec 32
  rank  : Nat
  ranks : Nat
  start : Nat
  count : Nat
  fmt   : BitVec 4
  /-- The destination's format; none for a rank that receives nothing. -/
  dst   : Option (BitVec 4)
  dcount : Nat
  nmode : Word
  tmo   : Nat
  deriving DecidableEq, Repr

/-- What a rank of another package says to its root about one chunk (13 R310): the maximum exponent of each block,
none for a block of zeros; its aligned elements, special values as they are; that its destination is written; or the
code of the fault it met. -/
inductive FarPart where
  | maxima (es : List (Option Int))
  | aligned (qs : List Num)
  | written
  | failed (code : BitVec 8)
  deriving DecidableEq, Repr

/-- A part of a chunk with its rank, and the rank's engine. -/
structure FarChunk where
  rank : Nat
  eng  : BitVec 6
  part : FarPart
  deriving DecidableEq, Repr

/-- What a root in another package says to one rank here (13 R310, R312): to begin the next chunk; the emax of each
block; the exact sums, which its engine rounds under the root's NMODE (R308), with the flags of summing; or the end of
the collective with a status, the faulting rank (65,536: none) and INDEX. -/
inductive FarResult where
  | none
  | begin_ (to_ : Nat)
  | emax (to_ : Nat) (es : List (Option Int))
  | sums (to_ : Nat) (sums : List Num) (flags : BitVec 7) (nmode : Word)
  | ended (to_ : Nat) (status : BitVec 8) (rank index : Nat)
  deriving DecidableEq, Repr

/-- A load that names several packages, as the first package's loader sends it to the loader of another (20 R410): the
package that it comes from and the serial there, the package it goes to, the caller's domain, the image, the launch queue's
image index + 1, the launch payload, and the packages of the load. -/
structure LoadOrder where
  origin   : BitVec 12
  dest     : BitVec 12
  serial   : Nat
  dom      : BitVec 12
  image    : List Word
  launch   : Nat
  payload  : BitVec 128
  packages : List (BitVec 12)
  deriving DecidableEq, Repr

/-- What sets the loader to a load (20 R410): a call in its queue; another package's order; another package's answer to an
order, placed or refused; and its word to launch, or to remove what stands. -/
inductive LoadCause where
  | call
  | order (x : LoadOrder)
  | answer (serial : Nat) (pkg : BitVec 12) (placed : Bool)
  | finish (origin : BitVec 12) (serial : Nat) (launch : Bool)
  deriving DecidableEq, Repr

/-- What one package's service tells another's: a part of a load (20 R410); a cue lifetime (R413); that a load, named by
the package that it came from and its serial there, has an epoch taken, or is resumed from one (22 R453, R455). -/
inductive SvcMsg where
  | load (x : LoadCause)
  | lifetime (dom us : Nat)
  | take (origin : BitVec 12) (serial : Nat)
  | resume (origin : BitVec 12) (serial epoch : Nat)
  deriving DecidableEq, Repr

/-- A message that leaves this package (15 R350 and Table 15.11). -/
inductive Msg where
  | request (r : RemoteReq)
  | push (p : Push)
  | ack (a : RemoteAck)
  | result (r : RemoteRes)
  | landed (cue : BitVec 32)
  | failed (cue : BitVec 32) (code : BitVec 8)
  | landing (cue : BitVec 32)
  | failure (cue : BitVec 32) (code : BitVec 8)
  | watch (cue : BitVec 32) (w : Watcher)
  | notYet (cue : BitVec 32)
  | cueq (r : CueqRes)
  /-- A rank's arrival at a root engine, a rank's part of a chunk, and what the root says to a rank's engine (13 R310,
  R312). -/
  | rank (eng : BitVec 6) (a : RankArrival)
  | part (eng : BitVec 6) (key : BitVec 32) (c : FarChunk)
  | chunk (eng root : BitVec 6) (key : BitVec 32) (r : FarResult)
  /-- A link-control flit of a trunk (15 R341–R343): an acknowledgement, with NAK or not, and credits returned. -/
  | link (trunk : Nat) (ack : BitVec 24) (nak : Bool) (cred : BitVec 12) (ccls : BitVec 2)
  /-- A posted write to the host (20 R423, 22 R454). -/
  | hostWrite (addr : Word) (data : List Byte)
  /-- A completion of a host submission: accepted, or Retry, or Unsupported Request (20 R421, R422). -/
  | hostAnswer (page : Nat) (answer : Nat)
  /-- A memory read of the host (22 R454). -/
  | hostRead (addr : Word) (n : Nat)
  /-- Word to another package's service. -/
  | service (x : SvcMsg)
  /-- Word to the management controller or the power stage, or of a happening that no other unit is told of. -/
  | control (kind : Nat) (a b : Nat)
  deriving DecidableEq, Repr

/-- A message with its destination package. -/
structure Out where
  dst : BitVec 12
  msg : Msg
  /-- It waits in egress: for a trunk that is not UP, or for credit (15 R343–R345). -/
  waiting : Bool
  /-- It came from another package, and is passed on (15 R346). -/
  transit : Bool
  deriving DecidableEq, Repr

/-- A flit (15 R341): its header, its payload and its CRC-64. `packets` are the packets that end in its payload, with
their destination packages: the manual lays out no packet, so they stand beside their bytes (log 8). -/
structure Flit where
  seq  : BitVec 24
  ack  : BitVec 24
  ackv : Bool
  nak  : Bool
  cls  : BitVec 2
  cred : BitVec 12
  ccls : BitVec 2
  used : BitVec 8
  dpkg : BitVec 12
  spkg : BitVec 12
  payload : List Byte
  crc  : BitVec 64
  packets : List (BitVec 12 × Msg)
  deriving DecidableEq, Repr

/-- Where a register write goes (00 R5): a device register by its space-0x5 offset, or a register that the spec
names without an address (15 R340, R346, R348; 22 R450). -/
inductive RegTarget where
  | dev (offset : BitVec 48)
  | route (pkg : BitVec 12)
  | trunk (base : BitVec 6)
  | slot (router : Nat) (n : BitVec 8)
  | powerLimit
  | bankUnusable
  deriving DecidableEq, Repr

/-- Where a storage error was met (22 R442 Table 22.5). -/
inductive EccSite where
  /-- A core's load, atomic read, fetch or QPOP.M or QPUSH.M read: the running instance of the core. -/
  | access (c : CoreId)
  /-- A masked write or a REDF application issued by the core: the oldest that it has on its way. -/
  | masked (c : CoreId)
  /-- The same, met at its point: the write is discarded already. -/
  | met (c : CoreId)
  /-- A queue item: the queue and the position of the copy among its items, or of a spilled item. -/
  | item (q : QKey) (k : Nat) (spilled : Bool)
  /-- A CIM bank name of an ensemble. -/
  | bank (e : EnsId) (name : Nat)
  /-- A frame of a core. -/
  | frame (c : CoreId) (f : Nat)
  /-- A page table entry: the physical address. -/
  | pte (pa : BitVec 40)
  /-- A request record: the primary alone, or both copies. -/
  | record (i : Nat) (both : Bool)
  /-- A binding row of a core. -/
  | row (c : CoreId)
  /-- A hold-queue entry, by its number. -/
  | held (id : Nat)
  /-- A cue-table entry. -/
  | cue (slot : Nat)
  /-- A word met by a scrub, or any other word: nothing but the log. -/
  | scrub
  deriving DecidableEq, Repr

/-- A detected storage error (22 R442, R443). -/
structure EccErr where
  kind   : BitVec 3
  n      : Nat
  fatal  : Bool
  addr   : Word
  synd   : BitVec 16
  domain : BitVec 12
  inj    : Bool
  site   : EccSite
  deriving DecidableEq, Repr

end Sys2Proof
end

