-- ==== Sys2Proof/Opcode.lean ====
section
/-!
DEFINITION. The names of the functions that the long forms extend (02 R31–R33), and the fields of format V and of
the VX payload (02 R30, R32).
-/
namespace Sys2Proof

/-- The functions an IX prefix extends (02 R33): format I of majors 0x02 (func3 0–5), 0x06, 0x08, 0x09 and
format B of major 0x04. -/
inductive IxOp where
  | addi | andi | ori | xori | slti | sltiu | beq | bne | blt | bge | bltu | bgeu
  | jalr | ldB | ldH | ldW | ldD | ldBu | ldHu | ldWu | ldQ | stB | stH | stW | stD | stQ
  deriving DecidableEq, Repr

/-- The vector functions, majors 0x10–0x16, 0x18 and 0x19 of Table 2.6 (02 R36). -/
inductive VOp where
  | vadd | vsub | vmul | vmulh | vmulhu | vmin | vmax | vminu | vmaxu | vadds | vsubs | vaddsn | vsubsn | vabsd | vavg | vmac
  | vand | vor | vxor | vandn | vsll | vsrl | vsra | vrol | vnot | vpopc | vclz
  | vfadd | vfsub | vfmul | vfma | vfms | vfnma | vfmin | vfmax | vfabs | vfneg | vfdiv | vfsqrt
  | vcmpeq | vcmpne | vcmplt | vcmple | vcmpltn | vcmplen | vfcmpeq | vfcmplt | vfcmple | vfcmpun | mand | mor | mxor | mandn | mnot
  | vmov | vsplat | vext | vins | vslup | vsldn | vperm | vmerge | vcomp | vidx | vmaskn | mcount | mfirst
  | vrsum | vrmin | vrmax | vrminu | vrmaxu | vrand | vrior | vrxor | vfrsum | vfrmin | vfrmax | vframax
  | vwadd | vwmul | vwmuln | vdot | vdotn | vnshr | vnshrn | vpack
  | vld | vst | vlds | vsts | vldx | vstx | vldt | vldb
  | vcvtf | vcvti | vcvtn | vcvtw | vfn | vsin | vcos | vexp | vlog | vrcp | vrsq | vtanh | vsigm | vscale
  deriving DecidableEq, Repr

/-- The fields of a V-format word (02 R29, R30): vd, va, vb, mask, esize and the half-selects. -/
structure VFields where
  d  : Reg
  a  : Reg
  b  : Reg
  m  : BitVec 3
  e  : BitVec 2
  ha : BitVec 1
  hb : BitVec 1
  deriving DecidableEq, Repr

/-- The fields of a VX payload (02 R32 Table 2.4). -/
structure VxFields where
  swza : BitVec 8
  swzb : BitVec 8
  zero : BitVec 1
  qd   : BitVec 1
  qa   : BitVec 1
  qb   : BitVec 1
  alt  : BitVec 1
  deriving DecidableEq, Repr

/-- What a short form runs with (02 R30): merge mode, no swizzle, register operands, BF16. -/
def VxFields.short : VxFields :=
  { swza := 0xE4#8, swzb := 0xE4#8, zero := 0#1, qd := 0#1, qa := 0#1, qb := 0#1, alt := 0#1 }

end Sys2Proof
end

