-- ==== Sys2Proof/Syntax.lean ====
section
/-!
DEFINITION. The alphabet of the machine: one constructor per row of spec/opcode_table.json. The first are the long
forms, the encoding that is no instruction, and the steps the spec gives the hardware beside the cores (log 3); the
others are the instructions of one word.
A constructor of an instruction carries its encoded fields; a constructor of an event carries which party it
concerns and what the environment decides about it.
-/
namespace Sys2Proof

/-- Every instruction and every event of the opcode table, each with the rule of spec/ that gives its meaning. -/
inductive Instr where
  /-- IX_LONG_FORM (R33). -/
  | ixLongForm (op : IxOp) (d a : Reg) (i : BitVec 32)
  /-- VX_LONG_FORM (R32). -/
  | vxLongForm (op : VOp) (f : VFields) (x : VxFields)
  /-- Event (R167). -/
  | storeApply (c : CoreId) (id : Nat)
  /-- Event (R183). -/
  | tlbiComplete (id : Nat)
  /-- Event (R204). -/
  | atomicResultReturn (c : CoreId) (inst : Nat)
  /-- Event (R200). -/
  | orderWaitEnd (c : CoreId) (inst : Nat)
  /-- Event (R207). -/
  | redfArrival (x : Contribution)
  /-- Event (R207). -/
  | redfResend (x : Contribution)
  /-- Event (R208). -/
  | redfCellTimeout (addr : Nat)
  /-- Event (R210). -/
  | armamentRegister (c : CoreId) (slot j : Nat)
  /-- Event (R211). -/
  | armamentFire (dw : Nat)
  /-- Event (R217). -/
  | barrierArrival (x : Arrival)
  /-- Event (R217). -/
  | barrierRelease (x : Release)
  /-- Event (R141). -/
  | qdestroyEffect (q : QKey) (force : Bool)
  /-- Event (R138). -/
  | pushArrival (p : Push)
  /-- Event (R137). -/
  | flowCreditReturn (c : CoreId) (qid : BitVec 32)
  /-- Event (R136). -/
  | refillStart (q : QKey)
  /-- Event (R136). -/
  | refillLand (q : QKey)
  /-- Event (R142). -/
  | calderaLoss (q : QKey)
  /-- Event (R83). -/
  | createInstance (c : CoreId)
  /-- Event (R93). -/
  | preemptPriority7 (c : CoreId)
  /-- Event (R94). -/
  | serviceStop (x : SvcEvent)
  /-- Event (R427). -/
  | serviceKill (x : SvcEvent)
  /-- Event (R427). -/
  | serviceCkpt (x : SvcEvent)
  /-- Event (R96). -/
  | budgetOverrun (c : CoreId)
  /-- Event (R162). -/
  | farLoadTimeout (c : CoreId)
  /-- Event (R162). -/
  | farLoadReturn (c : CoreId) (inst : Nat)
  /-- Event (R174). -/
  | translationTimeout (c : CoreId)
  /-- Event (R174). -/
  | walkComplete (c : CoreId) (inst : Nat)
  /-- Event (R200). -/
  | orderWaitTimeout (c : CoreId)
  /-- Event (R204). -/
  | atomicResultTimeout (c : CoreId)
  /-- Event (R324). -/
  | issueWaitTimeout (c : CoreId)
  /-- Event (R177). -/
  | pagerRequestRetry (c : CoreId) (inst : Nat)
  /-- Event (R181). -/
  | migrationCommand (x : MigCmd)
  /-- Event (R181). -/
  | migrationComplete (frame : BitVec 40)
  /-- STX.CUE (R337). -/
  | stxCue (d a b c : Reg) (w : BitVec 2)
  /-- Event (R329). -/
  | remoteRequestArrival (x : RemoteReq)
  /-- Event (R324). -/
  | remoteAcknowledge (x : RemoteAck)
  /-- Event (R329). -/
  | landingAckAtOrigin (cue : BitVec 32)
  /-- Event (R329). -/
  | landingNotice (cue : BitVec 32)
  /-- Event (R330). -/
  | failureNotice (cue : BitVec 32)
  /-- Event (R330). -/
  | cueFailure (cue : BitVec 32)
  /-- Event (R329). -/
  | watch (cue : BitVec 32) (w : Watcher)
  /-- Event (R329). -/
  | watchResend (cue : BitVec 32)
  /-- Event (R331). -/
  | heldStoreExpiry (id : Nat)
  /-- Event (R328). -/
  | cueEntryFree (slot : BitVec 12)
  /-- Event (R338). -/
  | cueqAnswer (x : CueqRes)
  /-- Event (R339). -/
  | remoteResult (x : RemoteRes)
  /-- Event (R342). -/
  | flitReceive (trunk : BitVec 6) (f : Flit)
  /-- Event (R342). -/
  | ackTimeout (trunk : BitVec 6)
  /-- Event (R344). -/
  | laneFault (trunk : BitVec 6) (lane : Nat)
  /-- Event (R344). -/
  | retrainComplete (trunk : BitVec 6)
  /-- Event (R381). -/
  | rqforkExecute (bf : BitVec 2)
  /-- Event (R366). -/
  | bfstepExecute (bf : BitVec 2)
  /-- Event (R382). -/
  | poolCoreMove (bf : BitVec 2)
  /-- Event (R377). -/
  | smplShardArrival (bf : BitVec 2)
  /-- Event (R379). -/
  | mergeComplete (bf : BitVec 2)
  /-- Event (R378). -/
  | mergeDeadline (bf : BitVec 2)
  /-- Event (R380). -/
  | beamExecute (bf : BitVec 2)
  /-- Event (R272). -/
  | matrixAccept (e : EnsId)
  /-- Event (R278). -/
  | mloadbExecute (e : EnsId) (id : Nat)
  /-- Event (R281). -/
  | mmaExecute (e : EnsId) (id : Nat)
  /-- Event (R284). -/
  | mdrainExecute (e : EnsId) (id : Nat)
  /-- Event (R285). -/
  | mzeroExecute (e : EnsId) (id : Nat)
  /-- Event (R285). -/
  | mbinvExecute (e : EnsId) (id : Nat)
  /-- Event (R286). -/
  | mnotePush (e : EnsId) (id : Nat)
  /-- Event (R304). -/
  | xcopyExecute (eng : BitVec 6) (id n : Nat)
  /-- Event (R307). -/
  | xfillExecute (eng : BitVec 6) (id n : Nat)
  /-- Event (R310). -/
  | xredRootArrival (eng : BitVec 6) (x : RankArrival)
  /-- Event (R310). -/
  | xredChunk (eng : BitVec 6) (key : BitVec 32) (far : List FarChunk) (result : FarResult)
  /-- Event (R312). -/
  | xredDeadline (root : BitVec 12) (eng : BitVec 6) (key : BitVec 32)
  /-- Event (R410). -/
  | load (x : LoadCause)
  /-- Event (R411). -/
  | remove
  /-- Event (R416). -/
  | recast
  /-- Event (R413). -/
  | query
  /-- Event (R413). -/
  | map
  /-- Event (R413). -/
  | unmap
  /-- Event (R413). -/
  | lifetime
  /-- Event (R413). -/
  | append
  /-- Event (R453). -/
  | take
  /-- Event (R453). -/
  | epoch
  /-- Event (R453): a call, or a resume request in the store. -/
  | resume
  /-- Event (R453). -/
  | period
  /-- Event (R453). -/
  | epochTimer (load : Nat)
  /-- Event (R416). -/
  | inputClose (c : CoreId) (q : QKey)
  /-- Event (R416). -/
  | curtainRetry (role : Nat) (qid : BitVec 32)
  /-- Event (R416). -/
  | recastForward (role : Nat)
  /-- Event (R416). -/
  | recastInstall (role : Nat)
  /-- Event (R418). -/
  | recastDeadline (role : Nat)
  /-- Event (R422). -/
  | hostSubmission (page offset : Nat) (bytes : List Byte)
  /-- Event (R421). -/
  | hostPostedWrite (page offset : Nat)
  /-- Event (R423). -/
  | hostReply (page : Nat) (reply : BitVec 128)
  /-- Event (R442). -/
  | eccError (x : EccErr)
  /-- Event (R446). -/
  | selfTestEnd (id : Nat) (lasting : Bool)
  /-- Event (R447). -/
  | coreRetire (c : CoreId) (lost : List Nat)
  /-- Event (R443). -/
  | errorLogClear (kind : BitVec 3) (n entry : Nat)
  /-- Event (R444). -/
  | injectionArm (kind : BitVec 3) (n : Nat) (v : Word)
  /-- Event (R445). -/
  | retentionControl (kind : BitVec 3) (n : Nat) (on : Bool)
  /-- Event (R448). -/
  | monitorControl (m : Nat) (ctl : Word)
  /-- Event (R449). -/
  | monitorSample (m v : Nat)
  /-- Event (R450). -/
  | powerInterval (watts : Nat) (hot : List Nat)
  /-- Event (R455). -/
  | packageFailure (pkg : BitVec 12)
  /-- Event (R452). -/
  | startUp
  /-- Event (R5). -/
  | registerWrite (t : RegTarget) (v : Word)
  /-- Event (R41). -/
  | illEncoding (w : IWord) (w2 : Option IWord)
  /-- Event (R329). -/
  | landedCueCacheExpiry (cue : BitVec 32)
  /-- Event (R445). -/
  | retentionTransitionEnd (kind : BitVec 3) (n : Nat)
  /-- Event (R452). -/
  | hostImageArrival (bytes : List Byte)
  /-- ADD (R105). -/
  | add (d a b : Reg) (w : BitVec 1)
  /-- SUB (R105). -/
  | sub (d a b : Reg) (w : BitVec 1)
  /-- AND (R105). -/
  | and (d a b : Reg)
  /-- OR (R105). -/
  | or (d a b : Reg)
  /-- XOR (R105). -/
  | xor (d a b : Reg)
  /-- SLL (R105). -/
  | sll (d a b : Reg) (w : BitVec 1)
  /-- SRL (R105). -/
  | srl (d a b : Reg) (w : BitVec 1)
  /-- SRA (R105). -/
  | sra (d a b : Reg) (w : BitVec 1)
  /-- MUL (R105). -/
  | mul (d a b : Reg) (w : BitVec 1)
  /-- MULH (R105). -/
  | mulh (d a b : Reg)
  /-- MULHU (R105). -/
  | mulhu (d a b : Reg)
  /-- DIV (R105). -/
  | div (d a b : Reg) (w : BitVec 1)
  /-- DIVU (R105). -/
  | divu (d a b : Reg) (w : BitVec 1)
  /-- REM (R105). -/
  | rem (d a b : Reg) (w : BitVec 1)
  /-- REMU (R105). -/
  | remu (d a b : Reg) (w : BitVec 1)
  /-- SLT (R105). -/
  | slt (d a b : Reg)
  /-- SLTU (R105). -/
  | sltu (d a b : Reg)
  /-- SEQ (R105). -/
  | seq (d a b : Reg)
  /-- MIN (R105). -/
  | min (d a b : Reg)
  /-- MAX (R105). -/
  | max (d a b : Reg)
  /-- MINU (R105). -/
  | minu (d a b : Reg)
  /-- MAXU (R105). -/
  | maxu (d a b : Reg)
  /-- SELZ (R105). -/
  | selz (d a b c : Reg)
  /-- SELNZ (R105). -/
  | selnz (d a b c : Reg)
  /-- CLZ (R105). -/
  | clz (d a : Reg) (w : BitVec 1)
  /-- CTZ (R105). -/
  | ctz (d a : Reg) (w : BitVec 1)
  /-- POPC (R105). -/
  | popc (d a : Reg) (w : BitVec 1)
  /-- BREV (R105). -/
  | brev (d a : Reg)
  /-- BSWAP (R105). -/
  | bswap (d a : Reg)
  /-- ROL (R105). -/
  | rol (d a b : Reg) (w : BitVec 1)
  /-- ROR (R105). -/
  | ror (d a b : Reg) (w : BitVec 1)
  /-- ADDSH (R105). -/
  | addsh (d a b : Reg) (s : BitVec 2)
  /-- ADDI (R107). -/
  | addi (d a : Reg) (i : BitVec 13)
  /-- ANDI (R107). -/
  | andi (d a : Reg) (i : BitVec 13)
  /-- ORI (R107). -/
  | ori (d a : Reg) (i : BitVec 13)
  /-- XORI (R107). -/
  | xori (d a : Reg) (i : BitVec 13)
  /-- SLTI (R107). -/
  | slti (d a : Reg) (i : BitVec 13)
  /-- SLTIU (R107). -/
  | sltiu (d a : Reg) (i : BitVec 13)
  /-- SLLI (R108). -/
  | slli (d a : Reg) (w : BitVec 1) (s : BitVec 6)
  /-- SRLI (R108). -/
  | srli (d a : Reg) (w : BitVec 1) (s : BitVec 6)
  /-- SRAI (R108). -/
  | srai (d a : Reg) (w : BitVec 1) (s : BitVec 6)
  /-- RORI (R108). -/
  | rori (d a : Reg) (w : BitVec 1) (s : BitVec 6)
  /-- BFX (R109). -/
  | bfx (d a : Reg) (p l : BitVec 6)
  /-- BFXS (R109). -/
  | bfxs (d a : Reg) (p l : BitVec 6)
  /-- LIH (R110). -/
  | lih (d : Reg) (i : BitVec 21)
  /-- BEQ (R111). -/
  | beq (a b : Reg) (i : BitVec 13)
  /-- BNE (R111). -/
  | bne (a b : Reg) (i : BitVec 13)
  /-- BLT (R111). -/
  | blt (a b : Reg) (i : BitVec 13)
  /-- BGE (R111). -/
  | bge (a b : Reg) (i : BitVec 13)
  /-- BLTU (R111). -/
  | bltu (a b : Reg) (i : BitVec 13)
  /-- BGEU (R111). -/
  | bgeu (a b : Reg) (i : BitVec 13)
  /-- JAL (R112). -/
  | jal (d : Reg) (i : BitVec 21)
  /-- JALR (R113). -/
  | jalr (d a : Reg) (i : BitVec 13)
  /-- TEND (R103). -/
  | tend
  /-- TPOST (R100). -/
  | tpost (d : Reg) (r : BitVec 6)
  /-- TSTATE (R101). -/
  | tstate (d : Reg)
  /-- TCYCLES (R102). -/
  | tcycles (d : Reg)
  /-- TSETARG (R100). -/
  | tsetarg (a : Reg) (r : BitVec 6)
  /-- TENABLE (R100). -/
  | tenable (d : Reg) (r : BitVec 6)
  /-- TDISABLE (R100). -/
  | tdisable (d : Reg) (r : BitVec 6)
  /-- VCLAIM (R225). -/
  | vclaim (d a : Reg)
  /-- CSRR (R118). -/
  | csrr (d u : BitVec 5) (v : BitVec 6)
  /-- CSRW (R118). -/
  | csrw (d a u : BitVec 5) (v : BitVec 6)
  /-- CSRS (R118). -/
  | csrs (d a u : BitVec 5) (v : BitVec 6)
  /-- CSRC (R118). -/
  | csrc (d a u : BitVec 5) (v : BitVec 6)
  /-- TRAP (R119). -/
  | trap (a : Reg) (c : BitVec 6)
  /-- BREAK (R120). -/
  | brk (c : BitVec 6)
  /-- SVBIND (R426). -/
  | svbind (d a b : Reg)
  /-- SVHALT (R427). -/
  | svhalt (d a b : Reg)
  /-- SVRESUME (R428). -/
  | svresume (d a b : Reg)
  /-- SVRESUME.R (R428). -/
  | svresumeR (d a b : Reg)
  /-- SVMAP (R429). -/
  | svmap (d a b : Reg)
  /-- LD.B (R166). -/
  | ldB (d a : Reg) (i : BitVec 13)
  /-- LD.H (R166). -/
  | ldH (d a : Reg) (i : BitVec 13)
  /-- LD.W (R166). -/
  | ldW (d a : Reg) (i : BitVec 13)
  /-- LD.D (R166). -/
  | ldD (d a : Reg) (i : BitVec 13)
  /-- LD.BU (R166). -/
  | ldBu (d a : Reg) (i : BitVec 13)
  /-- LD.HU (R166). -/
  | ldHu (d a : Reg) (i : BitVec 13)
  /-- LD.WU (R166). -/
  | ldWu (d a : Reg) (i : BitVec 13)
  /-- LD.Q (R166). -/
  | ldQ (d a : Reg) (i : BitVec 13)
  /-- ST.B (R166). -/
  | stB (d a : Reg) (i : BitVec 13)
  /-- ST.H (R166). -/
  | stH (d a : Reg) (i : BitVec 13)
  /-- ST.W (R166). -/
  | stW (d a : Reg) (i : BitVec 13)
  /-- ST.D (R166). -/
  | stD (d a : Reg) (i : BitVec 13)
  /-- ST.Q (R166). -/
  | stQ (d a : Reg) (i : BitVec 13)
  /-- BLD (R169). -/
  | bld (d a b w : BitVec 5)
  /-- BLDS (R169). -/
  | blds (d a b w : BitVec 5)
  /-- BST (R169). -/
  | bst (d a b w : BitVec 5)
  /-- BLDP (R169). -/
  | bldp (d a b w : BitVec 5)
  /-- BSTP (R169). -/
  | bstp (d a b w : BitVec 5)
  /-- TLBIV (R183). -/
  | tlbiv (d a b : Reg)
  /-- TLBID (R183). -/
  | tlbid (d a : Reg)
  /-- TLBPRB (R185). -/
  | tlbprb (d a b : Reg)
  /-- PREF (R186). -/
  | pref (a : Reg) (p : BitVec 1)
  /-- AMO.ADD (R203). -/
  | amoAdd (d a b : Reg) (s : BitVec 3) (p : BitVec 2) (w : BitVec 1)
  /-- AMO.AND (R203). -/
  | amoAnd (d a b : Reg) (s : BitVec 3) (p : BitVec 2) (w : BitVec 1)
  /-- AMO.OR (R203). -/
  | amoOr (d a b : Reg) (s : BitVec 3) (p : BitVec 2) (w : BitVec 1)
  /-- AMO.XOR (R203). -/
  | amoXor (d a b : Reg) (s : BitVec 3) (p : BitVec 2) (w : BitVec 1)
  /-- AMO.MIN (R203). -/
  | amoMin (d a b : Reg) (s : BitVec 3) (p : BitVec 2) (w : BitVec 1)
  /-- AMO.MAX (R203). -/
  | amoMax (d a b : Reg) (s : BitVec 3) (p : BitVec 2) (w : BitVec 1)
  /-- AMO.MINU (R203). -/
  | amoMinu (d a b : Reg) (s : BitVec 3) (p : BitVec 2) (w : BitVec 1)
  /-- AMO.MAXU (R203). -/
  | amoMaxu (d a b : Reg) (s : BitVec 3) (p : BitVec 2) (w : BitVec 1)
  /-- AMO.SWAP (R203). -/
  | amoSwap (d a b : Reg) (s : BitVec 3) (p : BitVec 2) (w : BitVec 1)
  /-- AMO.CAS (R203). -/
  | amoCas (d a b : Reg) (s : BitVec 3) (p : BitVec 2) (w : BitVec 1)
  /-- FENCE (R199). -/
  | fence (k : BitVec 2) (s : BitVec 3)
  /-- LD.ACQ (R198). -/
  | ldAcq (d a : Reg) (s x : BitVec 3)
  /-- ST.REL (R198). -/
  | stRel (d a : Reg) (s x : BitVec 3)
  /-- REDF (R206). -/
  | redf (d a b : Reg)
  /-- TARM (R209). -/
  | tarm (a c : Reg) (r : BitVec 6)
  /-- BARRIER (R216). -/
  | barrier (d a : Reg)
  /-- BARQ (R216). -/
  | barq (d a b : Reg)
  /-- QPOP (R146). -/
  | qpop (d a b : Reg)
  /-- QPOP.M (R147). -/
  | qpopM (d a b : Reg)
  /-- QTAG (R148). -/
  | qtag (d a : Reg)
  /-- QCOUNT (R149). -/
  | qcount (d a : Reg)
  /-- QDROP (R148). -/
  | qdrop (d a : Reg)
  /-- QPUSH (R150). -/
  | qpush (d a b : Reg) (g : BitVec 1) (t : BitVec 4)
  /-- QPUSH.M (R150). -/
  | qpushM (d a b : Reg) (g : BitVec 1) (t : BitVec 4)
  /-- QMARK (R151). -/
  | qmark (d a : Reg) (g : BitVec 1)
  /-- QHANDLE (R152). -/
  | qhandle (d a : Reg)
  /-- QCREATE (R153). -/
  | qcreate (d a : Reg)
  /-- QDESTROY (R154). -/
  | qdestroy (d a : Reg) (f : BitVec 1)
  /-- QSTAT (R152). -/
  | qstat (d a : Reg)
  /-- STX (R337). -/
  | stx (d a b : Reg) (w : BitVec 2)
  /-- ST.CUE (R337). -/
  | stCue (d a b : Reg) (w : BitVec 2)
  /-- CUEQ (R338). -/
  | cueq (d a : Reg)
  /-- GETQ (R339). -/
  | getq (d a b : Reg) (w : BitVec 2)
  /-- AMOQ (R339). -/
  | amoq (d a b : Reg) (x : BitVec 1) (o : BitVec 4)
  /-- LNKDIAG (R352). -/
  | lnkdiag (d a b : Reg)
  /-- LNKSTAT (R351). -/
  | lnkstat (d a : Reg)
  /-- RQALLOC (R385). -/
  | rqalloc (d : Reg)
  /-- RQREAD (R385). -/
  | rqread (d a w : BitVec 5)
  /-- RQWRITE (R385). -/
  | rqwrite (d a b w : BitVec 5)
  /-- RQQUEUE (R385). -/
  | rqqueue (d a : Reg)
  /-- RQCOMMIT (R372). -/
  | rqcommit (d a b : Reg)
  /-- RQFORK (R386). -/
  | rqfork (d a b : Reg)
  /-- RQRETIRE (R385). -/
  | rqretire (d a b : Reg)
  /-- RQRETIRE.FREE (R385). -/
  | rqretireFree (d a : Reg)
  /-- RQPARK (R385). -/
  | rqpark (d a : Reg)
  /-- BFSTEP (R387). -/
  | bfstep (d a : Reg)
  /-- SMPL (R388). -/
  | smpl (d a b : Reg)
  /-- BEAM (R389). -/
  | beam (d a b : Reg)
  /-- LAHAR (R390). -/
  | lahar (d a b : Reg) (h : BitVec 1)
  /-- VADD (R233). -/
  | vadd (d a b : Reg) (m : BitVec 3) (e : BitVec 2)
  /-- VSUB (R233). -/
  | vsub (d a b : Reg) (m : BitVec 3) (e : BitVec 2)
  /-- VMUL (R233). -/
  | vmul (d a b : Reg) (m : BitVec 3) (e : BitVec 2)
  /-- VMULH (R233). -/
  | vmulh (d a b : Reg) (m : BitVec 3) (e : BitVec 2)
  /-- VMULHU (R233). -/
  | vmulhu (d a b : Reg) (m : BitVec 3) (e : BitVec 2)
  /-- VMIN (R233). -/
  | vmin (d a b : Reg) (m : BitVec 3) (e : BitVec 2)
  /-- VMAX (R233). -/
  | vmax (d a b : Reg) (m : BitVec 3) (e : BitVec 2)
  /-- VMINU (R233). -/
  | vminu (d a b : Reg) (m : BitVec 3) (e : BitVec 2)
  /-- VMAXU (R233). -/
  | vmaxu (d a b : Reg) (m : BitVec 3) (e : BitVec 2)
  /-- VADDS (R233). -/
  | vadds (d a b : Reg) (m : BitVec 3) (e : BitVec 2)
  /-- VSUBS (R233). -/
  | vsubs (d a b : Reg) (m : BitVec 3) (e : BitVec 2)
  /-- VADDSN (R233). -/
  | vaddsn (d a b : Reg) (m : BitVec 3) (e : BitVec 2)
  /-- VSUBSN (R233). -/
  | vsubsn (d a b : Reg) (m : BitVec 3) (e : BitVec 2)
  /-- VABSD (R233). -/
  | vabsd (d a b : Reg) (m : BitVec 3) (e : BitVec 2)
  /-- VAVG (R233). -/
  | vavg (d a b : Reg) (m : BitVec 3) (e : BitVec 2)
  /-- VMAC (R233). -/
  | vmac (d a b : Reg) (m : BitVec 3) (e : BitVec 2)
  /-- VAND (R234). -/
  | vand (d a b : Reg) (m : BitVec 3) (e : BitVec 2)
  /-- VOR (R234). -/
  | vor (d a b : Reg) (m : BitVec 3) (e : BitVec 2)
  /-- VXOR (R234). -/
  | vxor (d a b : Reg) (m : BitVec 3) (e : BitVec 2)
  /-- VANDN (R234). -/
  | vandn (d a b : Reg) (m : BitVec 3) (e : BitVec 2)
  /-- VSLL (R234). -/
  | vsll (d a b : Reg) (m : BitVec 3) (e : BitVec 2)
  /-- VSRL (R234). -/
  | vsrl (d a b : Reg) (m : BitVec 3) (e : BitVec 2)
  /-- VSRA (R234). -/
  | vsra (d a b : Reg) (m : BitVec 3) (e : BitVec 2)
  /-- VROL (R234). -/
  | vrol (d a b : Reg) (m : BitVec 3) (e : BitVec 2)
  /-- VNOT (R234). -/
  | vnot (d a : Reg) (m : BitVec 3) (e : BitVec 2)
  /-- VPOPC (R234). -/
  | vpopc (d a : Reg) (m : BitVec 3) (e : BitVec 2)
  /-- VCLZ (R234). -/
  | vclz (d a : Reg) (m : BitVec 3) (e : BitVec 2)
  /-- VFADD (R235). -/
  | vfadd (d a b : Reg) (m : BitVec 3) (e : BitVec 1)
  /-- VFSUB (R235). -/
  | vfsub (d a b : Reg) (m : BitVec 3) (e : BitVec 1)
  /-- VFMUL (R235). -/
  | vfmul (d a b : Reg) (m : BitVec 3) (e : BitVec 1)
  /-- VFMA (R235). -/
  | vfma (d a b : Reg) (m : BitVec 3) (e : BitVec 1)
  /-- VFMS (R235). -/
  | vfms (d a b : Reg) (m : BitVec 3) (e : BitVec 1)
  /-- VFNMA (R235). -/
  | vfnma (d a b : Reg) (m : BitVec 3) (e : BitVec 1)
  /-- VFMIN (R235). -/
  | vfmin (d a b : Reg) (m : BitVec 3) (e : BitVec 1)
  /-- VFMAX (R235). -/
  | vfmax (d a b : Reg) (m : BitVec 3) (e : BitVec 1)
  /-- VFABS (R235). -/
  | vfabs (d a : Reg) (m : BitVec 3) (e : BitVec 1)
  /-- VFNEG (R235). -/
  | vfneg (d a : Reg) (m : BitVec 3) (e : BitVec 1)
  /-- VFDIV (R235). -/
  | vfdiv (d a b : Reg) (m : BitVec 3) (e : BitVec 1)
  /-- VFSQRT (R235). -/
  | vfsqrt (d a : Reg) (m : BitVec 3) (e : BitVec 1)
  /-- VCMPEQ (R236). -/
  | vcmpeq (d a b : Reg) (m : BitVec 3)
  /-- VCMPNE (R236). -/
  | vcmpne (d a b : Reg) (m : BitVec 3)
  /-- VCMPLT (R236). -/
  | vcmplt (d a b : Reg) (m : BitVec 3)
  /-- VCMPLE (R236). -/
  | vcmple (d a b : Reg) (m : BitVec 3)
  /-- VCMPLTN (R236). -/
  | vcmpltn (d a b : Reg) (m : BitVec 3)
  /-- VCMPLEN (R236). -/
  | vcmplen (d a b : Reg) (m : BitVec 3)
  /-- VFCMPEQ (R236). -/
  | vfcmpeq (d a b : Reg) (m : BitVec 3)
  /-- VFCMPLT (R236). -/
  | vfcmplt (d a b : Reg) (m : BitVec 3)
  /-- VFCMPLE (R236). -/
  | vfcmple (d a b : Reg) (m : BitVec 3)
  /-- VFCMPUN (R236). -/
  | vfcmpun (d a b : Reg) (m : BitVec 3)
  /-- MAND (R237). -/
  | mand (d a b : Reg)
  /-- MOR (R237). -/
  | mor (d a b : Reg)
  /-- MXOR (R237). -/
  | mxor (d a b : Reg)
  /-- MANDN (R237). -/
  | mandn (d a b : Reg)
  /-- MNOT (R237). -/
  | mnot (d a : Reg)
  /-- VMOV (R238). -/
  | vmov (d a : Reg) (m : BitVec 3) (e : BitVec 2)
  /-- VSPLAT (R238). -/
  | vsplat (d a : Reg) (m : BitVec 3) (e : BitVec 2)
  /-- VEXT (R238). -/
  | vext (d a b : Reg) (e : BitVec 2)
  /-- VINS (R238). -/
  | vins (d a b : Reg) (e : BitVec 2)
  /-- VSLUP (R238). -/
  | vslup (d a b : Reg) (m : BitVec 3) (e : BitVec 2)
  /-- VSLDN (R238). -/
  | vsldn (d a b : Reg) (m : BitVec 3) (e : BitVec 2)
  /-- VPERM (R238). -/
  | vperm (d a b : Reg) (m : BitVec 3) (e : BitVec 2)
  /-- VMERGE (R238). -/
  | vmerge (d a b : Reg) (m : BitVec 3) (e : BitVec 2)
  /-- VCOMP (R238). -/
  | vcomp (d a : Reg) (m : BitVec 3)
  /-- VIDX (R238). -/
  | vidx (d : Reg) (m : BitVec 3) (e : BitVec 2)
  /-- VMASKN (R238). -/
  | vmaskn (d a : Reg)
  /-- MCOUNT (R238). -/
  | mcount (d a : Reg)
  /-- MFIRST (R238). -/
  | mfirst (d a : Reg)
  /-- VRSUM (R239). -/
  | vrsum (d a : Reg) (m : BitVec 3) (e : BitVec 2)
  /-- VRMIN (R239). -/
  | vrmin (d a : Reg) (m : BitVec 3) (e : BitVec 2)
  /-- VRMAX (R239). -/
  | vrmax (d a : Reg) (m : BitVec 3) (e : BitVec 2)
  /-- VRMINU (R239). -/
  | vrminu (d a : Reg) (m : BitVec 3) (e : BitVec 2)
  /-- VRMAXU (R239). -/
  | vrmaxu (d a : Reg) (m : BitVec 3) (e : BitVec 2)
  /-- VRAND (R239). -/
  | vrand (d a : Reg) (m : BitVec 3) (e : BitVec 2)
  /-- VRIOR (R239). -/
  | vrior (d a : Reg) (m : BitVec 3) (e : BitVec 2)
  /-- VRXOR (R239). -/
  | vrxor (d a : Reg) (m : BitVec 3) (e : BitVec 2)
  /-- VFRSUM (R239). -/
  | vfrsum (d a : Reg) (m : BitVec 3) (e : BitVec 1)
  /-- VFRMIN (R239). -/
  | vfrmin (d a : Reg) (m : BitVec 3) (e : BitVec 1)
  /-- VFRMAX (R239). -/
  | vfrmax (d a : Reg) (m : BitVec 3) (e : BitVec 1)
  /-- VFRAMAX (R239). -/
  | vframax (d a : Reg) (m : BitVec 3) (e : BitVec 1)
  /-- VWADD (R240). -/
  | vwadd (d a b : Reg) (m : BitVec 3) (e : BitVec 2) (h k : BitVec 1)
  /-- VWMUL (R240). -/
  | vwmul (d a b : Reg) (m : BitVec 3) (e : BitVec 2) (h k : BitVec 1)
  /-- VWMULN (R240). -/
  | vwmuln (d a b : Reg) (m : BitVec 3) (e : BitVec 2) (h k : BitVec 1)
  /-- VDOT (R241). -/
  | vdot (d a b : Reg) (m : BitVec 3) (e : BitVec 2) (h k : BitVec 1)
  /-- VDOTN (R241). -/
  | vdotn (d a b : Reg) (m : BitVec 3) (e : BitVec 2) (h k : BitVec 1)
  /-- VNSHR (R242). -/
  | vnshr (d a b : Reg) (m : BitVec 3) (e : BitVec 2)
  /-- VNSHRN (R242). -/
  | vnshrn (d a b : Reg) (m : BitVec 3) (e : BitVec 2)
  /-- VPACK (R242). -/
  | vpack (d a b : Reg) (m : BitVec 3) (e : BitVec 2)
  /-- VLD (R243). -/
  | vld (d a : Reg) (m : BitVec 3) (e : BitVec 2)
  /-- VST (R243). -/
  | vst (d a : Reg) (m : BitVec 3) (e : BitVec 2)
  /-- VLDS (R243). -/
  | vlds (d a b : Reg) (m : BitVec 3) (e : BitVec 2)
  /-- VSTS (R243). -/
  | vsts (d a b : Reg) (m : BitVec 3) (e : BitVec 2)
  /-- VLDX (R243). -/
  | vldx (d a b : Reg) (m : BitVec 3)
  /-- VSTX (R243). -/
  | vstx (d a b : Reg) (m : BitVec 3)
  /-- VLDT (R244). -/
  | vldt (d a b : Reg) (m : BitVec 3) (e : BitVec 2)
  /-- VLDB (R243). -/
  | vldb (d a : Reg) (m : BitVec 3) (e : BitVec 2)
  /-- VCVTF (R246). -/
  | vcvtf (d a : Reg) (m : BitVec 3) (e : BitVec 1)
  /-- VCVTI (R246). -/
  | vcvti (d a : Reg) (m : BitVec 3) (e : BitVec 1)
  /-- VCVTN (R247). -/
  | vcvtn (d a c : Reg) (e : BitVec 2)
  /-- VCVTW (R248). -/
  | vcvtw (d a c : Reg) (m : BitVec 3) (e : BitVec 2) (h : BitVec 1)
  /-- VFN (R251). -/
  | vfn (d a t : BitVec 5) (m : BitVec 3)
  /-- VSIN (R256). -/
  | vsin (d a : Reg) (m : BitVec 3)
  /-- VCOS (R256). -/
  | vcos (d a : Reg) (m : BitVec 3)
  /-- VEXP (R254). -/
  | vexp (d a : Reg) (m : BitVec 3)
  /-- VLOG (R254). -/
  | vlog (d a : Reg) (m : BitVec 3)
  /-- VRCP (R253). -/
  | vrcp (d a : Reg) (m : BitVec 3)
  /-- VRSQ (R253). -/
  | vrsq (d a : Reg) (m : BitVec 3)
  /-- VTANH (R255). -/
  | vtanh (d a : Reg) (m : BitVec 3)
  /-- VSIGM (R255). -/
  | vsigm (d a : Reg) (m : BitVec 3)
  /-- VSCALE (R249). -/
  | vscale (d a b : Reg) (m : BitVec 3)
  /-- MLOADB (R275). -/
  | mloadb (d a b : Reg) (k : BitVec 6)
  /-- MMA (R280). -/
  | mma (d a b : Reg) (k : BitVec 6)
  /-- MDRAIN (R283). -/
  | mdrain (d a b : Reg) (z : BitVec 1) (c : BitVec 3)
  /-- MZERO (R285). -/
  | mzero (d : Reg)
  /-- MBINV (R285). -/
  | mbinv (k : BitVec 6)
  /-- MBSTAT (R288). -/
  | mbstat (d : Reg) (k : BitVec 6)
  /-- MNOTE (R286). -/
  | mnote (d a : Reg)
  /-- TDSET (R289). -/
  | tdset (a b : Reg)
  /-- TDGET (R289). -/
  | tdget (a b : Reg)
  /-- TDALLOC (R290). -/
  | tdalloc (d : Reg)
  /-- TDFREE (R290). -/
  | tdfree (d a : Reg)
  /-- TDRAG (R291). -/
  | tdrag (a b : Reg)
  /-- XCOPY (R302). -/
  | xcopy (d a b : Reg) (r : BitVec 1)
  /-- XRED (R308). -/
  | xred (d a b : Reg) (r : BitVec 1)
  /-- XFILL (R307). -/
  | xfill (d a b : Reg) (r : BitVec 1)
  /-- XSTAT (R317). -/
  | xstat (d a : Reg)
  /-- XABORT (R318). -/
  | xabort (d a : Reg)
  deriving DecidableEq, Repr

end Sys2Proof
end

