-- ==== Sys2Proof/Machine/Forms.lean ====
section
/-!
DEFINITION. Which operand values an encoding admits (02 R29–R40): the checks that a well-formed instruction passes, and
the table of the vector functions, from which the short and the long vector forms are checked alike.
-/
namespace Sys2Proof.Machine

/-- A queue handle field holds 0–15 (02 R38). -/
def handleOk (r : Reg) : Bool := decide (r.toNat < 16)
/-- An accumulator field holds 0–7 (02 R38). -/
def accOk (r : Reg) : Bool := decide (r.toNat < 8)
/-- A register pair starts at an even, nonzero register (08 R165, 09 R198). -/
def pairOk (r : Reg) : Bool := r.toNat % 2 == 0 && r.toNat != 0
/-- Scope values 0–5 (02 R37). -/
def scopeOk (s : BitVec 3) : Bool := decide (s.toNat ≤ 5)

/-- What the destination field of a vector function names. -/
inductive DKind where
  /-- A vector register that is only written, or a stored value. -/
  | vec
  /-- A vector register that is also read (11 R230). -/
  | acc
  | scalar
  | mask
  /-- The first of 16 registers (11 R244). -/
  | group
  deriving DecidableEq, Repr

/-- What a source field of a vector function names. -/
inductive SKind where
  | vec | scalar | mask | table | fmt | none
  deriving DecidableEq, Repr

/-- How a vector function uses the mask field (11 R227). -/
inductive MKind where
  | governs | selects | ignored
  deriving DecidableEq, Repr

/-- Which half-selects a vector function takes (02 R30). -/
inductive HKind where
  | none | first | both
  deriving DecidableEq, Repr

/-- A vector function's place in the opcode map and the use of its fields. `sizes` has bit n for esize n. -/
structure VSpec where
  major : BitVec 6
  func  : BitVec 4
  d     : DKind
  a     : SKind
  b     : SKind
  sizes : BitVec 4
  m     : MKind
  h     : HKind
  /-- A float function that ALT turns from BF16 to FP16 (02 Table 2.4). -/
  alt   : Bool
  deriving DecidableEq, Repr

/-- The vector functions (02 Table 2.6; 11 Tables 11.1–11.8, R239–R249). -/
def vspec : VOp → VSpec
  | .vadd => ⟨0x10#6, 0x0#4, .vec, .vec, .vec, 0b1111#4, .governs, .none, false⟩
  | .vsub => ⟨0x10#6, 0x1#4, .vec, .vec, .vec, 0b1111#4, .governs, .none, false⟩
  | .vmul => ⟨0x10#6, 0x2#4, .vec, .vec, .vec, 0b1111#4, .governs, .none, false⟩
  | .vmulh => ⟨0x10#6, 0x3#4, .vec, .vec, .vec, 0b1111#4, .governs, .none, false⟩
  | .vmulhu => ⟨0x10#6, 0x4#4, .vec, .vec, .vec, 0b1111#4, .governs, .none, false⟩
  | .vmin => ⟨0x10#6, 0x5#4, .vec, .vec, .vec, 0b1111#4, .governs, .none, false⟩
  | .vmax => ⟨0x10#6, 0x6#4, .vec, .vec, .vec, 0b1111#4, .governs, .none, false⟩
  | .vminu => ⟨0x10#6, 0x7#4, .vec, .vec, .vec, 0b1111#4, .governs, .none, false⟩
  | .vmaxu => ⟨0x10#6, 0x8#4, .vec, .vec, .vec, 0b1111#4, .governs, .none, false⟩
  | .vadds => ⟨0x10#6, 0x9#4, .vec, .vec, .vec, 0b1111#4, .governs, .none, false⟩
  | .vsubs => ⟨0x10#6, 0xA#4, .vec, .vec, .vec, 0b1111#4, .governs, .none, false⟩
  | .vaddsn => ⟨0x10#6, 0xB#4, .vec, .vec, .vec, 0b1111#4, .governs, .none, false⟩
  | .vsubsn => ⟨0x10#6, 0xC#4, .vec, .vec, .vec, 0b1111#4, .governs, .none, false⟩
  | .vabsd => ⟨0x10#6, 0xD#4, .vec, .vec, .vec, 0b1111#4, .governs, .none, false⟩
  | .vavg => ⟨0x10#6, 0xE#4, .vec, .vec, .vec, 0b1111#4, .governs, .none, false⟩
  | .vmac => ⟨0x10#6, 0xF#4, .acc, .vec, .vec, 0b1111#4, .governs, .none, false⟩
  | .vand => ⟨0x11#6, 0x0#4, .vec, .vec, .vec, 0b1111#4, .governs, .none, false⟩
  | .vor => ⟨0x11#6, 0x1#4, .vec, .vec, .vec, 0b1111#4, .governs, .none, false⟩
  | .vxor => ⟨0x11#6, 0x2#4, .vec, .vec, .vec, 0b1111#4, .governs, .none, false⟩
  | .vandn => ⟨0x11#6, 0x3#4, .vec, .vec, .vec, 0b1111#4, .governs, .none, false⟩
  | .vsll => ⟨0x11#6, 0x4#4, .vec, .vec, .vec, 0b1111#4, .governs, .none, false⟩
  | .vsrl => ⟨0x11#6, 0x5#4, .vec, .vec, .vec, 0b1111#4, .governs, .none, false⟩
  | .vsra => ⟨0x11#6, 0x6#4, .vec, .vec, .vec, 0b1111#4, .governs, .none, false⟩
  | .vrol => ⟨0x11#6, 0x7#4, .vec, .vec, .vec, 0b1111#4, .governs, .none, false⟩
  | .vnot => ⟨0x11#6, 0x8#4, .vec, .vec, .none, 0b1111#4, .governs, .none, false⟩
  | .vpopc => ⟨0x11#6, 0x9#4, .vec, .vec, .none, 0b1111#4, .governs, .none, false⟩
  | .vclz => ⟨0x11#6, 0xA#4, .vec, .vec, .none, 0b1111#4, .governs, .none, false⟩
  | .vfadd => ⟨0x12#6, 0x0#4, .vec, .vec, .vec, 0b0011#4, .governs, .none, true⟩
  | .vfsub => ⟨0x12#6, 0x1#4, .vec, .vec, .vec, 0b0011#4, .governs, .none, true⟩
  | .vfmul => ⟨0x12#6, 0x2#4, .vec, .vec, .vec, 0b0011#4, .governs, .none, true⟩
  | .vfma => ⟨0x12#6, 0x3#4, .acc, .vec, .vec, 0b0011#4, .governs, .none, true⟩
  | .vfms => ⟨0x12#6, 0x4#4, .acc, .vec, .vec, 0b0011#4, .governs, .none, true⟩
  | .vfnma => ⟨0x12#6, 0x5#4, .acc, .vec, .vec, 0b0011#4, .governs, .none, true⟩
  | .vfmin => ⟨0x12#6, 0x6#4, .vec, .vec, .vec, 0b0011#4, .governs, .none, true⟩
  | .vfmax => ⟨0x12#6, 0x7#4, .vec, .vec, .vec, 0b0011#4, .governs, .none, true⟩
  | .vfabs => ⟨0x12#6, 0x8#4, .vec, .vec, .none, 0b0011#4, .governs, .none, true⟩
  | .vfneg => ⟨0x12#6, 0x9#4, .vec, .vec, .none, 0b0011#4, .governs, .none, true⟩
  | .vfdiv => ⟨0x12#6, 0xA#4, .vec, .vec, .vec, 0b0011#4, .governs, .none, true⟩
  | .vfsqrt => ⟨0x12#6, 0xB#4, .vec, .vec, .none, 0b0011#4, .governs, .none, true⟩
  | .vcmpeq => ⟨0x13#6, 0x0#4, .mask, .vec, .vec, 0b0001#4, .governs, .none, false⟩
  | .vcmpne => ⟨0x13#6, 0x1#4, .mask, .vec, .vec, 0b0001#4, .governs, .none, false⟩
  | .vcmplt => ⟨0x13#6, 0x2#4, .mask, .vec, .vec, 0b0001#4, .governs, .none, false⟩
  | .vcmple => ⟨0x13#6, 0x3#4, .mask, .vec, .vec, 0b0001#4, .governs, .none, false⟩
  | .vcmpltn => ⟨0x13#6, 0x4#4, .mask, .vec, .vec, 0b0001#4, .governs, .none, false⟩
  | .vcmplen => ⟨0x13#6, 0x5#4, .mask, .vec, .vec, 0b0001#4, .governs, .none, false⟩
  | .vfcmpeq => ⟨0x13#6, 0x6#4, .mask, .vec, .vec, 0b0001#4, .governs, .none, false⟩
  | .vfcmplt => ⟨0x13#6, 0x7#4, .mask, .vec, .vec, 0b0001#4, .governs, .none, false⟩
  | .vfcmple => ⟨0x13#6, 0x8#4, .mask, .vec, .vec, 0b0001#4, .governs, .none, false⟩
  | .vfcmpun => ⟨0x13#6, 0x9#4, .mask, .vec, .vec, 0b0001#4, .governs, .none, false⟩
  | .mand => ⟨0x13#6, 0xA#4, .mask, .mask, .mask, 0b0001#4, .ignored, .none, false⟩
  | .mor => ⟨0x13#6, 0xB#4, .mask, .mask, .mask, 0b0001#4, .ignored, .none, false⟩
  | .mxor => ⟨0x13#6, 0xC#4, .mask, .mask, .mask, 0b0001#4, .ignored, .none, false⟩
  | .mandn => ⟨0x13#6, 0xD#4, .mask, .mask, .mask, 0b0001#4, .ignored, .none, false⟩
  | .mnot => ⟨0x13#6, 0xE#4, .mask, .mask, .none, 0b0001#4, .ignored, .none, false⟩
  | .vmov => ⟨0x14#6, 0x0#4, .vec, .vec, .none, 0b1111#4, .governs, .none, false⟩
  | .vsplat => ⟨0x14#6, 0x1#4, .vec, .scalar, .none, 0b1111#4, .governs, .none, false⟩
  | .vext => ⟨0x14#6, 0x2#4, .scalar, .vec, .scalar, 0b1111#4, .ignored, .none, false⟩
  | .vins => ⟨0x14#6, 0x3#4, .acc, .scalar, .scalar, 0b1111#4, .ignored, .none, false⟩
  | .vslup => ⟨0x14#6, 0x4#4, .vec, .vec, .scalar, 0b1111#4, .governs, .none, false⟩
  | .vsldn => ⟨0x14#6, 0x5#4, .vec, .vec, .scalar, 0b1111#4, .governs, .none, false⟩
  | .vperm => ⟨0x14#6, 0x6#4, .vec, .vec, .vec, 0b1111#4, .governs, .none, false⟩
  | .vmerge => ⟨0x14#6, 0x7#4, .vec, .vec, .vec, 0b1111#4, .selects, .none, false⟩
  | .vcomp => ⟨0x14#6, 0x8#4, .vec, .vec, .none, 0b0001#4, .selects, .none, false⟩
  | .vidx => ⟨0x14#6, 0x9#4, .vec, .none, .none, 0b1111#4, .governs, .none, false⟩
  | .vmaskn => ⟨0x14#6, 0xA#4, .mask, .scalar, .none, 0b0001#4, .ignored, .none, false⟩
  | .mcount => ⟨0x14#6, 0xB#4, .scalar, .mask, .none, 0b0001#4, .ignored, .none, false⟩
  | .mfirst => ⟨0x14#6, 0xC#4, .scalar, .mask, .none, 0b0001#4, .ignored, .none, false⟩
  | .vrsum => ⟨0x15#6, 0x0#4, .scalar, .vec, .none, 0b1111#4, .governs, .none, false⟩
  | .vrmin => ⟨0x15#6, 0x1#4, .scalar, .vec, .none, 0b1111#4, .governs, .none, false⟩
  | .vrmax => ⟨0x15#6, 0x2#4, .scalar, .vec, .none, 0b1111#4, .governs, .none, false⟩
  | .vrminu => ⟨0x15#6, 0x3#4, .scalar, .vec, .none, 0b1111#4, .governs, .none, false⟩
  | .vrmaxu => ⟨0x15#6, 0x4#4, .scalar, .vec, .none, 0b1111#4, .governs, .none, false⟩
  | .vrand => ⟨0x15#6, 0x5#4, .scalar, .vec, .none, 0b1111#4, .governs, .none, false⟩
  | .vrior => ⟨0x15#6, 0x6#4, .scalar, .vec, .none, 0b1111#4, .governs, .none, false⟩
  | .vrxor => ⟨0x15#6, 0x7#4, .scalar, .vec, .none, 0b1111#4, .governs, .none, false⟩
  | .vfrsum => ⟨0x15#6, 0x8#4, .scalar, .vec, .none, 0b0011#4, .governs, .none, true⟩
  | .vfrmin => ⟨0x15#6, 0x9#4, .scalar, .vec, .none, 0b0011#4, .governs, .none, true⟩
  | .vfrmax => ⟨0x15#6, 0xA#4, .scalar, .vec, .none, 0b0011#4, .governs, .none, true⟩
  | .vframax => ⟨0x15#6, 0xB#4, .scalar, .vec, .none, 0b0011#4, .governs, .none, true⟩
  | .vwadd => ⟨0x16#6, 0x0#4, .vec, .vec, .vec, 0b1110#4, .governs, .both, false⟩
  | .vwmul => ⟨0x16#6, 0x1#4, .vec, .vec, .vec, 0b1110#4, .governs, .both, false⟩
  | .vwmuln => ⟨0x16#6, 0x2#4, .vec, .vec, .vec, 0b1110#4, .governs, .both, false⟩
  | .vdot => ⟨0x16#6, 0x3#4, .acc, .vec, .vec, 0b1110#4, .governs, .both, true⟩
  | .vdotn => ⟨0x16#6, 0x4#4, .acc, .vec, .vec, 0b1100#4, .governs, .both, false⟩
  | .vnshr => ⟨0x16#6, 0x5#4, .vec, .vec, .scalar, 0b1110#4, .governs, .none, false⟩
  | .vnshrn => ⟨0x16#6, 0x6#4, .vec, .vec, .scalar, 0b1110#4, .governs, .none, false⟩
  | .vpack => ⟨0x16#6, 0x7#4, .vec, .vec, .vec, 0b1110#4, .governs, .none, false⟩
  | .vld => ⟨0x18#6, 0x0#4, .vec, .scalar, .none, 0b1111#4, .governs, .none, false⟩
  | .vst => ⟨0x18#6, 0x1#4, .vec, .scalar, .none, 0b1111#4, .governs, .none, false⟩
  | .vlds => ⟨0x18#6, 0x2#4, .vec, .scalar, .scalar, 0b0111#4, .governs, .none, false⟩
  | .vsts => ⟨0x18#6, 0x3#4, .vec, .scalar, .scalar, 0b0111#4, .governs, .none, false⟩
  | .vldx => ⟨0x18#6, 0x4#4, .vec, .scalar, .vec, 0b0001#4, .governs, .none, false⟩
  | .vstx => ⟨0x18#6, 0x5#4, .vec, .scalar, .vec, 0b0001#4, .governs, .none, false⟩
  | .vldt => ⟨0x18#6, 0x6#4, .group, .scalar, .scalar, 0b1111#4, .governs, .none, false⟩
  | .vldb => ⟨0x18#6, 0x7#4, .vec, .scalar, .none, 0b0111#4, .governs, .none, false⟩
  | .vcvtf => ⟨0x19#6, 0x0#4, .vec, .vec, .none, 0b0011#4, .governs, .none, true⟩
  | .vcvti => ⟨0x19#6, 0x1#4, .vec, .vec, .none, 0b0011#4, .governs, .none, true⟩
  | .vcvtn => ⟨0x19#6, 0x2#4, .vec, .vec, .fmt, 0b1110#4, .ignored, .none, false⟩
  | .vcvtw => ⟨0x19#6, 0x3#4, .vec, .vec, .fmt, 0b1110#4, .governs, .first, false⟩
  | .vfn => ⟨0x19#6, 0x4#4, .vec, .vec, .table, 0b0001#4, .governs, .none, false⟩
  | .vsin => ⟨0x19#6, 0x5#4, .vec, .vec, .none, 0b0001#4, .governs, .none, false⟩
  | .vcos => ⟨0x19#6, 0x6#4, .vec, .vec, .none, 0b0001#4, .governs, .none, false⟩
  | .vexp => ⟨0x19#6, 0x7#4, .vec, .vec, .none, 0b0001#4, .governs, .none, false⟩
  | .vlog => ⟨0x19#6, 0x8#4, .vec, .vec, .none, 0b0001#4, .governs, .none, false⟩
  | .vrcp => ⟨0x19#6, 0x9#4, .vec, .vec, .none, 0b0001#4, .governs, .none, false⟩
  | .vrsq => ⟨0x19#6, 0xA#4, .vec, .vec, .none, 0b0001#4, .governs, .none, false⟩
  | .vtanh => ⟨0x19#6, 0xB#4, .vec, .vec, .none, 0b0001#4, .governs, .none, false⟩
  | .vsigm => ⟨0x19#6, 0xC#4, .vec, .vec, .none, 0b0001#4, .governs, .none, false⟩
  | .vscale => ⟨0x19#6, 0xD#4, .vec, .vec, .vec, 0b0001#4, .governs, .none, false⟩

/-- The vector function of a major and a function code. -/
def vopOf (major func : Nat) : Option VOp :=
  match major with
  | 0x10 => match func with
    | 0 => some .vadd
    | 1 => some .vsub
    | 2 => some .vmul
    | 3 => some .vmulh
    | 4 => some .vmulhu
    | 5 => some .vmin
    | 6 => some .vmax
    | 7 => some .vminu
    | 8 => some .vmaxu
    | 9 => some .vadds
    | 10 => some .vsubs
    | 11 => some .vaddsn
    | 12 => some .vsubsn
    | 13 => some .vabsd
    | 14 => some .vavg
    | 15 => some .vmac
    | _ => none
  | 0x11 => match func with
    | 0 => some .vand
    | 1 => some .vor
    | 2 => some .vxor
    | 3 => some .vandn
    | 4 => some .vsll
    | 5 => some .vsrl
    | 6 => some .vsra
    | 7 => some .vrol
    | 8 => some .vnot
    | 9 => some .vpopc
    | 10 => some .vclz
    | _ => none
  | 0x12 => match func with
    | 0 => some .vfadd
    | 1 => some .vfsub
    | 2 => some .vfmul
    | 3 => some .vfma
    | 4 => some .vfms
    | 5 => some .vfnma
    | 6 => some .vfmin
    | 7 => some .vfmax
    | 8 => some .vfabs
    | 9 => some .vfneg
    | 10 => some .vfdiv
    | 11 => some .vfsqrt
    | _ => none
  | 0x13 => match func with
    | 0 => some .vcmpeq
    | 1 => some .vcmpne
    | 2 => some .vcmplt
    | 3 => some .vcmple
    | 4 => some .vcmpltn
    | 5 => some .vcmplen
    | 6 => some .vfcmpeq
    | 7 => some .vfcmplt
    | 8 => some .vfcmple
    | 9 => some .vfcmpun
    | 10 => some .mand
    | 11 => some .mor
    | 12 => some .mxor
    | 13 => some .mandn
    | 14 => some .mnot
    | _ => none
  | 0x14 => match func with
    | 0 => some .vmov
    | 1 => some .vsplat
    | 2 => some .vext
    | 3 => some .vins
    | 4 => some .vslup
    | 5 => some .vsldn
    | 6 => some .vperm
    | 7 => some .vmerge
    | 8 => some .vcomp
    | 9 => some .vidx
    | 10 => some .vmaskn
    | 11 => some .mcount
    | 12 => some .mfirst
    | _ => none
  | 0x15 => match func with
    | 0 => some .vrsum
    | 1 => some .vrmin
    | 2 => some .vrmax
    | 3 => some .vrminu
    | 4 => some .vrmaxu
    | 5 => some .vrand
    | 6 => some .vrior
    | 7 => some .vrxor
    | 8 => some .vfrsum
    | 9 => some .vfrmin
    | 10 => some .vfrmax
    | 11 => some .vframax
    | _ => none
  | 0x16 => match func with
    | 0 => some .vwadd
    | 1 => some .vwmul
    | 2 => some .vwmuln
    | 3 => some .vdot
    | 4 => some .vdotn
    | 5 => some .vnshr
    | 6 => some .vnshrn
    | 7 => some .vpack
    | _ => none
  | 0x18 => match func with
    | 0 => some .vld
    | 1 => some .vst
    | 2 => some .vlds
    | 3 => some .vsts
    | 4 => some .vldx
    | 5 => some .vstx
    | 6 => some .vldt
    | 7 => some .vldb
    | _ => none
  | 0x19 => match func with
    | 0 => some .vcvtf
    | 1 => some .vcvti
    | 2 => some .vcvtn
    | 3 => some .vcvtw
    | 4 => some .vfn
    | 5 => some .vsin
    | 6 => some .vcos
    | 7 => some .vexp
    | 8 => some .vlog
    | 9 => some .vrcp
    | 10 => some .vrsq
    | 11 => some .vtanh
    | 12 => some .vsigm
    | 13 => some .vscale
    | _ => none
  | _ => none

/-- The esize of a format code's slot (11 R247, R248). -/
def fmtSize (b : Reg) : Option (BitVec 2) :=
  match b.toNat with
  | 1 => some 1#2 | 2 => some 1#2
  | 3 => some 2#2 | 4 => some 2#2 | 6 => some 2#2
  | 5 => some 3#2 | 7 => some 3#2
  | _ => none

/-- A source field's value is one its kind admits. -/
def srcOk (k : SKind) (r : Reg) (e : BitVec 2) : Bool :=
  match k with
  | .vec => true
  | .scalar => true
  | .mask => decide (r.toNat ≤ 7)
  | .table => decide (r.toNat ≤ 7)
  | .fmt => fmtSize r == some e
  | .none => r == 0#5

/-- A destination field's value is one its kind admits. -/
def dstOk (k : DKind) (r : Reg) : Bool :=
  match k with
  | .vec => true
  | .acc => true
  | .scalar => true
  | .mask => decide (1 ≤ r.toNat ∧ r.toNat ≤ 7)
  | .group => r == 0#5 || r == 16#5

/-- The fields of a V word are legal for the function (02 R30, R38; 11 R227, R231). -/
def vfOk (op : VOp) (f : VFields) : Bool :=
  let s := vspec op
  s.sizes.getLsbD f.e.toNat && dstOk s.d f.d && srcOk s.a f.a f.e && srcOk s.b f.b f.e &&
  (s.m != .ignored || f.m == 0#3) &&
  (s.h != .none || f.ha == 0#1) && (s.h == .both || f.hb == 0#1)

/-- A queue flag on a field is legal: the field names a vector register that is not also read, below 16, outside the
memory functions (02 R32, 11 R230). -/
def queueFlagOk (flag : BitVec 1) (isVec : Bool) (major : BitVec 6) (r : Reg) : Bool :=
  flag == 0#1 || (isVec && major != 0x18#6 && handleOk r)

/-- A VX payload is legal before the word (02 R32, 11 R227, R230). DESIGN CHOICE (log 91): ZERO under a function with no
destination lanes (a vector store, a reduction) is accepted and does nothing. -/
def vxOk (op : VOp) (f : VFields) (x : VxFields) : Bool :=
  let s := vspec op
  vfOk op f &&
  (x.swza == 0xE4#8 || s.a == .vec) && (x.swzb == 0xE4#8 || s.b == .vec) &&
  (x.zero == 0#1 || s.m == .governs) &&
  queueFlagOk x.qd (s.d == .vec) s.major f.d &&
  queueFlagOk x.qa (s.a == .vec) s.major f.a &&
  queueFlagOk x.qb (s.b == .vec) s.major f.b &&
  (x.alt == 0#1 || (s.alt && f.e == 1#2))

/-- The instruction of a short vector word (02 R30). -/
noncomputable def ofV (op : VOp) (f : VFields) : Instr :=
  match op with
  | .vadd => .vadd f.d f.a f.b f.m f.e
  | .vsub => .vsub f.d f.a f.b f.m f.e
  | .vmul => .vmul f.d f.a f.b f.m f.e
  | .vmulh => .vmulh f.d f.a f.b f.m f.e
  | .vmulhu => .vmulhu f.d f.a f.b f.m f.e
  | .vmin => .vmin f.d f.a f.b f.m f.e
  | .vmax => .vmax f.d f.a f.b f.m f.e
  | .vminu => .vminu f.d f.a f.b f.m f.e
  | .vmaxu => .vmaxu f.d f.a f.b f.m f.e
  | .vadds => .vadds f.d f.a f.b f.m f.e
  | .vsubs => .vsubs f.d f.a f.b f.m f.e
  | .vaddsn => .vaddsn f.d f.a f.b f.m f.e
  | .vsubsn => .vsubsn f.d f.a f.b f.m f.e
  | .vabsd => .vabsd f.d f.a f.b f.m f.e
  | .vavg => .vavg f.d f.a f.b f.m f.e
  | .vmac => .vmac f.d f.a f.b f.m f.e
  | .vand => .vand f.d f.a f.b f.m f.e
  | .vor => .vor f.d f.a f.b f.m f.e
  | .vxor => .vxor f.d f.a f.b f.m f.e
  | .vandn => .vandn f.d f.a f.b f.m f.e
  | .vsll => .vsll f.d f.a f.b f.m f.e
  | .vsrl => .vsrl f.d f.a f.b f.m f.e
  | .vsra => .vsra f.d f.a f.b f.m f.e
  | .vrol => .vrol f.d f.a f.b f.m f.e
  | .vnot => .vnot f.d f.a f.m f.e
  | .vpopc => .vpopc f.d f.a f.m f.e
  | .vclz => .vclz f.d f.a f.m f.e
  | .vfadd => .vfadd f.d f.a f.b f.m (f.e.extractLsb' 0 1)
  | .vfsub => .vfsub f.d f.a f.b f.m (f.e.extractLsb' 0 1)
  | .vfmul => .vfmul f.d f.a f.b f.m (f.e.extractLsb' 0 1)
  | .vfma => .vfma f.d f.a f.b f.m (f.e.extractLsb' 0 1)
  | .vfms => .vfms f.d f.a f.b f.m (f.e.extractLsb' 0 1)
  | .vfnma => .vfnma f.d f.a f.b f.m (f.e.extractLsb' 0 1)
  | .vfmin => .vfmin f.d f.a f.b f.m (f.e.extractLsb' 0 1)
  | .vfmax => .vfmax f.d f.a f.b f.m (f.e.extractLsb' 0 1)
  | .vfabs => .vfabs f.d f.a f.m (f.e.extractLsb' 0 1)
  | .vfneg => .vfneg f.d f.a f.m (f.e.extractLsb' 0 1)
  | .vfdiv => .vfdiv f.d f.a f.b f.m (f.e.extractLsb' 0 1)
  | .vfsqrt => .vfsqrt f.d f.a f.m (f.e.extractLsb' 0 1)
  | .vcmpeq => .vcmpeq f.d f.a f.b f.m
  | .vcmpne => .vcmpne f.d f.a f.b f.m
  | .vcmplt => .vcmplt f.d f.a f.b f.m
  | .vcmple => .vcmple f.d f.a f.b f.m
  | .vcmpltn => .vcmpltn f.d f.a f.b f.m
  | .vcmplen => .vcmplen f.d f.a f.b f.m
  | .vfcmpeq => .vfcmpeq f.d f.a f.b f.m
  | .vfcmplt => .vfcmplt f.d f.a f.b f.m
  | .vfcmple => .vfcmple f.d f.a f.b f.m
  | .vfcmpun => .vfcmpun f.d f.a f.b f.m
  | .mand => .mand f.d f.a f.b
  | .mor => .mor f.d f.a f.b
  | .mxor => .mxor f.d f.a f.b
  | .mandn => .mandn f.d f.a f.b
  | .mnot => .mnot f.d f.a
  | .vmov => .vmov f.d f.a f.m f.e
  | .vsplat => .vsplat f.d f.a f.m f.e
  | .vext => .vext f.d f.a f.b f.e
  | .vins => .vins f.d f.a f.b f.e
  | .vslup => .vslup f.d f.a f.b f.m f.e
  | .vsldn => .vsldn f.d f.a f.b f.m f.e
  | .vperm => .vperm f.d f.a f.b f.m f.e
  | .vmerge => .vmerge f.d f.a f.b f.m f.e
  | .vcomp => .vcomp f.d f.a f.m
  | .vidx => .vidx f.d f.m f.e
  | .vmaskn => .vmaskn f.d f.a
  | .mcount => .mcount f.d f.a
  | .mfirst => .mfirst f.d f.a
  | .vrsum => .vrsum f.d f.a f.m f.e
  | .vrmin => .vrmin f.d f.a f.m f.e
  | .vrmax => .vrmax f.d f.a f.m f.e
  | .vrminu => .vrminu f.d f.a f.m f.e
  | .vrmaxu => .vrmaxu f.d f.a f.m f.e
  | .vrand => .vrand f.d f.a f.m f.e
  | .vrior => .vrior f.d f.a f.m f.e
  | .vrxor => .vrxor f.d f.a f.m f.e
  | .vfrsum => .vfrsum f.d f.a f.m (f.e.extractLsb' 0 1)
  | .vfrmin => .vfrmin f.d f.a f.m (f.e.extractLsb' 0 1)
  | .vfrmax => .vfrmax f.d f.a f.m (f.e.extractLsb' 0 1)
  | .vframax => .vframax f.d f.a f.m (f.e.extractLsb' 0 1)
  | .vwadd => .vwadd f.d f.a f.b f.m f.e f.ha f.hb
  | .vwmul => .vwmul f.d f.a f.b f.m f.e f.ha f.hb
  | .vwmuln => .vwmuln f.d f.a f.b f.m f.e f.ha f.hb
  | .vdot => .vdot f.d f.a f.b f.m f.e f.ha f.hb
  | .vdotn => .vdotn f.d f.a f.b f.m f.e f.ha f.hb
  | .vnshr => .vnshr f.d f.a f.b f.m f.e
  | .vnshrn => .vnshrn f.d f.a f.b f.m f.e
  | .vpack => .vpack f.d f.a f.b f.m f.e
  | .vld => .vld f.d f.a f.m f.e
  | .vst => .vst f.d f.a f.m f.e
  | .vlds => .vlds f.d f.a f.b f.m f.e
  | .vsts => .vsts f.d f.a f.b f.m f.e
  | .vldx => .vldx f.d f.a f.b f.m
  | .vstx => .vstx f.d f.a f.b f.m
  | .vldt => .vldt f.d f.a f.b f.m f.e
  | .vldb => .vldb f.d f.a f.m f.e
  | .vcvtf => .vcvtf f.d f.a f.m (f.e.extractLsb' 0 1)
  | .vcvti => .vcvti f.d f.a f.m (f.e.extractLsb' 0 1)
  | .vcvtn => .vcvtn f.d f.a f.b f.e
  | .vcvtw => .vcvtw f.d f.a f.b f.m f.e f.ha
  | .vfn => .vfn f.d f.a f.b f.m
  | .vsin => .vsin f.d f.a f.m
  | .vcos => .vcos f.d f.a f.m
  | .vexp => .vexp f.d f.a f.m
  | .vlog => .vlog f.d f.a f.m
  | .vrcp => .vrcp f.d f.a f.m
  | .vrsq => .vrsq f.d f.a f.m
  | .vtanh => .vtanh f.d f.a f.m
  | .vsigm => .vsigm f.d f.a f.m
  | .vscale => .vscale f.d f.a f.b f.m

/-- The function and the fields of a short vector instruction; fields it does not use are zero (02 R29). -/
def toV : Instr → Option (VOp × VFields)
  | .vadd d a b m e => some (.vadd, ⟨d, a, b, m, e, 0#1, 0#1⟩)
  | .vsub d a b m e => some (.vsub, ⟨d, a, b, m, e, 0#1, 0#1⟩)
  | .vmul d a b m e => some (.vmul, ⟨d, a, b, m, e, 0#1, 0#1⟩)
  | .vmulh d a b m e => some (.vmulh, ⟨d, a, b, m, e, 0#1, 0#1⟩)
  | .vmulhu d a b m e => some (.vmulhu, ⟨d, a, b, m, e, 0#1, 0#1⟩)
  | .vmin d a b m e => some (.vmin, ⟨d, a, b, m, e, 0#1, 0#1⟩)
  | .vmax d a b m e => some (.vmax, ⟨d, a, b, m, e, 0#1, 0#1⟩)
  | .vminu d a b m e => some (.vminu, ⟨d, a, b, m, e, 0#1, 0#1⟩)
  | .vmaxu d a b m e => some (.vmaxu, ⟨d, a, b, m, e, 0#1, 0#1⟩)
  | .vadds d a b m e => some (.vadds, ⟨d, a, b, m, e, 0#1, 0#1⟩)
  | .vsubs d a b m e => some (.vsubs, ⟨d, a, b, m, e, 0#1, 0#1⟩)
  | .vaddsn d a b m e => some (.vaddsn, ⟨d, a, b, m, e, 0#1, 0#1⟩)
  | .vsubsn d a b m e => some (.vsubsn, ⟨d, a, b, m, e, 0#1, 0#1⟩)
  | .vabsd d a b m e => some (.vabsd, ⟨d, a, b, m, e, 0#1, 0#1⟩)
  | .vavg d a b m e => some (.vavg, ⟨d, a, b, m, e, 0#1, 0#1⟩)
  | .vmac d a b m e => some (.vmac, ⟨d, a, b, m, e, 0#1, 0#1⟩)
  | .vand d a b m e => some (.vand, ⟨d, a, b, m, e, 0#1, 0#1⟩)
  | .vor d a b m e => some (.vor, ⟨d, a, b, m, e, 0#1, 0#1⟩)
  | .vxor d a b m e => some (.vxor, ⟨d, a, b, m, e, 0#1, 0#1⟩)
  | .vandn d a b m e => some (.vandn, ⟨d, a, b, m, e, 0#1, 0#1⟩)
  | .vsll d a b m e => some (.vsll, ⟨d, a, b, m, e, 0#1, 0#1⟩)
  | .vsrl d a b m e => some (.vsrl, ⟨d, a, b, m, e, 0#1, 0#1⟩)
  | .vsra d a b m e => some (.vsra, ⟨d, a, b, m, e, 0#1, 0#1⟩)
  | .vrol d a b m e => some (.vrol, ⟨d, a, b, m, e, 0#1, 0#1⟩)
  | .vnot d a m e => some (.vnot, ⟨d, a, 0#5, m, e, 0#1, 0#1⟩)
  | .vpopc d a m e => some (.vpopc, ⟨d, a, 0#5, m, e, 0#1, 0#1⟩)
  | .vclz d a m e => some (.vclz, ⟨d, a, 0#5, m, e, 0#1, 0#1⟩)
  | .vfadd d a b m e => some (.vfadd, ⟨d, a, b, m, (0#1 ++ e), 0#1, 0#1⟩)
  | .vfsub d a b m e => some (.vfsub, ⟨d, a, b, m, (0#1 ++ e), 0#1, 0#1⟩)
  | .vfmul d a b m e => some (.vfmul, ⟨d, a, b, m, (0#1 ++ e), 0#1, 0#1⟩)
  | .vfma d a b m e => some (.vfma, ⟨d, a, b, m, (0#1 ++ e), 0#1, 0#1⟩)
  | .vfms d a b m e => some (.vfms, ⟨d, a, b, m, (0#1 ++ e), 0#1, 0#1⟩)
  | .vfnma d a b m e => some (.vfnma, ⟨d, a, b, m, (0#1 ++ e), 0#1, 0#1⟩)
  | .vfmin d a b m e => some (.vfmin, ⟨d, a, b, m, (0#1 ++ e), 0#1, 0#1⟩)
  | .vfmax d a b m e => some (.vfmax, ⟨d, a, b, m, (0#1 ++ e), 0#1, 0#1⟩)
  | .vfabs d a m e => some (.vfabs, ⟨d, a, 0#5, m, (0#1 ++ e), 0#1, 0#1⟩)
  | .vfneg d a m e => some (.vfneg, ⟨d, a, 0#5, m, (0#1 ++ e), 0#1, 0#1⟩)
  | .vfdiv d a b m e => some (.vfdiv, ⟨d, a, b, m, (0#1 ++ e), 0#1, 0#1⟩)
  | .vfsqrt d a m e => some (.vfsqrt, ⟨d, a, 0#5, m, (0#1 ++ e), 0#1, 0#1⟩)
  | .vcmpeq d a b m => some (.vcmpeq, ⟨d, a, b, m, 0#2, 0#1, 0#1⟩)
  | .vcmpne d a b m => some (.vcmpne, ⟨d, a, b, m, 0#2, 0#1, 0#1⟩)
  | .vcmplt d a b m => some (.vcmplt, ⟨d, a, b, m, 0#2, 0#1, 0#1⟩)
  | .vcmple d a b m => some (.vcmple, ⟨d, a, b, m, 0#2, 0#1, 0#1⟩)
  | .vcmpltn d a b m => some (.vcmpltn, ⟨d, a, b, m, 0#2, 0#1, 0#1⟩)
  | .vcmplen d a b m => some (.vcmplen, ⟨d, a, b, m, 0#2, 0#1, 0#1⟩)
  | .vfcmpeq d a b m => some (.vfcmpeq, ⟨d, a, b, m, 0#2, 0#1, 0#1⟩)
  | .vfcmplt d a b m => some (.vfcmplt, ⟨d, a, b, m, 0#2, 0#1, 0#1⟩)
  | .vfcmple d a b m => some (.vfcmple, ⟨d, a, b, m, 0#2, 0#1, 0#1⟩)
  | .vfcmpun d a b m => some (.vfcmpun, ⟨d, a, b, m, 0#2, 0#1, 0#1⟩)
  | .mand d a b => some (.mand, ⟨d, a, b, 0#3, 0#2, 0#1, 0#1⟩)
  | .mor d a b => some (.mor, ⟨d, a, b, 0#3, 0#2, 0#1, 0#1⟩)
  | .mxor d a b => some (.mxor, ⟨d, a, b, 0#3, 0#2, 0#1, 0#1⟩)
  | .mandn d a b => some (.mandn, ⟨d, a, b, 0#3, 0#2, 0#1, 0#1⟩)
  | .mnot d a => some (.mnot, ⟨d, a, 0#5, 0#3, 0#2, 0#1, 0#1⟩)
  | .vmov d a m e => some (.vmov, ⟨d, a, 0#5, m, e, 0#1, 0#1⟩)
  | .vsplat d a m e => some (.vsplat, ⟨d, a, 0#5, m, e, 0#1, 0#1⟩)
  | .vext d a b e => some (.vext, ⟨d, a, b, 0#3, e, 0#1, 0#1⟩)
  | .vins d a b e => some (.vins, ⟨d, a, b, 0#3, e, 0#1, 0#1⟩)
  | .vslup d a b m e => some (.vslup, ⟨d, a, b, m, e, 0#1, 0#1⟩)
  | .vsldn d a b m e => some (.vsldn, ⟨d, a, b, m, e, 0#1, 0#1⟩)
  | .vperm d a b m e => some (.vperm, ⟨d, a, b, m, e, 0#1, 0#1⟩)
  | .vmerge d a b m e => some (.vmerge, ⟨d, a, b, m, e, 0#1, 0#1⟩)
  | .vcomp d a m => some (.vcomp, ⟨d, a, 0#5, m, 0#2, 0#1, 0#1⟩)
  | .vidx d m e => some (.vidx, ⟨d, 0#5, 0#5, m, e, 0#1, 0#1⟩)
  | .vmaskn d a => some (.vmaskn, ⟨d, a, 0#5, 0#3, 0#2, 0#1, 0#1⟩)
  | .mcount d a => some (.mcount, ⟨d, a, 0#5, 0#3, 0#2, 0#1, 0#1⟩)
  | .mfirst d a => some (.mfirst, ⟨d, a, 0#5, 0#3, 0#2, 0#1, 0#1⟩)
  | .vrsum d a m e => some (.vrsum, ⟨d, a, 0#5, m, e, 0#1, 0#1⟩)
  | .vrmin d a m e => some (.vrmin, ⟨d, a, 0#5, m, e, 0#1, 0#1⟩)
  | .vrmax d a m e => some (.vrmax, ⟨d, a, 0#5, m, e, 0#1, 0#1⟩)
  | .vrminu d a m e => some (.vrminu, ⟨d, a, 0#5, m, e, 0#1, 0#1⟩)
  | .vrmaxu d a m e => some (.vrmaxu, ⟨d, a, 0#5, m, e, 0#1, 0#1⟩)
  | .vrand d a m e => some (.vrand, ⟨d, a, 0#5, m, e, 0#1, 0#1⟩)
  | .vrior d a m e => some (.vrior, ⟨d, a, 0#5, m, e, 0#1, 0#1⟩)
  | .vrxor d a m e => some (.vrxor, ⟨d, a, 0#5, m, e, 0#1, 0#1⟩)
  | .vfrsum d a m e => some (.vfrsum, ⟨d, a, 0#5, m, (0#1 ++ e), 0#1, 0#1⟩)
  | .vfrmin d a m e => some (.vfrmin, ⟨d, a, 0#5, m, (0#1 ++ e), 0#1, 0#1⟩)
  | .vfrmax d a m e => some (.vfrmax, ⟨d, a, 0#5, m, (0#1 ++ e), 0#1, 0#1⟩)
  | .vframax d a m e => some (.vframax, ⟨d, a, 0#5, m, (0#1 ++ e), 0#1, 0#1⟩)
  | .vwadd d a b m e h k => some (.vwadd, ⟨d, a, b, m, e, h, k⟩)
  | .vwmul d a b m e h k => some (.vwmul, ⟨d, a, b, m, e, h, k⟩)
  | .vwmuln d a b m e h k => some (.vwmuln, ⟨d, a, b, m, e, h, k⟩)
  | .vdot d a b m e h k => some (.vdot, ⟨d, a, b, m, e, h, k⟩)
  | .vdotn d a b m e h k => some (.vdotn, ⟨d, a, b, m, e, h, k⟩)
  | .vnshr d a b m e => some (.vnshr, ⟨d, a, b, m, e, 0#1, 0#1⟩)
  | .vnshrn d a b m e => some (.vnshrn, ⟨d, a, b, m, e, 0#1, 0#1⟩)
  | .vpack d a b m e => some (.vpack, ⟨d, a, b, m, e, 0#1, 0#1⟩)
  | .vld d a m e => some (.vld, ⟨d, a, 0#5, m, e, 0#1, 0#1⟩)
  | .vst d a m e => some (.vst, ⟨d, a, 0#5, m, e, 0#1, 0#1⟩)
  | .vlds d a b m e => some (.vlds, ⟨d, a, b, m, e, 0#1, 0#1⟩)
  | .vsts d a b m e => some (.vsts, ⟨d, a, b, m, e, 0#1, 0#1⟩)
  | .vldx d a b m => some (.vldx, ⟨d, a, b, m, 0#2, 0#1, 0#1⟩)
  | .vstx d a b m => some (.vstx, ⟨d, a, b, m, 0#2, 0#1, 0#1⟩)
  | .vldt d a b m e => some (.vldt, ⟨d, a, b, m, e, 0#1, 0#1⟩)
  | .vldb d a m e => some (.vldb, ⟨d, a, 0#5, m, e, 0#1, 0#1⟩)
  | .vcvtf d a m e => some (.vcvtf, ⟨d, a, 0#5, m, (0#1 ++ e), 0#1, 0#1⟩)
  | .vcvti d a m e => some (.vcvti, ⟨d, a, 0#5, m, (0#1 ++ e), 0#1, 0#1⟩)
  | .vcvtn d a c e => some (.vcvtn, ⟨d, a, c, 0#3, e, 0#1, 0#1⟩)
  | .vcvtw d a c m e h => some (.vcvtw, ⟨d, a, c, m, e, h, 0#1⟩)
  | .vfn d a t m => some (.vfn, ⟨d, a, t, m, 0#2, 0#1, 0#1⟩)
  | .vsin d a m => some (.vsin, ⟨d, a, 0#5, m, 0#2, 0#1, 0#1⟩)
  | .vcos d a m => some (.vcos, ⟨d, a, 0#5, m, 0#2, 0#1, 0#1⟩)
  | .vexp d a m => some (.vexp, ⟨d, a, 0#5, m, 0#2, 0#1, 0#1⟩)
  | .vlog d a m => some (.vlog, ⟨d, a, 0#5, m, 0#2, 0#1, 0#1⟩)
  | .vrcp d a m => some (.vrcp, ⟨d, a, 0#5, m, 0#2, 0#1, 0#1⟩)
  | .vrsq d a m => some (.vrsq, ⟨d, a, 0#5, m, 0#2, 0#1, 0#1⟩)
  | .vtanh d a m => some (.vtanh, ⟨d, a, 0#5, m, 0#2, 0#1, 0#1⟩)
  | .vsigm d a m => some (.vsigm, ⟨d, a, 0#5, m, 0#2, 0#1, 0#1⟩)
  | .vscale d a b m => some (.vscale, ⟨d, a, b, m, 0#2, 0#1, 0#1⟩)
  | _ => none

end Sys2Proof.Machine
end

