-- ==== Sys2Proof/WellFormed.lean ====
section
/-!
DEFINITION. Which instructions are well formed: the operand values that the encoding admits (02 R29–R41). An event has no
encoding, and any of its parameters is well formed.
-/
namespace Sys2Proof
open Sys2Proof.Machine

/-- Operand limits beyond the widths of the fields (02 R37, R38; each instruction's entry). -/
def Instr.wf : Instr → Bool
  | .slli _ _ w s => (w == 0#1 || s.toNat < 32)
  | .srli _ _ w s => (w == 0#1 || s.toNat < 32)
  | .srai _ _ w s => (w == 0#1 || s.toNat < 32)
  | .rori _ _ w s => (w == 0#1 || s.toNat < 32)
  | .bfx _ _ p l => decide (p.toNat + l.toNat ≤ 63)
  | .bfxs _ _ p l => decide (p.toNat + l.toNat ≤ 63)
  | .svhalt d _ _ => handleOk d
  | .ldQ d _ _ => pairOk d
  | .stQ d _ _ => pairOk d
  | .bldp d _ b _ => (d != b)
  | .bstp d _ b _ => (d != b)
  | .tlbiv d _ _ => handleOk d
  | .tlbid d _ => handleOk d
  | .amoAdd _ _ _ s p _ => scopeOk s && (p != 0#2 || s == 0#3)
  | .amoAnd _ _ _ s p _ => scopeOk s && (p != 0#2 || s == 0#3)
  | .amoOr _ _ _ s p _ => scopeOk s && (p != 0#2 || s == 0#3)
  | .amoXor _ _ _ s p _ => scopeOk s && (p != 0#2 || s == 0#3)
  | .amoMin _ _ _ s p _ => scopeOk s && (p != 0#2 || s == 0#3)
  | .amoMax _ _ _ s p _ => scopeOk s && (p != 0#2 || s == 0#3)
  | .amoMinu _ _ _ s p _ => scopeOk s && (p != 0#2 || s == 0#3)
  | .amoMaxu _ _ _ s p _ => scopeOk s && (p != 0#2 || s == 0#3)
  | .amoSwap _ _ _ s p _ => scopeOk s && (p != 0#2 || s == 0#3)
  | .amoCas _ _ _ s p _ => scopeOk s && (p != 0#2 || s == 0#3)
  | .fence k s => (k != 3#2) && scopeOk s
  | .ldAcq d _ s x => decide (x.toNat ≤ 4) && scopeOk s && (x != 4#3 || pairOk d)
  | .stRel d _ s x => decide (x.toNat ≤ 4) && scopeOk s && (x != 4#3 || pairOk d)
  | .tarm a c _ => decide (1 ≤ c.toNat ∧ c.toNat ≤ 4) && decide (a.toNat + c.toNat ≤ 32)
  | .barrier d _ => handleOk d
  | .barq d _ _ => handleOk d
  | .qpop _ a _ => handleOk a
  | .qpopM _ a _ => handleOk a
  | .qtag _ a => handleOk a
  | .qcount _ a => handleOk a
  | .qdrop _ a => handleOk a
  | .qpush d _ _ g _ => (g == 1#1 || handleOk d)
  | .qpushM d _ b g _ => (g == 1#1 || handleOk d) && (g == 1#1 || b == 0#5)
  | .qmark d _ g => (g == 1#1 || handleOk d)
  | .qhandle _ a => handleOk a
  | .qstat _ a => handleOk a
  | .cueq d _ => handleOk d
  | .getq d _ _ _ => handleOk d
  | .amoq d _ b _ o => handleOk d && decide (o.toNat ≤ 9) && (o != 9#4 || pairOk b)
  | .rqfork d _ _ => handleOk d
  | .bfstep d _ => handleOk d
  | .smpl d _ _ => handleOk d
  | .beam d _ _ => handleOk d
  | .mloadb d _ _ _ => handleOk d
  | .mma d _ _ _ => accOk d
  | .mdrain d _ _ _ _ => handleOk d
  | .mzero d => accOk d
  | .mnote d _ => handleOk d
  | .xcopy d _ _ _ => handleOk d
  | .xred d _ _ _ => handleOk d
  | .xfill d _ _ _ => handleOk d
  | .vadd d a b m e => vfOk .vadd ⟨d, a, b, m, e, 0#1, 0#1⟩
  | .vsub d a b m e => vfOk .vsub ⟨d, a, b, m, e, 0#1, 0#1⟩
  | .vmul d a b m e => vfOk .vmul ⟨d, a, b, m, e, 0#1, 0#1⟩
  | .vmulh d a b m e => vfOk .vmulh ⟨d, a, b, m, e, 0#1, 0#1⟩
  | .vmulhu d a b m e => vfOk .vmulhu ⟨d, a, b, m, e, 0#1, 0#1⟩
  | .vmin d a b m e => vfOk .vmin ⟨d, a, b, m, e, 0#1, 0#1⟩
  | .vmax d a b m e => vfOk .vmax ⟨d, a, b, m, e, 0#1, 0#1⟩
  | .vminu d a b m e => vfOk .vminu ⟨d, a, b, m, e, 0#1, 0#1⟩
  | .vmaxu d a b m e => vfOk .vmaxu ⟨d, a, b, m, e, 0#1, 0#1⟩
  | .vadds d a b m e => vfOk .vadds ⟨d, a, b, m, e, 0#1, 0#1⟩
  | .vsubs d a b m e => vfOk .vsubs ⟨d, a, b, m, e, 0#1, 0#1⟩
  | .vaddsn d a b m e => vfOk .vaddsn ⟨d, a, b, m, e, 0#1, 0#1⟩
  | .vsubsn d a b m e => vfOk .vsubsn ⟨d, a, b, m, e, 0#1, 0#1⟩
  | .vabsd d a b m e => vfOk .vabsd ⟨d, a, b, m, e, 0#1, 0#1⟩
  | .vavg d a b m e => vfOk .vavg ⟨d, a, b, m, e, 0#1, 0#1⟩
  | .vmac d a b m e => vfOk .vmac ⟨d, a, b, m, e, 0#1, 0#1⟩
  | .vand d a b m e => vfOk .vand ⟨d, a, b, m, e, 0#1, 0#1⟩
  | .vor d a b m e => vfOk .vor ⟨d, a, b, m, e, 0#1, 0#1⟩
  | .vxor d a b m e => vfOk .vxor ⟨d, a, b, m, e, 0#1, 0#1⟩
  | .vandn d a b m e => vfOk .vandn ⟨d, a, b, m, e, 0#1, 0#1⟩
  | .vsll d a b m e => vfOk .vsll ⟨d, a, b, m, e, 0#1, 0#1⟩
  | .vsrl d a b m e => vfOk .vsrl ⟨d, a, b, m, e, 0#1, 0#1⟩
  | .vsra d a b m e => vfOk .vsra ⟨d, a, b, m, e, 0#1, 0#1⟩
  | .vrol d a b m e => vfOk .vrol ⟨d, a, b, m, e, 0#1, 0#1⟩
  | .vnot d a m e => vfOk .vnot ⟨d, a, 0#5, m, e, 0#1, 0#1⟩
  | .vpopc d a m e => vfOk .vpopc ⟨d, a, 0#5, m, e, 0#1, 0#1⟩
  | .vclz d a m e => vfOk .vclz ⟨d, a, 0#5, m, e, 0#1, 0#1⟩
  | .vfadd d a b m e => vfOk .vfadd ⟨d, a, b, m, (0#1 ++ e), 0#1, 0#1⟩
  | .vfsub d a b m e => vfOk .vfsub ⟨d, a, b, m, (0#1 ++ e), 0#1, 0#1⟩
  | .vfmul d a b m e => vfOk .vfmul ⟨d, a, b, m, (0#1 ++ e), 0#1, 0#1⟩
  | .vfma d a b m e => vfOk .vfma ⟨d, a, b, m, (0#1 ++ e), 0#1, 0#1⟩
  | .vfms d a b m e => vfOk .vfms ⟨d, a, b, m, (0#1 ++ e), 0#1, 0#1⟩
  | .vfnma d a b m e => vfOk .vfnma ⟨d, a, b, m, (0#1 ++ e), 0#1, 0#1⟩
  | .vfmin d a b m e => vfOk .vfmin ⟨d, a, b, m, (0#1 ++ e), 0#1, 0#1⟩
  | .vfmax d a b m e => vfOk .vfmax ⟨d, a, b, m, (0#1 ++ e), 0#1, 0#1⟩
  | .vfabs d a m e => vfOk .vfabs ⟨d, a, 0#5, m, (0#1 ++ e), 0#1, 0#1⟩
  | .vfneg d a m e => vfOk .vfneg ⟨d, a, 0#5, m, (0#1 ++ e), 0#1, 0#1⟩
  | .vfdiv d a b m e => vfOk .vfdiv ⟨d, a, b, m, (0#1 ++ e), 0#1, 0#1⟩
  | .vfsqrt d a m e => vfOk .vfsqrt ⟨d, a, 0#5, m, (0#1 ++ e), 0#1, 0#1⟩
  | .vcmpeq d a b m => vfOk .vcmpeq ⟨d, a, b, m, 0#2, 0#1, 0#1⟩
  | .vcmpne d a b m => vfOk .vcmpne ⟨d, a, b, m, 0#2, 0#1, 0#1⟩
  | .vcmplt d a b m => vfOk .vcmplt ⟨d, a, b, m, 0#2, 0#1, 0#1⟩
  | .vcmple d a b m => vfOk .vcmple ⟨d, a, b, m, 0#2, 0#1, 0#1⟩
  | .vcmpltn d a b m => vfOk .vcmpltn ⟨d, a, b, m, 0#2, 0#1, 0#1⟩
  | .vcmplen d a b m => vfOk .vcmplen ⟨d, a, b, m, 0#2, 0#1, 0#1⟩
  | .vfcmpeq d a b m => vfOk .vfcmpeq ⟨d, a, b, m, 0#2, 0#1, 0#1⟩
  | .vfcmplt d a b m => vfOk .vfcmplt ⟨d, a, b, m, 0#2, 0#1, 0#1⟩
  | .vfcmple d a b m => vfOk .vfcmple ⟨d, a, b, m, 0#2, 0#1, 0#1⟩
  | .vfcmpun d a b m => vfOk .vfcmpun ⟨d, a, b, m, 0#2, 0#1, 0#1⟩
  | .mand d a b => vfOk .mand ⟨d, a, b, 0#3, 0#2, 0#1, 0#1⟩
  | .mor d a b => vfOk .mor ⟨d, a, b, 0#3, 0#2, 0#1, 0#1⟩
  | .mxor d a b => vfOk .mxor ⟨d, a, b, 0#3, 0#2, 0#1, 0#1⟩
  | .mandn d a b => vfOk .mandn ⟨d, a, b, 0#3, 0#2, 0#1, 0#1⟩
  | .mnot d a => vfOk .mnot ⟨d, a, 0#5, 0#3, 0#2, 0#1, 0#1⟩
  | .vmov d a m e => vfOk .vmov ⟨d, a, 0#5, m, e, 0#1, 0#1⟩
  | .vsplat d a m e => vfOk .vsplat ⟨d, a, 0#5, m, e, 0#1, 0#1⟩
  | .vext d a b e => vfOk .vext ⟨d, a, b, 0#3, e, 0#1, 0#1⟩
  | .vins d a b e => vfOk .vins ⟨d, a, b, 0#3, e, 0#1, 0#1⟩
  | .vslup d a b m e => vfOk .vslup ⟨d, a, b, m, e, 0#1, 0#1⟩
  | .vsldn d a b m e => vfOk .vsldn ⟨d, a, b, m, e, 0#1, 0#1⟩
  | .vperm d a b m e => vfOk .vperm ⟨d, a, b, m, e, 0#1, 0#1⟩
  | .vmerge d a b m e => vfOk .vmerge ⟨d, a, b, m, e, 0#1, 0#1⟩
  | .vcomp d a m => vfOk .vcomp ⟨d, a, 0#5, m, 0#2, 0#1, 0#1⟩
  | .vidx d m e => vfOk .vidx ⟨d, 0#5, 0#5, m, e, 0#1, 0#1⟩
  | .vmaskn d a => vfOk .vmaskn ⟨d, a, 0#5, 0#3, 0#2, 0#1, 0#1⟩
  | .mcount d a => vfOk .mcount ⟨d, a, 0#5, 0#3, 0#2, 0#1, 0#1⟩
  | .mfirst d a => vfOk .mfirst ⟨d, a, 0#5, 0#3, 0#2, 0#1, 0#1⟩
  | .vrsum d a m e => vfOk .vrsum ⟨d, a, 0#5, m, e, 0#1, 0#1⟩
  | .vrmin d a m e => vfOk .vrmin ⟨d, a, 0#5, m, e, 0#1, 0#1⟩
  | .vrmax d a m e => vfOk .vrmax ⟨d, a, 0#5, m, e, 0#1, 0#1⟩
  | .vrminu d a m e => vfOk .vrminu ⟨d, a, 0#5, m, e, 0#1, 0#1⟩
  | .vrmaxu d a m e => vfOk .vrmaxu ⟨d, a, 0#5, m, e, 0#1, 0#1⟩
  | .vrand d a m e => vfOk .vrand ⟨d, a, 0#5, m, e, 0#1, 0#1⟩
  | .vrior d a m e => vfOk .vrior ⟨d, a, 0#5, m, e, 0#1, 0#1⟩
  | .vrxor d a m e => vfOk .vrxor ⟨d, a, 0#5, m, e, 0#1, 0#1⟩
  | .vfrsum d a m e => vfOk .vfrsum ⟨d, a, 0#5, m, (0#1 ++ e), 0#1, 0#1⟩
  | .vfrmin d a m e => vfOk .vfrmin ⟨d, a, 0#5, m, (0#1 ++ e), 0#1, 0#1⟩
  | .vfrmax d a m e => vfOk .vfrmax ⟨d, a, 0#5, m, (0#1 ++ e), 0#1, 0#1⟩
  | .vframax d a m e => vfOk .vframax ⟨d, a, 0#5, m, (0#1 ++ e), 0#1, 0#1⟩
  | .vwadd d a b m e h k => vfOk .vwadd ⟨d, a, b, m, e, h, k⟩
  | .vwmul d a b m e h k => vfOk .vwmul ⟨d, a, b, m, e, h, k⟩
  | .vwmuln d a b m e h k => vfOk .vwmuln ⟨d, a, b, m, e, h, k⟩
  | .vdot d a b m e h k => vfOk .vdot ⟨d, a, b, m, e, h, k⟩
  | .vdotn d a b m e h k => vfOk .vdotn ⟨d, a, b, m, e, h, k⟩
  | .vnshr d a b m e => vfOk .vnshr ⟨d, a, b, m, e, 0#1, 0#1⟩
  | .vnshrn d a b m e => vfOk .vnshrn ⟨d, a, b, m, e, 0#1, 0#1⟩
  | .vpack d a b m e => vfOk .vpack ⟨d, a, b, m, e, 0#1, 0#1⟩
  | .vld d a m e => vfOk .vld ⟨d, a, 0#5, m, e, 0#1, 0#1⟩
  | .vst d a m e => vfOk .vst ⟨d, a, 0#5, m, e, 0#1, 0#1⟩
  | .vlds d a b m e => vfOk .vlds ⟨d, a, b, m, e, 0#1, 0#1⟩
  | .vsts d a b m e => vfOk .vsts ⟨d, a, b, m, e, 0#1, 0#1⟩
  | .vldx d a b m => vfOk .vldx ⟨d, a, b, m, 0#2, 0#1, 0#1⟩
  | .vstx d a b m => vfOk .vstx ⟨d, a, b, m, 0#2, 0#1, 0#1⟩
  | .vldt d a b m e => vfOk .vldt ⟨d, a, b, m, e, 0#1, 0#1⟩
  | .vldb d a m e => vfOk .vldb ⟨d, a, 0#5, m, e, 0#1, 0#1⟩
  | .vcvtf d a m e => vfOk .vcvtf ⟨d, a, 0#5, m, (0#1 ++ e), 0#1, 0#1⟩
  | .vcvti d a m e => vfOk .vcvti ⟨d, a, 0#5, m, (0#1 ++ e), 0#1, 0#1⟩
  | .vcvtn d a c e => vfOk .vcvtn ⟨d, a, c, 0#3, e, 0#1, 0#1⟩
  | .vcvtw d a c m e h => vfOk .vcvtw ⟨d, a, c, m, e, h, 0#1⟩
  | .vfn d a t m => vfOk .vfn ⟨d, a, t, m, 0#2, 0#1, 0#1⟩
  | .vsin d a m => vfOk .vsin ⟨d, a, 0#5, m, 0#2, 0#1, 0#1⟩
  | .vcos d a m => vfOk .vcos ⟨d, a, 0#5, m, 0#2, 0#1, 0#1⟩
  | .vexp d a m => vfOk .vexp ⟨d, a, 0#5, m, 0#2, 0#1, 0#1⟩
  | .vlog d a m => vfOk .vlog ⟨d, a, 0#5, m, 0#2, 0#1, 0#1⟩
  | .vrcp d a m => vfOk .vrcp ⟨d, a, 0#5, m, 0#2, 0#1, 0#1⟩
  | .vrsq d a m => vfOk .vrsq ⟨d, a, 0#5, m, 0#2, 0#1, 0#1⟩
  | .vtanh d a m => vfOk .vtanh ⟨d, a, 0#5, m, 0#2, 0#1, 0#1⟩
  | .vsigm d a m => vfOk .vsigm ⟨d, a, 0#5, m, 0#2, 0#1, 0#1⟩
  | .vscale d a b m => vfOk .vscale ⟨d, a, b, m, 0#2, 0#1, 0#1⟩
  | .ixLongForm op d _ _ =>
    match op with
    | .ldQ => pairOk d
    | .stQ => pairOk d
    | _ => true
  | .vxLongForm op f x => vxOk op f x
  | _ => true

end Sys2Proof
end

