-- ==== Sys2Proof/Decode.lean ====
section
/-!
DEFINITION. From bytes to instructions (02 R28–R41), rejecting by name what the opcode map does not assign, and the
encoder from the same tables.
-/
namespace Sys2Proof
open Sys2Proof.Machine

/-- Why a word or a pair of words is no instruction (02 R41). -/
inductive Reject where
  /-- Its major is 0x00, 0x17 or 0x1C–0x3E. -/
  | major
  /-- Its function code, func3 or cond is unassigned. -/
  | function
  /-- A field or a reserved bit that its function does not use is nonzero. -/
  | field
  /-- An operand field holds a value marked ILL. -/
  | operand
  /-- A prefix of reserved kind. -/
  | prefixKind
  /-- A prefix followed by a prefix. -/
  | prefixPair
  /-- A prefix followed by a word that its kind does not extend. -/
  | unextended
  /-- A payload bit that is reserved, or a payload that the second word does not admit. -/
  | payload
  deriving DecidableEq, Repr

/-! ## Fields of a word (02 Table 2.3) -/

def fMaj (w : IWord) : BitVec 6 := w.extractLsb' 26 6
def fD (w : IWord) : Reg := w.extractLsb' 21 5
def fA (w : IWord) : Reg := w.extractLsb' 16 5
def fB (w : IWord) : Reg := w.extractLsb' 11 5
def fFunc (w : IWord) : BitVec 5 := w.extractLsb' 6 5
def fMod (w : IWord) : BitVec 6 := w.extractLsb' 0 6
def fF3 (w : IWord) : BitVec 3 := w.extractLsb' 13 3
def fI13 (w : IWord) : BitVec 13 := w.extractLsb' 0 13
def fI21 (w : IWord) : BitVec 21 := w.extractLsb' 0 21
def fKind (w : IWord) : BitVec 4 := w.extractLsb' 22 4
def fPay (w : IWord) : BitVec 22 := w.extractLsb' 0 22

/-- The fields of a V word. -/
def fV (w : IWord) : VFields :=
  { d := w.extractLsb' 21 5, a := w.extractLsb' 16 5, b := w.extractLsb' 11 5, m := w.extractLsb' 8 3,
    e := w.extractLsb' 6 2, ha := w.extractLsb' 5 1, hb := w.extractLsb' 4 1 }
def fVFunc (w : IWord) : BitVec 4 := w.extractLsb' 0 4

/-- The fields of a VX payload (02 Table 2.4); bit 1 is reserved. -/
def fVx (p : BitVec 22) : VxFields :=
  { swza := p.extractLsb' 14 8, swzb := p.extractLsb' 6 8, zero := p.extractLsb' 5 1, qd := p.extractLsb' 4 1,
    qa := p.extractLsb' 3 1, qb := p.extractLsb' 2 1, alt := p.extractLsb' 0 1 }

/-! ## Formats (02 Table 2.3) -/

def eA (maj : BitVec 6) (d a b f : Reg) (m : BitVec 6) : IWord := maj ++ d ++ a ++ b ++ f ++ m
def eI (maj : BitVec 6) (d a : Reg) (f3 : BitVec 3) (i : BitVec 13) : IWord := maj ++ d ++ a ++ f3 ++ i
def eU (maj : BitVec 6) (d : Reg) (i : BitVec 21) : IWord := maj ++ d ++ i
def eV (maj : BitVec 6) (f : VFields) (func : BitVec 4) : IWord :=
  maj ++ f.d ++ f.a ++ f.b ++ f.m ++ f.e ++ f.ha ++ f.hb ++ func
def ePre (kind : BitVec 4) (p : BitVec 22) : IWord := 0x3F#6 ++ kind ++ p
def eVx (x : VxFields) : BitVec 22 :=
  x.swza ++ x.swzb ++ x.zero ++ x.qd ++ x.qa ++ x.qb ++ 0#1 ++ x.alt

/-- imm13 of the immediate shifts (05 R108). -/
def eShift (k : BitVec 2) (w : BitVec 1) (s : BitVec 6) : BitVec 13 := k ++ 0#4 ++ w ++ s
/-- imm13 of the bit-field extracts (05 R109). -/
def eBfx (k : BitVec 1) (p l : BitVec 6) : BitVec 13 := k ++ p ++ l

/-! ## Decoding, major by major (02 Tables 2.5–2.7) -/

/-- The instruction `i` when the unused bits are zero. -/
def used (zero : Bool) (i : Instr) : Except Reject Instr := if zero then .ok i else .error .field

/-- Major 0x01. -/
noncomputable def decodeReg (f : Nat) (d a b : Reg) (m : BitVec 6) : Except Reject Instr :=
  match f with
  | 0 => used (m &&& 62#6 == 0#6) (.add d a b (m.extractLsb' 0 1))
  | 1 => used (m &&& 62#6 == 0#6) (.sub d a b (m.extractLsb' 0 1))
  | 2 => used (m == 0#6) (.and d a b)
  | 3 => used (m == 0#6) (.or d a b)
  | 4 => used (m == 0#6) (.xor d a b)
  | 5 => used (m &&& 62#6 == 0#6) (.sll d a b (m.extractLsb' 0 1))
  | 6 => used (m &&& 62#6 == 0#6) (.srl d a b (m.extractLsb' 0 1))
  | 7 => used (m &&& 62#6 == 0#6) (.sra d a b (m.extractLsb' 0 1))
  | 8 => used (m &&& 62#6 == 0#6) (.mul d a b (m.extractLsb' 0 1))
  | 9 => used (m == 0#6) (.mulh d a b)
  | 10 => used (m == 0#6) (.mulhu d a b)
  | 11 => used (m &&& 62#6 == 0#6) (.div d a b (m.extractLsb' 0 1))
  | 12 => used (m &&& 62#6 == 0#6) (.divu d a b (m.extractLsb' 0 1))
  | 13 => used (m &&& 62#6 == 0#6) (.rem d a b (m.extractLsb' 0 1))
  | 14 => used (m &&& 62#6 == 0#6) (.remu d a b (m.extractLsb' 0 1))
  | 15 => used (m == 0#6) (.slt d a b)
  | 16 => used (m == 0#6) (.sltu d a b)
  | 17 => used (m == 0#6) (.seq d a b)
  | 18 => used (m == 0#6) (.min d a b)
  | 19 => used (m == 0#6) (.max d a b)
  | 20 => used (m == 0#6) (.minu d a b)
  | 21 => used (m == 0#6) (.maxu d a b)
  | 22 => used (m &&& 32#6 == 0#6) (.selz d a b (m.extractLsb' 0 5))
  | 23 => used (m &&& 32#6 == 0#6) (.selnz d a b (m.extractLsb' 0 5))
  | 24 => used (b == 0#5 && m &&& 62#6 == 0#6) (.clz d a (m.extractLsb' 0 1))
  | 25 => used (b == 0#5 && m &&& 62#6 == 0#6) (.ctz d a (m.extractLsb' 0 1))
  | 26 => used (b == 0#5 && m &&& 62#6 == 0#6) (.popc d a (m.extractLsb' 0 1))
  | 27 => used (b == 0#5 && m == 0#6) (.brev d a)
  | 28 => used (b == 0#5 && m == 0#6) (.bswap d a)
  | 29 => used (m &&& 62#6 == 0#6) (.rol d a b (m.extractLsb' 0 1))
  | 30 => used (m &&& 62#6 == 0#6) (.ror d a b (m.extractLsb' 0 1))
  | 31 => used (m &&& 60#6 == 0#6) (.addsh d a b (m.extractLsb' 0 2))
  | _ => .error .function

/-- Major 0x07. -/
noncomputable def decodeTask (f : Nat) (d a b : Reg) (m : BitVec 6) : Except Reject Instr :=
  match f with
  | 0 => used (d == 0#5 && a == 0#5 && b == 0#5 && m == 0#6) (.tend)
  | 1 => used (a == 0#5 && b == 0#5) (.tpost d m)
  | 2 => used (a == 0#5 && b == 0#5 && m == 0#6) (.tstate d)
  | 3 => used (a == 0#5 && b == 0#5 && m == 0#6) (.tcycles d)
  | 4 => used (d == 0#5 && b == 0#5) (.tsetarg a m)
  | 5 => used (a == 0#5 && b == 0#5) (.tenable d m)
  | 6 => used (a == 0#5 && b == 0#5) (.tdisable d m)
  | 7 => used (b == 0#5 && m == 0#6) (.vclaim d a)
  | 8 => used (a == 0#5) (.csrr d b m)
  | 9 => .ok (.csrw d a b m)
  | 10 => .ok (.csrs d a b m)
  | 11 => .ok (.csrc d a b m)
  | 12 => used (d == 0#5 && b == 0#5) (.trap a m)
  | 13 => used (d == 0#5 && a == 0#5 && b == 0#5) (.brk m)
  | 24 => used (m == 0#6) (.svbind d a b)
  | 25 => used (m == 0#6) (.svhalt d a b)
  | 26 => if m.getLsbD 0 then used (m == 1#6) (.svresumeR d a b) else used (m == 0#6) (.svresume d a b)
  | 27 => used (m == 0#6) (.svmap d a b)
  | _ => .error .function

/-- Major 0x0A. -/
noncomputable def decodeBit (f : Nat) (d a b : Reg) (m : BitVec 6) : Except Reject Instr :=
  match f with
  | 0 => used (m &&& 32#6 == 0#6) (.bld d a b (m.extractLsb' 0 5))
  | 1 => used (m &&& 32#6 == 0#6) (.blds d a b (m.extractLsb' 0 5))
  | 2 => used (m &&& 32#6 == 0#6) (.bst d a b (m.extractLsb' 0 5))
  | 3 => used (m &&& 32#6 == 0#6) (.bldp d a b (m.extractLsb' 0 5))
  | 4 => used (m &&& 32#6 == 0#6) (.bstp d a b (m.extractLsb' 0 5))
  | 8 => used (m == 0#6) (.tlbiv d a b)
  | 9 => used (b == 0#5 && m == 0#6) (.tlbid d a)
  | 10 => used (m == 0#6) (.tlbprb d a b)
  | 11 => used (d == 0#5 && b == 0#5 && m &&& 62#6 == 0#6) (.pref a (m.extractLsb' 0 1))
  | _ => .error .function

/-- Major 0x0B. -/
noncomputable def decodeAmo (f : Nat) (d a b : Reg) (m : BitVec 6) : Except Reject Instr :=
  match f with
  | 0 => .ok (.amoAdd d a b (m.extractLsb' 3 3) (m.extractLsb' 1 2) (m.extractLsb' 0 1))
  | 1 => .ok (.amoAnd d a b (m.extractLsb' 3 3) (m.extractLsb' 1 2) (m.extractLsb' 0 1))
  | 2 => .ok (.amoOr d a b (m.extractLsb' 3 3) (m.extractLsb' 1 2) (m.extractLsb' 0 1))
  | 3 => .ok (.amoXor d a b (m.extractLsb' 3 3) (m.extractLsb' 1 2) (m.extractLsb' 0 1))
  | 4 => .ok (.amoMin d a b (m.extractLsb' 3 3) (m.extractLsb' 1 2) (m.extractLsb' 0 1))
  | 5 => .ok (.amoMax d a b (m.extractLsb' 3 3) (m.extractLsb' 1 2) (m.extractLsb' 0 1))
  | 6 => .ok (.amoMinu d a b (m.extractLsb' 3 3) (m.extractLsb' 1 2) (m.extractLsb' 0 1))
  | 7 => .ok (.amoMaxu d a b (m.extractLsb' 3 3) (m.extractLsb' 1 2) (m.extractLsb' 0 1))
  | 8 => .ok (.amoSwap d a b (m.extractLsb' 3 3) (m.extractLsb' 1 2) (m.extractLsb' 0 1))
  | 9 => .ok (.amoCas d a b (m.extractLsb' 3 3) (m.extractLsb' 1 2) (m.extractLsb' 0 1))
  | _ => .error .function

/-- Major 0x0C. -/
noncomputable def decodeOrder (f : Nat) (d a b : Reg) (m : BitVec 6) : Except Reject Instr :=
  match f with
  | 0 => used (d == 0#5 && a == 0#5 && b == 0#5 && m &&& 32#6 == 0#6) (.fence (m.extractLsb' 3 2) (m.extractLsb' 0 3))
  | 1 => used (b == 0#5) (.ldAcq d a (m.extractLsb' 3 3) (m.extractLsb' 0 3))
  | 2 => used (b == 0#5) (.stRel d a (m.extractLsb' 3 3) (m.extractLsb' 0 3))
  | 3 => used (m == 0#6) (.redf d a b)
  | 4 => used (d == 0#5) (.tarm a b m)
  | 5 => used (b == 0#5 && m == 0#6) (.barrier d a)
  | 6 => used (m == 0#6) (.barq d a b)
  | _ => .error .function

/-- Major 0x0D. -/
noncomputable def decodeQueue (f : Nat) (d a b : Reg) (m : BitVec 6) : Except Reject Instr :=
  match f with
  | 0 => used (m == 0#6) (.qpop d a b)
  | 1 => used (m == 0#6) (.qpopM d a b)
  | 2 => used (b == 0#5 && m == 0#6) (.qtag d a)
  | 3 => used (b == 0#5 && m == 0#6) (.qcount d a)
  | 4 => used (b == 0#5 && m == 0#6) (.qdrop d a)
  | 5 => used (m &&& 16#6 == 0#6) (.qpush d a b (m.extractLsb' 5 1) (m.extractLsb' 0 4))
  | 6 => used (m &&& 16#6 == 0#6) (.qpushM d a b (m.extractLsb' 5 1) (m.extractLsb' 0 4))
  | 7 => used (b == 0#5 && m &&& 31#6 == 0#6) (.qmark d a (m.extractLsb' 5 1))
  | 8 => used (b == 0#5 && m == 0#6) (.qhandle d a)
  | 9 => used (b == 0#5 && m == 0#6) (.qcreate d a)
  | 10 => used (b == 0#5 && m &&& 62#6 == 0#6) (.qdestroy d a (m.extractLsb' 0 1))
  | 11 => used (b == 0#5 && m == 0#6) (.qstat d a)
  | _ => .error .function

/-- Major 0x0E. -/
noncomputable def decodeRemote (f : Nat) (d a b : Reg) (m : BitVec 6) : Except Reject Instr :=
  match f with
  | 0 => used (m &&& 60#6 == 0#6) (.stx d a b (m.extractLsb' 0 2))
  | 1 => used (m &&& 60#6 == 0#6) (.stCue d a b (m.extractLsb' 0 2))
  | 3 => used (b == 0#5 && m == 0#6) (.cueq d a)
  | 4 => used (m &&& 60#6 == 0#6) (.getq d a b (m.extractLsb' 0 2))
  | 5 => used (m &&& 32#6 == 0#6) (.amoq d a b (m.extractLsb' 4 1) (m.extractLsb' 0 4))
  | 6 => used (m == 0#6) (.lnkdiag d a b)
  | 7 => used (b == 0#5 && m == 0#6) (.lnkstat d a)
  | _ => .error .function

/-- Major 0x0F. -/
noncomputable def decodeRequest (f : Nat) (d a b : Reg) (m : BitVec 6) : Except Reject Instr :=
  match f with
  | 0 => used (a == 0#5 && b == 0#5 && m == 0#6) (.rqalloc d)
  | 1 => used (b == 0#5 && m &&& 32#6 == 0#6) (.rqread d a (m.extractLsb' 0 5))
  | 2 => used (m &&& 32#6 == 0#6) (.rqwrite d a b (m.extractLsb' 0 5))
  | 3 => used (b == 0#5 && m == 0#6) (.rqqueue d a)
  | 4 => used (m == 0#6) (.rqcommit d a b)
  | 5 => used (m == 0#6) (.rqfork d a b)
  | 6 => if m.getLsbD 0 then used (b == 0#5 && m == 1#6) (.rqretireFree d a) else used (m == 0#6) (.rqretire d a b)
  | 7 => used (b == 0#5 && m == 0#6) (.rqpark d a)
  | 8 => used (b == 0#5 && m == 0#6) (.bfstep d a)
  | 9 => used (m == 0#6) (.smpl d a b)
  | 10 => used (m == 0#6) (.beam d a b)
  | 11 => used (m &&& 62#6 == 0#6) (.lahar d a b (m.extractLsb' 0 1))
  | _ => .error .function

/-- Major 0x1A. -/
noncomputable def decodeMatrix (f : Nat) (d a b : Reg) (m : BitVec 6) : Except Reject Instr :=
  match f with
  | 0 => .ok (.mloadb d a b m)
  | 1 => .ok (.mma d a b m)
  | 2 => used (m &&& 48#6 == 0#6) (.mdrain d a b (m.extractLsb' 3 1) (m.extractLsb' 0 3))
  | 3 => used (a == 0#5 && b == 0#5 && m == 0#6) (.mzero d)
  | 4 => used (d == 0#5 && a == 0#5 && b == 0#5) (.mbinv m)
  | 5 => used (a == 0#5 && b == 0#5) (.mbstat d m)
  | 6 => used (b == 0#5 && m == 0#6) (.mnote d a)
  | 7 => used (d == 0#5 && m == 0#6) (.tdset a b)
  | 8 => used (d == 0#5 && m == 0#6) (.tdget a b)
  | 9 => used (a == 0#5 && b == 0#5 && m == 0#6) (.tdalloc d)
  | 10 => used (b == 0#5 && m == 0#6) (.tdfree d a)
  | 11 => used (d == 0#5 && m == 0#6) (.tdrag a b)
  | _ => .error .function

/-- Major 0x1B. -/
noncomputable def decodeEngine (f : Nat) (d a b : Reg) (m : BitVec 6) : Except Reject Instr :=
  match f with
  | 0 => used (m &&& 62#6 == 0#6) (.xcopy d a b (m.extractLsb' 0 1))
  | 1 => used (m &&& 62#6 == 0#6) (.xred d a b (m.extractLsb' 0 1))
  | 2 => used (m &&& 62#6 == 0#6) (.xfill d a b (m.extractLsb' 0 1))
  | 3 => used (b == 0#5 && m == 0#6) (.xstat d a)
  | 4 => used (b == 0#5 && m == 0#6) (.xabort d a)
  | _ => .error .function

/-- Major 0x02 (05 R107–R109). -/
noncomputable def decodeImm (f3 : Nat) (d a : Reg) (i : BitVec 13) : Except Reject Instr :=
  match f3 with
  | 0 => .ok (.addi d a i)
  | 1 => .ok (.andi d a i)
  | 2 => .ok (.ori d a i)
  | 3 => .ok (.xori d a i)
  | 4 => .ok (.slti d a i)
  | 5 => .ok (.sltiu d a i)
  | 6 =>
    let w := i.extractLsb' 6 1
    let s := i.extractLsb' 0 6
    let z := i.extractLsb' 7 4 == 0#4
    match (i.extractLsb' 11 2).toNat with
    | 0 => used z (.slli d a w s)
    | 1 => used z (.srli d a w s)
    | 2 => used z (.srai d a w s)
    | _ => used z (.rori d a w s)
  | _ =>
    let p := i.extractLsb' 6 6
    let l := i.extractLsb' 0 6
    if i.getLsbD 12 then .ok (.bfxs d a p l) else .ok (.bfx d a p l)

/-- Major 0x04 (05 R111). -/
noncomputable def decodeBranch (cond : Nat) (a b : Reg) (i : BitVec 13) : Except Reject Instr :=
  match cond with
  | 0 => .ok (.beq a b i)
  | 1 => .ok (.bne a b i)
  | 2 => .ok (.blt a b i)
  | 3 => .ok (.bge a b i)
  | 4 => .ok (.bltu a b i)
  | 5 => .ok (.bgeu a b i)
  | _ => .error .function

/-- Major 0x08 (08 R165). -/
noncomputable def decodeLoad (f3 : Nat) (d a : Reg) (i : BitVec 13) : Except Reject Instr :=
  match f3 with
  | 0 => .ok (.ldB d a i)
  | 1 => .ok (.ldH d a i)
  | 2 => .ok (.ldW d a i)
  | 3 => .ok (.ldD d a i)
  | 4 => .ok (.ldBu d a i)
  | 5 => .ok (.ldHu d a i)
  | 6 => .ok (.ldWu d a i)
  | _ => .ok (.ldQ d a i)

/-- Major 0x09 (08 R165). -/
noncomputable def decodeStore (f3 : Nat) (d a : Reg) (i : BitVec 13) : Except Reject Instr :=
  match f3 with
  | 0 => .ok (.stB d a i)
  | 1 => .ok (.stH d a i)
  | 2 => .ok (.stW d a i)
  | 3 => .ok (.stD d a i)
  | 4 => .ok (.stQ d a i)
  | _ => .error .function

/-- Majors 0x10–0x16, 0x18 and 0x19. -/
noncomputable def decodeVec (maj func : Nat) (f : VFields) : Except Reject Instr :=
  match vopOf maj func with
  | none => .error .function
  | some op => if toV (ofV op f) = some (op, f) then .ok (ofV op f) else .error .field

/-- A short word by its major (02 Table 2.5), operand values unchecked. -/
noncomputable def decodeRaw (w : IWord) : Except Reject Instr :=
  match (fMaj w).toNat with
  | 0x01 => decodeReg (fFunc w).toNat (fD w) (fA w) (fB w) (fMod w)
  | 0x02 => decodeImm (fF3 w).toNat (fD w) (fA w) (fI13 w)
  | 0x03 => .ok (.lih (fD w) (fI21 w))
  | 0x04 => decodeBranch (fF3 w).toNat (fD w) (fA w) (fI13 w)
  | 0x05 => .ok (.jal (fD w) (fI21 w))
  | 0x06 => if fF3 w == 0#3 then .ok (.jalr (fD w) (fA w) (fI13 w)) else .error .function
  | 0x07 => decodeTask (fFunc w).toNat (fD w) (fA w) (fB w) (fMod w)
  | 0x08 => decodeLoad (fF3 w).toNat (fD w) (fA w) (fI13 w)
  | 0x09 => decodeStore (fF3 w).toNat (fD w) (fA w) (fI13 w)
  | 0x0A => decodeBit (fFunc w).toNat (fD w) (fA w) (fB w) (fMod w)
  | 0x0B => decodeAmo (fFunc w).toNat (fD w) (fA w) (fB w) (fMod w)
  | 0x0C => decodeOrder (fFunc w).toNat (fD w) (fA w) (fB w) (fMod w)
  | 0x0D => decodeQueue (fFunc w).toNat (fD w) (fA w) (fB w) (fMod w)
  | 0x0E => decodeRemote (fFunc w).toNat (fD w) (fA w) (fB w) (fMod w)
  | 0x0F => decodeRequest (fFunc w).toNat (fD w) (fA w) (fB w) (fMod w)
  | 0x10 => decodeVec 0x10 (fVFunc w).toNat (fV w)
  | 0x11 => decodeVec 0x11 (fVFunc w).toNat (fV w)
  | 0x12 => decodeVec 0x12 (fVFunc w).toNat (fV w)
  | 0x13 => decodeVec 0x13 (fVFunc w).toNat (fV w)
  | 0x14 => decodeVec 0x14 (fVFunc w).toNat (fV w)
  | 0x15 => decodeVec 0x15 (fVFunc w).toNat (fV w)
  | 0x16 => decodeVec 0x16 (fVFunc w).toNat (fV w)
  | 0x18 => decodeVec 0x18 (fVFunc w).toNat (fV w)
  | 0x19 => decodeVec 0x19 (fVFunc w).toNat (fV w)
  | 0x1A => decodeMatrix (fFunc w).toNat (fD w) (fA w) (fB w) (fMod w)
  | 0x1B => decodeEngine (fFunc w).toNat (fD w) (fA w) (fB w) (fMod w)
  | _ => .error .major

/-- The instruction when its operand values are well formed. -/
def checkWf (r : Except Reject Instr) : Except Reject Instr :=
  match r with
  | .ok i => if i.wf then .ok i else .error .operand
  | .error e => .error e

/-- A short word (02 R29). -/
noncomputable def decodeShort (w : IWord) : Except Reject Instr := checkWf (decodeRaw w)

/-! ## Long forms (02 R31–R34) -/

/-- The word is a prefix (02 R31). -/
def isPrefix (w : IWord) : Bool := fMaj w == 0x3F#6

/-- The 32-bit immediate or displacement of R33. -/
def ixImm (p : BitVec 22) (i : BitVec 13) : BitVec 32 := p.extractLsb' 0 19 ++ i

/-- An IX prefix extends the short instruction (02 R33). -/
def extendIx (p : BitVec 22) : Instr → Except Reject Instr
  | .addi d a i => if p.extractLsb' 19 3 == 0#3 then .ok (.ixLongForm .addi d a (ixImm p i)) else .error .payload
  | .andi d a i => if p.extractLsb' 19 3 == 0#3 then .ok (.ixLongForm .andi d a (ixImm p i)) else .error .payload
  | .ori d a i => if p.extractLsb' 19 3 == 0#3 then .ok (.ixLongForm .ori d a (ixImm p i)) else .error .payload
  | .xori d a i => if p.extractLsb' 19 3 == 0#3 then .ok (.ixLongForm .xori d a (ixImm p i)) else .error .payload
  | .slti d a i => if p.extractLsb' 19 3 == 0#3 then .ok (.ixLongForm .slti d a (ixImm p i)) else .error .payload
  | .sltiu d a i => if p.extractLsb' 19 3 == 0#3 then .ok (.ixLongForm .sltiu d a (ixImm p i)) else .error .payload
  | .beq d a i => if p.extractLsb' 19 3 == 0#3 then .ok (.ixLongForm .beq d a (ixImm p i)) else .error .payload
  | .bne d a i => if p.extractLsb' 19 3 == 0#3 then .ok (.ixLongForm .bne d a (ixImm p i)) else .error .payload
  | .blt d a i => if p.extractLsb' 19 3 == 0#3 then .ok (.ixLongForm .blt d a (ixImm p i)) else .error .payload
  | .bge d a i => if p.extractLsb' 19 3 == 0#3 then .ok (.ixLongForm .bge d a (ixImm p i)) else .error .payload
  | .bltu d a i => if p.extractLsb' 19 3 == 0#3 then .ok (.ixLongForm .bltu d a (ixImm p i)) else .error .payload
  | .bgeu d a i => if p.extractLsb' 19 3 == 0#3 then .ok (.ixLongForm .bgeu d a (ixImm p i)) else .error .payload
  | .jalr d a i => if p.extractLsb' 19 3 == 0#3 then .ok (.ixLongForm .jalr d a (ixImm p i)) else .error .payload
  | .ldB d a i => if p.extractLsb' 19 3 == 0#3 then .ok (.ixLongForm .ldB d a (ixImm p i)) else .error .payload
  | .ldH d a i => if p.extractLsb' 19 3 == 0#3 then .ok (.ixLongForm .ldH d a (ixImm p i)) else .error .payload
  | .ldW d a i => if p.extractLsb' 19 3 == 0#3 then .ok (.ixLongForm .ldW d a (ixImm p i)) else .error .payload
  | .ldD d a i => if p.extractLsb' 19 3 == 0#3 then .ok (.ixLongForm .ldD d a (ixImm p i)) else .error .payload
  | .ldBu d a i => if p.extractLsb' 19 3 == 0#3 then .ok (.ixLongForm .ldBu d a (ixImm p i)) else .error .payload
  | .ldHu d a i => if p.extractLsb' 19 3 == 0#3 then .ok (.ixLongForm .ldHu d a (ixImm p i)) else .error .payload
  | .ldWu d a i => if p.extractLsb' 19 3 == 0#3 then .ok (.ixLongForm .ldWu d a (ixImm p i)) else .error .payload
  | .ldQ d a i => if p.extractLsb' 19 3 == 0#3 then .ok (.ixLongForm .ldQ d a (ixImm p i)) else .error .payload
  | .stB d a i => if p.extractLsb' 19 3 == 0#3 then .ok (.ixLongForm .stB d a (ixImm p i)) else .error .payload
  | .stH d a i => if p.extractLsb' 19 3 == 0#3 then .ok (.ixLongForm .stH d a (ixImm p i)) else .error .payload
  | .stW d a i => if p.extractLsb' 19 3 == 0#3 then .ok (.ixLongForm .stW d a (ixImm p i)) else .error .payload
  | .stD d a i => if p.extractLsb' 19 3 == 0#3 then .ok (.ixLongForm .stD d a (ixImm p i)) else .error .payload
  | .stQ d a i => if p.extractLsb' 19 3 == 0#3 then .ok (.ixLongForm .stQ d a (ixImm p i)) else .error .payload
  | _ => .error .unextended

/-- A VX prefix extends the vector instruction (02 R32). -/
def extendVx (p : BitVec 22) (i : Instr) : Except Reject Instr :=
  match toV i with
  | some (op, f) => if p.getLsbD 1 then .error .payload else .ok (.vxLongForm op f (fVx p))
  | none => .error .unextended

/-- An OX prefix extends STX.CUE alone (02 R34, 15 R336). -/
def extendOx (p : BitVec 22) (w : IWord) : Except Reject Instr :=
  if fMaj w == 0x0E#6 && fFunc w == 2#5 then
    if p.getLsbD 21 || p.extractLsb' 0 16 != 0#16 then .error .payload
    else if fMod w &&& 60#6 != 0#6 then .error .field
    else .ok (.stxCue (fD w) (fA w) (fB w) (p.extractLsb' 16 5) ((fMod w).extractLsb' 0 2))
  else .error .unextended

/-- A prefix and its second word (02 R31). -/
noncomputable def decodeLong (w w2 : IWord) : Except Reject Instr :=
  if isPrefix w2 then .error .prefixPair
  else match (fKind w).toNat with
    | 0 => match decodeShort w2 with
      | .ok i => checkWf (extendVx (fPay w) i)
      | .error e => .error e
    | 1 => match decodeShort w2 with
      | .ok i => checkWf (extendIx (fPay w) i)
      | .error e => .error e
    | 2 => extendOx (fPay w) w2
    | _ => .error .prefixKind

/-- A prefix has a second word when its kind is assigned (02 R31). -/
def takesTwo (w : IWord) : Bool := isPrefix w && decide ((fKind w).toNat < 3)

/-- What the decoder makes of bytes. -/
inductive Decoded where
  /-- An instruction, the bytes it takes, and the bytes that follow. -/
  | ok (i : Instr) (len : Nat) (rest : List Byte)
  /-- The word or words are no instruction. -/
  | ill (r : Reject) (w : IWord) (w2 : Option IWord)
  /-- The bytes end inside the instruction. -/
  | more
  deriving DecidableEq, Repr

/-- A little-endian word (00 R3). -/
def leWord (b0 b1 b2 b3 : Byte) : IWord := b3 ++ b2 ++ b1 ++ b0

/-- Decode the instruction at the head of the bytes (02 R28, R31). Total. -/
noncomputable def decode : List Byte → Decoded
  | b0 :: b1 :: b2 :: b3 :: rest =>
    let w := leWord b0 b1 b2 b3
    if takesTwo w then
      match rest with
      | c0 :: c1 :: c2 :: c3 :: rest2 =>
        let w2 := leWord c0 c1 c2 c3
        match decodeLong w w2 with
        | .ok i => .ok i 8 rest2
        | .error e => .ill e w (some w2)
      | _ => .more
    else if isPrefix w then .ill .prefixKind w none
    else
      match decodeShort w with
      | .ok i => .ok i 4 rest
      | .error e => .ill e w none
  | _ => .more

/-! ## Encoding, from the same tables -/

/-- The bytes of a word, lowest address first. -/
def wordBytes (w : IWord) : List Byte :=
  [w.extractLsb' 0 8, w.extractLsb' 8 8, w.extractLsb' 16 8, w.extractLsb' 24 8]

/-- The short word of an instruction that has one. -/
def encodeShort (i : Instr) : Option IWord :=
  match toV i with
  | some (op, f) => some (eV (vspec op).major f (vspec op).func)
  | none =>
  match i with
  | .add d a b w => some (eA 0x01#6 d a b 0#5 (0#5 ++ w))
  | .sub d a b w => some (eA 0x01#6 d a b 1#5 (0#5 ++ w))
  | .and d a b => some (eA 0x01#6 d a b 2#5 0#6)
  | .or d a b => some (eA 0x01#6 d a b 3#5 0#6)
  | .xor d a b => some (eA 0x01#6 d a b 4#5 0#6)
  | .sll d a b w => some (eA 0x01#6 d a b 5#5 (0#5 ++ w))
  | .srl d a b w => some (eA 0x01#6 d a b 6#5 (0#5 ++ w))
  | .sra d a b w => some (eA 0x01#6 d a b 7#5 (0#5 ++ w))
  | .mul d a b w => some (eA 0x01#6 d a b 8#5 (0#5 ++ w))
  | .mulh d a b => some (eA 0x01#6 d a b 9#5 0#6)
  | .mulhu d a b => some (eA 0x01#6 d a b 10#5 0#6)
  | .div d a b w => some (eA 0x01#6 d a b 11#5 (0#5 ++ w))
  | .divu d a b w => some (eA 0x01#6 d a b 12#5 (0#5 ++ w))
  | .rem d a b w => some (eA 0x01#6 d a b 13#5 (0#5 ++ w))
  | .remu d a b w => some (eA 0x01#6 d a b 14#5 (0#5 ++ w))
  | .slt d a b => some (eA 0x01#6 d a b 15#5 0#6)
  | .sltu d a b => some (eA 0x01#6 d a b 16#5 0#6)
  | .seq d a b => some (eA 0x01#6 d a b 17#5 0#6)
  | .min d a b => some (eA 0x01#6 d a b 18#5 0#6)
  | .max d a b => some (eA 0x01#6 d a b 19#5 0#6)
  | .minu d a b => some (eA 0x01#6 d a b 20#5 0#6)
  | .maxu d a b => some (eA 0x01#6 d a b 21#5 0#6)
  | .selz d a b c => some (eA 0x01#6 d a b 22#5 (0#1 ++ c))
  | .selnz d a b c => some (eA 0x01#6 d a b 23#5 (0#1 ++ c))
  | .clz d a w => some (eA 0x01#6 d a 0#5 24#5 (0#5 ++ w))
  | .ctz d a w => some (eA 0x01#6 d a 0#5 25#5 (0#5 ++ w))
  | .popc d a w => some (eA 0x01#6 d a 0#5 26#5 (0#5 ++ w))
  | .brev d a => some (eA 0x01#6 d a 0#5 27#5 0#6)
  | .bswap d a => some (eA 0x01#6 d a 0#5 28#5 0#6)
  | .rol d a b w => some (eA 0x01#6 d a b 29#5 (0#5 ++ w))
  | .ror d a b w => some (eA 0x01#6 d a b 30#5 (0#5 ++ w))
  | .addsh d a b s => some (eA 0x01#6 d a b 31#5 (0#4 ++ s))
  | .addi d a i => some (eI 0x02#6 d a 0#3 i)
  | .andi d a i => some (eI 0x02#6 d a 1#3 i)
  | .ori d a i => some (eI 0x02#6 d a 2#3 i)
  | .xori d a i => some (eI 0x02#6 d a 3#3 i)
  | .slti d a i => some (eI 0x02#6 d a 4#3 i)
  | .sltiu d a i => some (eI 0x02#6 d a 5#3 i)
  | .slli d a w s => some (eI 0x02#6 d a 6#3 (eShift 0#2 w s))
  | .srli d a w s => some (eI 0x02#6 d a 6#3 (eShift 1#2 w s))
  | .srai d a w s => some (eI 0x02#6 d a 6#3 (eShift 2#2 w s))
  | .rori d a w s => some (eI 0x02#6 d a 6#3 (eShift 3#2 w s))
  | .bfx d a p l => some (eI 0x02#6 d a 7#3 (eBfx 0#1 p l))
  | .bfxs d a p l => some (eI 0x02#6 d a 7#3 (eBfx 1#1 p l))
  | .lih d i => some (eU 0x03#6 d i)
  | .beq a b i => some (eI 0x04#6 a b 0#3 i)
  | .bne a b i => some (eI 0x04#6 a b 1#3 i)
  | .blt a b i => some (eI 0x04#6 a b 2#3 i)
  | .bge a b i => some (eI 0x04#6 a b 3#3 i)
  | .bltu a b i => some (eI 0x04#6 a b 4#3 i)
  | .bgeu a b i => some (eI 0x04#6 a b 5#3 i)
  | .jal d i => some (eU 0x05#6 d i)
  | .jalr d a i => some (eI 0x06#6 d a 0#3 i)
  | .tend => some (eA 0x07#6 0#5 0#5 0#5 0#5 0#6)
  | .tpost d r => some (eA 0x07#6 d 0#5 0#5 1#5 r)
  | .tstate d => some (eA 0x07#6 d 0#5 0#5 2#5 0#6)
  | .tcycles d => some (eA 0x07#6 d 0#5 0#5 3#5 0#6)
  | .tsetarg a r => some (eA 0x07#6 0#5 a 0#5 4#5 r)
  | .tenable d r => some (eA 0x07#6 d 0#5 0#5 5#5 r)
  | .tdisable d r => some (eA 0x07#6 d 0#5 0#5 6#5 r)
  | .vclaim d a => some (eA 0x07#6 d a 0#5 7#5 0#6)
  | .csrr d u v => some (eA 0x07#6 d 0#5 u 8#5 v)
  | .csrw d a u v => some (eA 0x07#6 d a u 9#5 v)
  | .csrs d a u v => some (eA 0x07#6 d a u 10#5 v)
  | .csrc d a u v => some (eA 0x07#6 d a u 11#5 v)
  | .trap a c => some (eA 0x07#6 0#5 a 0#5 12#5 c)
  | .brk c => some (eA 0x07#6 0#5 0#5 0#5 13#5 c)
  | .svbind d a b => some (eA 0x07#6 d a b 24#5 0#6)
  | .svhalt d a b => some (eA 0x07#6 d a b 25#5 0#6)
  | .svresume d a b => some (eA 0x07#6 d a b 26#5 0#6)
  | .svresumeR d a b => some (eA 0x07#6 d a b 26#5 1#6)
  | .svmap d a b => some (eA 0x07#6 d a b 27#5 0#6)
  | .ldB d a i => some (eI 0x08#6 d a 0#3 i)
  | .ldH d a i => some (eI 0x08#6 d a 1#3 i)
  | .ldW d a i => some (eI 0x08#6 d a 2#3 i)
  | .ldD d a i => some (eI 0x08#6 d a 3#3 i)
  | .ldBu d a i => some (eI 0x08#6 d a 4#3 i)
  | .ldHu d a i => some (eI 0x08#6 d a 5#3 i)
  | .ldWu d a i => some (eI 0x08#6 d a 6#3 i)
  | .ldQ d a i => some (eI 0x08#6 d a 7#3 i)
  | .stB d a i => some (eI 0x09#6 d a 0#3 i)
  | .stH d a i => some (eI 0x09#6 d a 1#3 i)
  | .stW d a i => some (eI 0x09#6 d a 2#3 i)
  | .stD d a i => some (eI 0x09#6 d a 3#3 i)
  | .stQ d a i => some (eI 0x09#6 d a 4#3 i)
  | .bld d a b w => some (eA 0x0A#6 d a b 0#5 (0#1 ++ w))
  | .blds d a b w => some (eA 0x0A#6 d a b 1#5 (0#1 ++ w))
  | .bst d a b w => some (eA 0x0A#6 d a b 2#5 (0#1 ++ w))
  | .bldp d a b w => some (eA 0x0A#6 d a b 3#5 (0#1 ++ w))
  | .bstp d a b w => some (eA 0x0A#6 d a b 4#5 (0#1 ++ w))
  | .tlbiv d a b => some (eA 0x0A#6 d a b 8#5 0#6)
  | .tlbid d a => some (eA 0x0A#6 d a 0#5 9#5 0#6)
  | .tlbprb d a b => some (eA 0x0A#6 d a b 10#5 0#6)
  | .pref a p => some (eA 0x0A#6 0#5 a 0#5 11#5 (0#5 ++ p))
  | .amoAdd d a b s p w => some (eA 0x0B#6 d a b 0#5 (s ++ p ++ w))
  | .amoAnd d a b s p w => some (eA 0x0B#6 d a b 1#5 (s ++ p ++ w))
  | .amoOr d a b s p w => some (eA 0x0B#6 d a b 2#5 (s ++ p ++ w))
  | .amoXor d a b s p w => some (eA 0x0B#6 d a b 3#5 (s ++ p ++ w))
  | .amoMin d a b s p w => some (eA 0x0B#6 d a b 4#5 (s ++ p ++ w))
  | .amoMax d a b s p w => some (eA 0x0B#6 d a b 5#5 (s ++ p ++ w))
  | .amoMinu d a b s p w => some (eA 0x0B#6 d a b 6#5 (s ++ p ++ w))
  | .amoMaxu d a b s p w => some (eA 0x0B#6 d a b 7#5 (s ++ p ++ w))
  | .amoSwap d a b s p w => some (eA 0x0B#6 d a b 8#5 (s ++ p ++ w))
  | .amoCas d a b s p w => some (eA 0x0B#6 d a b 9#5 (s ++ p ++ w))
  | .fence k s => some (eA 0x0C#6 0#5 0#5 0#5 0#5 (0#1 ++ k ++ s))
  | .ldAcq d a s x => some (eA 0x0C#6 d a 0#5 1#5 (s ++ x))
  | .stRel d a s x => some (eA 0x0C#6 d a 0#5 2#5 (s ++ x))
  | .redf d a b => some (eA 0x0C#6 d a b 3#5 0#6)
  | .tarm a c r => some (eA 0x0C#6 0#5 a c 4#5 r)
  | .barrier d a => some (eA 0x0C#6 d a 0#5 5#5 0#6)
  | .barq d a b => some (eA 0x0C#6 d a b 6#5 0#6)
  | .qpop d a b => some (eA 0x0D#6 d a b 0#5 0#6)
  | .qpopM d a b => some (eA 0x0D#6 d a b 1#5 0#6)
  | .qtag d a => some (eA 0x0D#6 d a 0#5 2#5 0#6)
  | .qcount d a => some (eA 0x0D#6 d a 0#5 3#5 0#6)
  | .qdrop d a => some (eA 0x0D#6 d a 0#5 4#5 0#6)
  | .qpush d a b g t => some (eA 0x0D#6 d a b 5#5 (g ++ 0#1 ++ t))
  | .qpushM d a b g t => some (eA 0x0D#6 d a b 6#5 (g ++ 0#1 ++ t))
  | .qmark d a g => some (eA 0x0D#6 d a 0#5 7#5 (g ++ 0#5))
  | .qhandle d a => some (eA 0x0D#6 d a 0#5 8#5 0#6)
  | .qcreate d a => some (eA 0x0D#6 d a 0#5 9#5 0#6)
  | .qdestroy d a f => some (eA 0x0D#6 d a 0#5 10#5 (0#5 ++ f))
  | .qstat d a => some (eA 0x0D#6 d a 0#5 11#5 0#6)
  | .stx d a b w => some (eA 0x0E#6 d a b 0#5 (0#4 ++ w))
  | .stCue d a b w => some (eA 0x0E#6 d a b 1#5 (0#4 ++ w))
  | .cueq d a => some (eA 0x0E#6 d a 0#5 3#5 0#6)
  | .getq d a b w => some (eA 0x0E#6 d a b 4#5 (0#4 ++ w))
  | .amoq d a b x o => some (eA 0x0E#6 d a b 5#5 (0#1 ++ x ++ o))
  | .lnkdiag d a b => some (eA 0x0E#6 d a b 6#5 0#6)
  | .lnkstat d a => some (eA 0x0E#6 d a 0#5 7#5 0#6)
  | .rqalloc d => some (eA 0x0F#6 d 0#5 0#5 0#5 0#6)
  | .rqread d a w => some (eA 0x0F#6 d a 0#5 1#5 (0#1 ++ w))
  | .rqwrite d a b w => some (eA 0x0F#6 d a b 2#5 (0#1 ++ w))
  | .rqqueue d a => some (eA 0x0F#6 d a 0#5 3#5 0#6)
  | .rqcommit d a b => some (eA 0x0F#6 d a b 4#5 0#6)
  | .rqfork d a b => some (eA 0x0F#6 d a b 5#5 0#6)
  | .rqretire d a b => some (eA 0x0F#6 d a b 6#5 0#6)
  | .rqretireFree d a => some (eA 0x0F#6 d a 0#5 6#5 1#6)
  | .rqpark d a => some (eA 0x0F#6 d a 0#5 7#5 0#6)
  | .bfstep d a => some (eA 0x0F#6 d a 0#5 8#5 0#6)
  | .smpl d a b => some (eA 0x0F#6 d a b 9#5 0#6)
  | .beam d a b => some (eA 0x0F#6 d a b 10#5 0#6)
  | .lahar d a b h => some (eA 0x0F#6 d a b 11#5 (0#5 ++ h))
  | .mloadb d a b k => some (eA 0x1A#6 d a b 0#5 k)
  | .mma d a b k => some (eA 0x1A#6 d a b 1#5 k)
  | .mdrain d a b z c => some (eA 0x1A#6 d a b 2#5 (0#2 ++ z ++ c))
  | .mzero d => some (eA 0x1A#6 d 0#5 0#5 3#5 0#6)
  | .mbinv k => some (eA 0x1A#6 0#5 0#5 0#5 4#5 k)
  | .mbstat d k => some (eA 0x1A#6 d 0#5 0#5 5#5 k)
  | .mnote d a => some (eA 0x1A#6 d a 0#5 6#5 0#6)
  | .tdset a b => some (eA 0x1A#6 0#5 a b 7#5 0#6)
  | .tdget a b => some (eA 0x1A#6 0#5 a b 8#5 0#6)
  | .tdalloc d => some (eA 0x1A#6 d 0#5 0#5 9#5 0#6)
  | .tdfree d a => some (eA 0x1A#6 d a 0#5 10#5 0#6)
  | .tdrag a b => some (eA 0x1A#6 0#5 a b 11#5 0#6)
  | .xcopy d a b r => some (eA 0x1B#6 d a b 0#5 (0#5 ++ r))
  | .xred d a b r => some (eA 0x1B#6 d a b 1#5 (0#5 ++ r))
  | .xfill d a b r => some (eA 0x1B#6 d a b 2#5 (0#5 ++ r))
  | .xstat d a => some (eA 0x1B#6 d a 0#5 3#5 0#6)
  | .xabort d a => some (eA 0x1B#6 d a 0#5 4#5 0#6)
  | _ => none

/-- The short instruction that an IX form extends, with the low 13 bits of the immediate. -/
noncomputable def ixShort (op : IxOp) (d a : Reg) (i : BitVec 13) : Instr :=
  match op with
  | .addi => .addi d a i
  | .andi => .andi d a i
  | .ori => .ori d a i
  | .xori => .xori d a i
  | .slti => .slti d a i
  | .sltiu => .sltiu d a i
  | .beq => .beq d a i
  | .bne => .bne d a i
  | .blt => .blt d a i
  | .bge => .bge d a i
  | .bltu => .bltu d a i
  | .bgeu => .bgeu d a i
  | .jalr => .jalr d a i
  | .ldB => .ldB d a i
  | .ldH => .ldH d a i
  | .ldW => .ldW d a i
  | .ldD => .ldD d a i
  | .ldBu => .ldBu d a i
  | .ldHu => .ldHu d a i
  | .ldWu => .ldWu d a i
  | .ldQ => .ldQ d a i
  | .stB => .stB d a i
  | .stH => .stH d a i
  | .stW => .stW d a i
  | .stD => .stD d a i
  | .stQ => .stQ d a i

/-- The words of an instruction; an event has none. -/
noncomputable def encode (i : Instr) : List IWord :=
  match i with
  | .ixLongForm op d a im =>
    match encodeShort (ixShort op d a (im.extractLsb' 0 13)) with
    | some w => [ePre 1#4 (0#3 ++ im.extractLsb' 13 19), w]
    | none => []
  | .vxLongForm op f x => [ePre 0#4 (eVx x), eV (vspec op).major f (vspec op).func]
  | .stxCue d a b c w => [ePre 2#4 (0#1 ++ c ++ 0#16), eA 0x0E#6 d a b 2#5 (0#4 ++ w)]
  | i =>
    match encodeShort i with
    | some w => [w]
    | none => []

/-- The bytes of an instruction, as they stand in memory. -/
noncomputable def encodeBytes (i : Instr) : List Byte := (encode i).flatMap wordBytes

/-- The instruction that the decoder reads from an instruction whose first word is the low 32 bits of `w` and whose
second word is the next 32; bits from `nbits` up are zero. -/
noncomputable def decodeTableWord (nbits w : Nat) : Option Instr :=
  let v := BitVec.ofNat 64 (w % 2 ^ nbits)
  match decode (wordBytes (v.extractLsb' 0 32) ++ wordBytes (v.extractLsb' 32 32)) with
  | .ok i _ _ => some i
  | _ => none

end Sys2Proof
end

