-- ==== Sys2Proof/Config.lean ====
section
/-!
DEFINITION. What an implementation fixes, and the values the manual leaves open. A constant without a body here is a
free value: nothing in Lean can evaluate it, so a claim holds for every value of it (log 2, log 9, log 10, log 20).
-/
namespace Sys2Proof.Config

/-- Cycles that pass during a step, at the machine's counter of free values (log 2). It may be 0, so that steps of
several parties fall in one cycle. -/
opaque stepCycles : Nat → Nat

/-- A value nothing constrains, at the machine's counter of free values (log 7). -/
opaque freeChoice : Nat → Bool

/-- A 64-bit value nothing constrains, at the counter (log 10). -/
opaque freeWord : Nat → Word

/-- Where the loader or the allocator looks for a free frame, and where MAP places a range (log 9). -/
opaque frameChoice : Nat → Nat
opaque virtualChoice : Nat → Nat

/-- What a read of a device-register address that no register map of the manual assigns returns (log 10). -/
opaque unassignedDevice : BitVec 48 → Nat → Word

/-- The row of an array's code word, by the array's kind and instance and the word's offset (22 R446), and the bank that
holds a row: the manual gives no layout of rows (log 71). -/
opaque rowOf : Nat → Nat → Nat → Nat
opaque bankOf : Nat → Nat → Nat → Nat

/-- Where an item of the arrays of kinds 4 to 6 stands, as a code word offset: the manual gives no layout (log 70). -/
opaque arrayOffset : Nat → Nat → Nat

/-- The bytes of a message's packet on a Porsin link: the manual lays out the flit and no packet (log 8). -/
opaque packetBytes : Msg → List Byte

/-- The flow window toward a queue of another package, which its table entry there holds (log 22). -/
opaque farWindow : BitVec 32 → Nat

/-- The fused key list (22): the SHA-384 hash of entry j, its CLASS and its REVOKED bit (log 20). -/
opaque keyHash : BitVec 4 → BitVec 384
opaque keyClass : BitVec 4 → Bool
opaque keyRevoked : BitVec 4 → Bool
/-- The public key that travels with the firmware for entry j, as the two coordinates of a point (log 20). -/
opaque keyX : BitVec 4 → Nat
opaque keyY : BitVec 4 → Nat
/-- The bytes of a public key that the key list's hash is taken over (log 20). -/
opaque keyBytes : Nat → Nat → List Byte

/-- The load-time symbols of an image (02 R46): the words of an image do not say where they stand, so the places are
free, as (role, data record + 1 or 0 for the code, byte offset, kind, image index, bytes); kind 0 is a queue, 1 a group,
2 a tensor (log 60). -/
opaque symbols : List Word → List (Nat × Nat × Nat × Nat × Nat × Nat)

/-- The ports of the trunk that the network service sets from a lowest port at start-up: the board's wiring (log 86). -/
opaque trunkPorts : Nat → Nat

/-- The package is an H9-P, whose checkpoint store lies in host memory; otherwise an H9-M, with flash (22 R451, R454). -/
opaque hostStore : Bool

/-- The package id that the loader assigns at start-up (01 R18), kept below 0xFFF by `State.pkgId` (log 1). -/
opaque packageId : BitVec 12

end Sys2Proof.Config
end

