-- ==== Sys2Proof/Machine/Table.lean ====
section
/-!
DEFINITION. Sparse tables: a list of key and value pairs in rising key order, with a default for a key not listed.
-/
namespace Sys2Proof.Machine

/-- A table keyed by numbers. -/
abbrev Tbl (α : Type) := List (Nat × α)

/-- The entry of key `k`, if listed. -/
def Tbl.find? {α : Type} : Tbl α → Nat → Option α
  | [], _ => none
  | (j, v) :: t, k => if j = k then some v else Tbl.find? t k

/-- The value of key `k`, `d` when it is not listed. -/
def Tbl.get {α : Type} (t : Tbl α) (d : α) (k : Nat) : α := (Tbl.find? t k).getD d

/-- The table with key `k` set to `v`, its place kept in rising key order. -/
def Tbl.set {α : Type} : Tbl α → Nat → α → Tbl α
  | [], k, v => [(k, v)]
  | (j, w) :: t, k, v =>
    if j = k then (k, v) :: t
    else if k < j then (k, v) :: (j, w) :: t
    else (j, w) :: Tbl.set t k v

/-- The table without key `k`. -/
def Tbl.erase {α : Type} (t : Tbl α) (k : Nat) : Tbl α := t.filter (fun p => p.1 ≠ k)

/-- The table with the value of key `k` changed by `f`. -/
def Tbl.upd {α : Type} (t : Tbl α) (d : α) (k : Nat) (f : α → α) : Tbl α := Tbl.set t k (f (Tbl.get t d k))

/-- Drop the first element that meets the condition. -/
def dropFirst {α : Type} (f : α → Bool) : List α → List α
  | [] => []
  | x :: t => if f x then t else x :: dropFirst f t

/-- The listed keys. -/
def Tbl.keys {α : Type} (t : Tbl α) : List Nat := t.map (·.1)

end Sys2Proof.Machine
end

