-- ==== Sys2Proof/Machine/State.lean ====
section
/-!
DEFINITION. The state of one Hallys H9 package: everything the spec gives the machine, as plain data, and the state
right after reset. Each field's docstring names the rule that gives it.
-/
namespace Sys2Proof.Machine

/-- Why the machine stops with a fault. Every fault of the spec is taken inside the machine (22 R435), so nothing of
the spec raises this. -/
inductive Fault where
  /-- Raised by no meaning: a place for a stop that the spec would name. Safe: the machine would go on. -/
  | stuck
  deriving DecidableEq, Repr

/-- Why an instruction has no meaning. -/
inductive Refusal where
  /-- Raised by exec's arm of an instruction that the model has not reached. Safe: a claim about it is unprovable. -/
  | notModelled (mnemonic : String)
  deriving DecidableEq, Repr

/-! ## Cores (04, 05, 02) -/

/-- A vector register: `vl` lanes of 32 bits, lane 0 first (02 Table 2.1). -/
abbrev VReg := List Lane

/-- A binding row (04 Table 4.1). -/
structure Row where
  entry  : Word := 0
  arg    : Word := 0
  valid  : Bool := false
  en     : Bool := false
  fault  : Bool := false
  prio   : BitVec 3 := 0
  qh0    : BitVec 4 := 0
  q0v    : Bool := false
  qh1    : BitVec 4 := 0
  q1v    : Bool := false
  trig0  : BitVec 8 := 0
  trig1  : BitVec 8 := 0
  pend   : BitVec 8 := 0
  budget : BitVec 24 := 0
  deriving DecidableEq, Repr

/-- What a hardware wait waits for: it ends without SVRESUME (04 R461). -/
inductive HwWait where
  /-- The data of a far load (08 R162). -/
  | load
  /-- A translation (08 R174): the domain, the virtual address, and 0 READ, 1 WRITE or 2 FETCH. -/
  | walk (dom : BitVec 12) (va : BitVec 48) (kind : BitVec 2)
  /-- An ordering wait (09 R200): at a scope, for every access or for reads alone. -/
  | order (scope : Nat) (acq : Bool)
  /-- An outstanding slot or a cue-table entry (15 R324). -/
  | slot
  deriving DecidableEq, Repr

/-- What a parked instance waits for (04 R92). -/
inductive Wait where
  | hw (k : HwWait)
  /-- The pager's answer (08 R178). -/
  | pager
  /-- The result of an atomic, already applied: the register it goes to and the value (09 R204). -/
  | atomic (d : Reg) (v : Word)
  /-- The result of an atomic that is queued at a MOVING page (09 R204). -/
  | atomicOut (d : Reg)
  deriving DecidableEq, Repr

/-- One entry of a value record (09 R210): the doubleword's place, which bytes were read, and their values. -/
structure Seen where
  dw    : Nat
  mask  : BitVec 8
  value : Word
  deriving DecidableEq, Repr

/-- What belongs to an instance beside its registers. -/
structure Inst where
  /-- The model's number of the instance, rising with creation. -/
  id         : Nat := 0
  row        : BitVec 6 := 0
  prio       : BitVec 3 := 0
  /-- SOURCE of Table 4.8: 0 queue trigger, 1 continuation, 2 post. -/
  source     : BitVec 3 := 0
  /-- EFF of Table 4.8: effective priority at dispatch. -/
  eff        : BitVec 3 := 0
  readySince : Nat := 0
  /-- Cycles charged before the present run (04 R96). -/
  used       : Nat := 0
  parks      : BitVec 8 := 0
  preempted  : Bool := false
  /-- claimed_this_instance of 11 R225. -/
  claimed    : Bool := false
  /-- An atomic's result to be written when the instance resumes (09 R204). -/
  result     : Option (Reg × Word) := none
  record     : List Seen := []
  /-- The role version the instance was created under (20 R416). -/
  version    : BitVec 16 := 0
  role       : Nat := 0
  deriving DecidableEq, Repr

/-- The state of an entry of the run queue (04 R85). -/
inductive HeldAs where
  | ready
  | parked (w : Wait)
  /-- Displaced into frame P, with the wait of an instance that was parked in place (04 R92). -/
  | preempted (w : Option Wait)
  | stopped
  deriving DecidableEq, Repr

/-- An entry of the run queue: an instance with what its frame and its lanes hold (02 R24, 04 R91).
`frame`: 0–13 a parking frame, 14 frame S, 16 frame P. -/
structure Held where
  inst   : Inst
  st     : HeldAs
  frame  : Option Nat
  pc     : Word
  sregs  : Vector Word 16
  nflags : Word
  vl     : Nat
  vregs  : Vector VReg 32
  masks  : Vector (BitVec 128) 8
  blocks : List Nat
  deriving DecidableEq, Repr

/-- What the core itself is doing. -/
inductive Cond where
  | idle
  | running
  /-- Parked in place (04 R92). -/
  | parked (w : Wait)
  /-- Stopped in place, with the wait it keeps (04 R94, R461). -/
  | stopped (w : Option Wait)
  deriving DecidableEq, Repr

/-- One watch of an armament: the doubleword's place, and whether it stands at its point (09 R210). -/
structure Watch where
  dw    : Nat
  seen  : Option Seen
  /-- The page's domain, the virtual address, and whether the page is large, for an invalidation that covers it
  (09 R211). -/
  page  : Option (BitVec 12 × BitVec 48 × Bool)
  stands : Bool
  deriving DecidableEq, Repr

/-- An armament slot (04 R84). `hit`: the index of the watch that was met, and the order of the meeting;
`fired`: the same once the armament has fired (09 R211). -/
structure Arm where
  row     : BitVec 6
  watches : List Watch
  hit     : Option (Nat × Nat)
  fired   : Option (Nat × Nat)
  deriving DecidableEq, Repr

/-- An entry of the store buffer (08 R167). `key` is the address as issued, in full form and with its domain;
`pa` is the location; `bits` are the bits written; `src` is the core that issued it, 8192 for a party that is no core. -/
structure StEntry where
  src    : Nat
  id     : Nat
  inst   : Nat
  dom    : BitVec 12
  key    : Nat
  pa     : Nat
  n      : Nat
  value  : BitVec 128
  bits   : BitVec 128
  deriving DecidableEq, Repr

/-- A TLB entry (08 R174, R175): domain, page, size, the leaf as the walk found it, the domain's generation. -/
structure TlbE where
  dom   : BitVec 12
  page  : Nat
  large : Bool
  leaf  : Word
  gen   : BitVec 32
  deriving DecidableEq, Repr

/-- An outstanding slot in use (15 R324). `store` marks an access that an ordering waits for (09 R200, 15 R335):
all but a `CUEQ`. -/
structure Outst where
  serial : Nat
  inst   : Nat
  store  : Bool
  /-- A `GETQ` or `AMOQ`: a read that an acquire fence waits for. -/
  read   : Bool
  addr   : Word
  /-- The queue, for a push. -/
  qid    : Option (BitVec 32)
  /-- The cue the store returns, if any. -/
  cue    : BitVec 32
  /-- The push of a break notice (05 R120). -/
  notice : Bool
  /-- The cycle of its issue, for monitors (22 R449). -/
  at_    : Nat
  deriving DecidableEq, Repr

/-- A membership slot (09 R213). -/
structure Member where
  group   : Nat
  pending : Bool
  rank    : BitVec 16
  deriving DecidableEq, Repr

/-- What a handle maps to on a core (06 R124, 22 R436). -/
inductive HandleMap where
  | unmapped
  | queue (qid : BitVec 32)
  | faultQueue
  deriving DecidableEq, Repr

/-- An image of a tensor entry (12 R262). -/
abbrev Entry := BitVec 512

/-- A matrix command's operation (12 R271). Operands as read at issue. -/
inductive MOp where
  | loadb (name : BitVec 6) (ent : Entry) (i2 k0 n0 : Nat)
  | mma (acc : Nat) (tile : Nat) (name : BitVec 6) (nb : Nat) (ent : Entry) (i2 row0 k0 rows : Nat)
  | drain (acc : Nat) (tile : Nat) (z : Bool) (ent : Entry) (i2 row0 col0 rows : Nat) (e : Int)
  | zero (tile : Nat)
  | inval (name : BitVec 6)
  | note (value : Word)
  deriving DecidableEq, Repr

/-- A matrix command in a queue or in the unit. -/
structure MCmd where
  id     : Nat
  core   : CoreId
  q      : BitVec 32
  dom    : BitVec 12
  svc    : Bool
  nmode  : Word
  role   : Nat
  op     : MOp
  /-- The cycle at which the unit accepted it, for monitors (22 R449). -/
  at_    : Nat
  deriving DecidableEq, Repr

/-- What a core's next MNOTE reports (12 R286). -/
structure NoteAcc where
  status : BitVec 8 := 0
  flags  : BitVec 7 := 0
  count  : Nat := 0
  deriving DecidableEq, Repr

/-- A core (01 R10) with all that belongs to it. -/
structure Core where
  /-- `s0`–`s31` (02 R22, R23). -/
  regs      : Vector Word 32 := Vector.replicate 32 0
  pc        : Word := 0
  /-- NFLAGS, NMODE (03 R58, R59). -/
  nflags    : Word := 0
  nmode     : Word := 0
  /-- Lanes held, `v0`–`v31`, `m1`–`m7` (02 R25). -/
  vl        : Nat := 0
  vregs     : Vector VReg 32 := Vector.replicate 32 []
  masks     : Vector (BitVec 128) 8 := Vector.replicate 8 0
  /-- The lane-pool blocks of the grant (11 R224). -/
  blocks    : List Nat := []
  /-- What the core is doing, and its running instance (04 R85). -/
  cond      : Cond := .idle
  inst      : Inst := {}
  /-- The cycle at which the present run began. -/
  startedAt : Nat := 0
  /-- Binding rows, and the row that last created an instance (04 R79, R83). -/
  rows      : Tbl Row := []
  lastRow   : Option Nat := none
  /-- Armament slots (04 R84, 09 R209). -/
  arms      : Tbl Arm := []
  /-- Rows owed a continuation of a refused armament (04 R84), oldest first, with the order of refusal. -/
  refused   : List (BitVec 6 × Nat) := []
  /-- The run queue (04 R85), and F of 04 R90. -/
  held      : List Held := []
  frames    : Nat := 4
  /-- The store buffer (08 R167) and the TLBs, latest used first (08 R174). -/
  stbuf     : List StEntry := []
  itlb      : List TlbE := []
  dtlb      : List TlbE := []
  /-- Outstanding slots (15 R324), contribution slots (09 R206), membership slots (09 R213). -/
  outst     : List Outst := []
  contribs  : List Contribution := []
  members   : List Member := []
  /-- Pushes to each queue of another cluster whose credit has not returned (06 R137). -/
  flights   : Tbl Nat := []
  /-- `q0`–`q15` (06 R124) and `acc0`–`acc7` (12 R270). -/
  handles   : Tbl HandleMap := []
  accs      : Tbl Nat := []
  /-- The arbiter's WEIGHT, the command queue, and what the next MNOTE reports (12 R271, R272, R286). -/
  weight    : Nat := 1
  mq        : List MCmd := []
  note      : NoteAcc := {}
  /-- Fault items lost since the last accepted one (22 R438). -/
  lost      : BitVec 8 := 0
  /-- The cycle at which the core left reset (05 R116 CYCLE). -/
  resetAt   : Nat := 0
  /-- RETIRED (05 R116). -/
  retired   : Word := 0
  /-- DBGCTL and DBGQ (05 R116, R120). -/
  dbgctl    : Word := 0
  dbgq      : Word := 0
  /-- The role that the core is placed in (20 R409). -/
  role      : Option Nat := none
  /-- The core's index within its role (02 R23 s3). -/
  index     : Nat := 0
  /-- Pager requests refused and kept (08 R177), by instance. -/
  pagerReqs : List (Nat × BitVec 256) := []
  /-- Inputs closed during a recast (20 R416). -/
  closed    : List QKey := []
  /-- The pool role a core is moving to (18 R382). -/
  joining   : Option Nat := none
  /-- Rows and handles of the other pool roles of its model, which the loader places on every member core (18 R382). -/
  pooled    : Tbl (Tbl Row × Tbl HandleMap) := []
  /-- An understudy stands in the core's place, and which of its cluster's 8 (22 R447). -/
  replaced  : Bool := false
  understudy : Nat := 0
  deriving DecidableEq, Repr

/-! ## Queues (06) -/

/-- Queue states (06 Table 6.4). -/
inductive QState where
  | free | active | failed
  deriving DecidableEq, Repr

/-- One reserved copy on-chip: its slot of capacity, the core it is reserved to, its owner instance. -/
structure Copy where
  slot  : Nat
  core  : CoreId
  item  : Item
  owner : Option Nat
  deriving DecidableEq, Repr

/-- A queue table entry (06 Table 6.2, R126–R142). -/
structure Queue where
  st       : QState := .free
  elastic  : Bool := false
  cap      : Nat := 0
  g        : Nat := 1
  window   : Nat := 4
  prio     : BitVec 3 := 0
  role     : Nat := 0
  mcast    : Bool := false
  group    : Nat := 0
  steer    : Bool := false
  dom      : BitVec 12 := 0
  openAll  : Bool := false
  calBase  : Word := 0
  calItems : Nat := 0
  lowmark  : Nat := 8
  /-- The consumer cores in ascending role index (06 R126). -/
  consumers : List CoreId := []
  /-- The role index of the core last served in turn. -/
  served   : Option Nat := none
  spilling : Bool := false
  items    : List Copy := []
  spill    : List Item := []
  /-- The batch of a refill in flight: its size. -/
  refill   : Option Nat := none
  /-- The cycle at which that refill began, for monitors (22 R449). -/
  refillAt : Nat := 0
  nextSlot : Nat := 0
  granule  : Nat := 0
  /-- The load that created the queue, if one did. -/
  load     : Option Nat := none
  deriving DecidableEq, Repr

/-! ## Tensors, matrix units, engines (12, 13) -/

/-- A tensor table entry (12 R261, R262). -/
structure Tensor where
  taken   : Bool := false
  owner   : BitVec 12 := 0
  /-- The role the loader filled it for. -/
  role    : Option Nat := none
  entry   : Entry := 0
  deriving DecidableEq, Repr

/-- A bank name (12 R268, R288): for each column its values by logical K, a missing one zero. `bad`: an
uncorrectable error stands in it, which the next pass meets (12 R282). -/
structure Bank where
  valid   : Bool := false
  bad     : Bool := false
  fmt     : BitVec 4 := 0
  spn     : BitVec 3 := 0
  span    : Nat := 128
  err     : BitVec 6 := 0
  cols    : List (List Num) := []
  deriving DecidableEq, Repr

/-- A special-function table (11 R250): slope and intercept of each segment, LO and INV. -/
structure Sfu where
  seg : Tbl (BitVec 32 × BitVec 32) := []
  lo  : BitVec 32 := 0
  inv : BitVec 32 := 0
  /-- The live roles that loaded it. -/
  roles : List Nat := []
  deriving DecidableEq, Repr

/-- An ensemble (11 R224, 12 R268–R273). -/
structure Ens where
  /-- Lane blocks taken, bit n for block n. -/
  taken    : BitVec 16 := 0
  banks    : Tbl Bank := []
  /-- Physical banks in 4-bit mode. -/
  four     : BitVec 32 := 0
  /-- Tiles by number: rows of 128 FP32 codes; a missing element is +0. -/
  tiles    : Tbl (List (List (BitVec 32))) := []
  accepted : List MCmd := []
  arbCore  : Nat := 0
  arbTaken : Nat := 0
  sfu      : Tbl Sfu := []
  deriving DecidableEq, Repr

/-- A copy or reduction engine's command (13 R297–R309). -/
inductive XOp where
  | copy (src dst : Entry)
  | fill (dst : Entry) (value : BitVec 32)
  | red (src : Entry) (dst : Option (Entry)) (rank : RankArrival) (rootPkg : BitVec 12) (rootEng : BitVec 6)
  deriving DecidableEq, Repr

/-- An engine command with its progress: elements before which every write is done, and the flags so far. `sent`: the
ends of the packets that a remote side has not acknowledged (13 R306). `stop`: how it ends once they are, or once its root
says so. `saved`: the bytes that a copy within one space has overwritten, and `written` the bits that it wrote, as (first,
width) (R303). `inbox`: what a remote source has sent, up to element `fetched`. `row`: a rank's elements of the chunk, for a
root in another package (R310). `tail`: the sums of a destination's block that the end of a chunk cuts, with the flags of
writing them (03 R57, log 79). -/
structure XCmd where
  id    : Nat
  core  : CoreId
  q     : BitVec 32
  dom   : BitVec 12
  svc   : Bool
  nmode : Word
  start : Nat
  pos   : Nat
  flags : BitVec 7
  op    : XOp
  sent  : List Nat
  stop  : Option (BitVec 8 × Word)
  saved : List Host.Cell
  written : List (Nat × Nat)
  inbox : List (PacketRead × Nat)
  fetched : Nat
  row   : List Num
  tail  : List Num
  tailFlags : BitVec 7
  deriving DecidableEq, Repr

/-- Where a chunk stands at its root (13 R310): not begun; waiting for the maxima of ranks in other packages, for their aligned
integers, or for their writes. -/
inductive ChunkSt where
  | idle | maxima | aligned | written
  deriving DecidableEq, Repr

/-- A collective at its root (13 R310): `rows` are the chunk's elements of the ranks of this package, `heard` what the ranks
of other packages have said in this part of the chunk. -/
structure Coll where
  key      : BitVec 32
  arrived  : List RankArrival
  pos      : Nat
  deadline : Nat
  st       : ChunkSt
  rows     : List (List Num)
  emax     : List (Option Int)
  heard    : List FarChunk
  deriving DecidableEq, Repr

/-- An engine (13 R297, R310). -/
structure Engine where
  queue   : List XCmd := []
  running : List XCmd := []
  roots   : List Coll := []
  /-- Arrivals for a ninth KEY, in order, with the cycle of each. -/
  waiting : List (RankArrival × Nat) := []
  deriving DecidableEq, Repr

/-! ## Ordering hardware (09) -/

/-- A group table entry (09 Table 9.12). -/
structure Group where
  valid   : Bool := false
  stagger : Nat := 0
  members : Nat := 0
  arrived : Nat := 0
  episode : BitVec 32 := 0
  orv     : BitVec 32 := 0
  sum     : BitVec 32 := 0
  /-- The member cores and the load that made the group. -/
  cores   : List CoreId := []
  load    : Nat := 0
  /-- The arrivals of this episode, which name the queues of their releases. -/
  arrivals : List Arrival := []
  deriving DecidableEq, Repr

/-- An active reduction cell of a bank's reorder buffer (09 R208). -/
structure RedCell where
  held  : List Contribution := []
  since : Nat := 0
  deriving DecidableEq, Repr

/-- What an invalidation names: nothing, when the domain has no valid root (08 R184); the page that holds an address; or
every page of the domain. -/
inductive InvalOf where
  | nothing
  | page (va : Nat)
  | domain
  deriving DecidableEq, Repr

/-- An invalidation in progress (08 R183). -/
structure Inval where
  core   : CoreId
  q      : BitVec 32
  dom    : BitVec 12
  addr   : Word
  gen    : BitVec 32
  what   : InvalOf
  deriving DecidableEq, Repr

/-- An access queued at a MOVING page's old home (08 R181): a store of this package; an atomic that has left its core (09
R204); or a remote request, at its place. -/
inductive Queued where
  | store (e : StEntry)
  | atomic (c : CoreId) (inst : Nat) (dom : BitVec 12) (p n func : Nat) (op cmp : Word)
  | request (r : RemoteReq) (p : Nat)
  deriving DecidableEq, Repr

/-- A page that is MOVING (08 R181): the command, its old frame, and the accesses queued at the old home. -/
structure Migr where
  cmd    : MigCmd
  old    : BitVec 40
  queued : List Queued
  deriving DecidableEq, Repr

/-- A redirect entry of an old home (08 R181). -/
structure Redirect where
  dom   : BitVec 12
  va    : BitVec 48
  large : Bool
  old   : BitVec 40
  new   : BitVec 40
  deriving DecidableEq, Repr

/-! ## Remote access and links (15) -/

/-- Cue states (15 Table 15.2). -/
inductive CueSt where
  | free | pending | landed | failed
  deriving DecidableEq, Repr

/-- A cue-table entry (15 Table 15.2). `queries` are the CUEQs that wait at the origin (R338). -/
structure Cue where
  dest    : List (BitVec 12) := []
  target  : BitVec 12 := 0
  overrun : Bool := false
  dom     : BitVec 12 := 0
  issue   : BitVec 24 := 0
  /-- The package clock at issue, of which ISSUE is the part the entry shows. -/
  issuedAt : Nat := 0
  st      : CueSt := .free
  gen     : BitVec 8 := 0
  queries : List Watcher := []
  deriving DecidableEq, Repr

/-- A hold-queue entry (15 R329, R331). -/
structure HoldE where
  id   : Nat
  req  : RemoteReq
  cue  : BitVec 32
  at_  : Nat
  deriving DecidableEq, Repr

/-- A remote-miss slot (15 R325). -/
structure Miss where
  die  : Nat
  dom  : BitVec 12
  page : Nat
  req  : RemoteReq
  deriving DecidableEq, Repr

/-- Trunk states (15 Table 15.12). -/
inductive TrunkSt where
  | up | retraining | down
  deriving DecidableEq, Repr

/-- A trunk (15 R340–R352). -/
structure Trunk where
  ports    : Nat := 0
  st       : TrunkSt := .up
  step     : Nat := 0
  inuse    : BitVec 16 := 0
  failed   : BitVec 16 := 0
  /-- Faults injected by LNKDIAG, which a restore clears. -/
  injected : BitVec 16 := 0
  retrains : BitVec 8 := 0
  replays  : BitVec 8 := 0
  /-- Replays since the last sample of them (22 R449). -/
  recent   : Nat := 0
  /-- The width a retraining goes to: step and lanes. -/
  target   : Nat × BitVec 16 := (0, 0)
  /-- A retraining that LNKDIAG restore began. -/
  restoring : Bool := false
  txSeq    : BitVec 24 := 0
  rxSeq    : BitVec 24 := 0
  replay   : List Flit := []
  /-- By class, the bytes of packets that have begun to enter flits and are in none yet; and those packets, each with how
  many of these bytes end with it (R341). -/
  stream   : Tbl (List Byte) := []
  ending   : Tbl (List (Nat × BitVec 12 × Msg)) := []
  /-- Flits sent for which no credit has come back, and credits owed to the other end, by class (R343). -/
  credits  : Tbl Nat := []
  owed     : Tbl Nat := []
  ackTime  : Nat := 4000
  /-- LNKDIAG operation 1: the lane and the count of packets left. -/
  armed    : Option (Nat × Nat) := none
  /-- LNKDIAG operation 3: the next flit is corrupted. -/
  corrupt  : Bool := false
  deriving DecidableEq, Repr

/-! ## Requests (18) -/

/-- A command of a former's queue (18 R384). -/
inductive FOp where
  | step
  | smpl (ent : Entry) (shards shard spec v0 : Nat)
  | beam (ent : Entry) (group : Nat)
  | fork (parent : BitVec 32) (index : Nat) (kvmap penptr : Word)
  deriving DecidableEq, Repr

/-- A former's command with its issuer. -/
structure FCmd where
  core : CoreId
  q    : BitVec 32
  dom  : BitVec 12
  svc  : Bool
  op   : FOp
  deriving DecidableEq, Repr

/-- One slot's part of a shard (18 R375–R377): block reservoirs as (block, candidate, mass), or the local best
entries as (value code, entry); or the code of a fault in the slot. Masses are exact values. -/
structure ShardSlot where
  slot   : Nat
  blocks : List (Nat × Nat × Num)
  best   : List (BitVec 32 × Nat)
  fault  : BitVec 8
  deriving DecidableEq, Repr

/-- A shard received by a merge (18 R377). -/
structure Shard where
  cmd    : FCmd
  v0     : Nat
  count  : Nat
  shards : Nat
  shard  : Nat
  spec   : Nat
  code   : BitVec 8
  slots  : List ShardSlot
  deriving DecidableEq, Repr

/-- A merge in progress (18 R378). -/
structure Merge where
  step     : Word
  shards   : List Shard
  deadline : Nat
  deriving DecidableEq, Repr

/-- A batch former beside its configuration block, which stands in the device registers (18 R364–R382). -/
structure Former where
  queue     : List FCmd := []
  /-- The record in each slot. -/
  slots     : Tbl Nat := []
  /-- The pool pages that each record holds, by index, in the order of its map. -/
  kv        : Tbl (List Nat) := []
  /-- The lengths of the last step, by slot. -/
  lens      : Tbl Nat := []
  /-- The slots that sample in the latest manifest, each with its record. -/
  sample    : List (Nat × Nat) := []
  published : Bool := false
  /-- Holders of each pool page, by its index. -/
  holders   : Tbl Nat := []
  merge     : Option Merge := none
  /-- The step whose merge completed, and the step whose merge ended without its tokens, with the code. -/
  merged    : Option Word := none
  expired   : Option (Word × BitVec 8) := none
  /-- A core chosen to move: the core, from role, to role. -/
  moving    : Option (CoreId × Nat × Nat) := none
  deriving DecidableEq, Repr

/-! ## Roles and services (20) -/

/-- A recast in progress (20 R416). -/
structure Recast where
  serial   : BitVec 32
  image    : List Word
  version  : BitVec 16
  /-- The call, whose reply is owed. -/
  call     : BitVec 1024
  deadline : Nat
  /-- Inputs and outputs to which the curtain is still to be pushed again, or is not settled. -/
  inputs   : List (BitVec 32)
  outputs  : List (BitVec 32)
  forwarded : Bool
  /-- The deadline has passed: every input counts as closed. -/
  forced   : Bool
  killed   : Nat
  /-- Every forwarded curtain is settled: step 6. -/
  installing : Bool
  /-- Frames staged for the new code and data, by virtual page. -/
  frames   : List (Nat × Nat)
  /-- New queues, by image index and key, and the INDEX of each new tensor. -/
  queues   : List (Nat × QKey)
  tensors  : List Nat
  deriving DecidableEq, Repr

/-- A role (20 R407–R416). -/
structure Role where
  version : BitVec 16 := 0
  svc     : Bool := false
  dom     : BitVec 12 := 0
  pool    : BitVec 2 := 0
  /-- The cores in the order of their indices. -/
  cores   : List CoreId := []
  banks   : BitVec 32 := 0
  load    : Nat := 0
  codeVa  : Word := 0
  /-- Bytes of code. -/
  codeLen : Nat := 0
  /-- The accumulator names that its code uses, ascending (12 R270). -/
  accs    : List Nat := []
  /-- The virtual pages of its code and hbm data. -/
  pages   : List Nat := []
  recast  : Option Recast := none
  deriving DecidableEq, Repr

/-- A load (20 R410, R413). -/
structure Load where
  dom    : BitVec 12 := 0
  roles  : List Nat := []
  queues : List QKey := []
  groups : List Nat := []
  image  : List Word := []
  /-- The packages of the load, this one among them. -/
  packages : List (BitVec 12) := []
  /-- The virtual pages of its calderas, as (first, count). -/
  pages  : List (Nat × Nat) := []
  /-- Router slots it set, as router × 256 + slot and the outputs (bit k for output k). -/
  slots  : List (Nat × BitVec 6) := []
  /-- The package whose loader the load comes from, and its serial there (R410). -/
  origin : BitVec 12 := 0
  serial : Nat := 0
  deriving DecidableEq, Repr

/-- A load of several packages that stands in this one and waits for the others (20 R410): the package it comes from and the
serial there, the serial here, the launch queues here with the payload; and where it comes from this package, the call, the
packages that have not answered, and whether one refused. -/
structure Pending where
  origin  : BitVec 12
  serial  : Nat
  load    : Nat
  queues  : List QKey
  payload : BitVec 128
  call    : BitVec 1024
  waiting : List (BitVec 12)
  refused : Bool
  deriving DecidableEq, Repr

/-- An epoch of a load (22 R453). -/
structure Epoch where
  number   : Nat
  /-- Pages of the domain, by virtual page number, each with its listed bytes by offset. -/
  pages    : List (Nat × List Host.Cell)
  /-- Other ranges, by place and length, with their listed bytes by offset: penalty arrays. -/
  ranges   : List (Nat × Nat × List Host.Cell)
  /-- KV pages, by former and pool index. -/
  kv       : List (Nat × Nat × List Host.Cell)
  records  : List (Nat × BitVec 2048)
  formers  : Tbl Former
  /-- The record of R441 of each core, by the place of its role in the load and its index. -/
  ckpt     : List (Nat × Nat × List Byte)
  accepted : Tbl Nat
  deriving DecidableEq, Repr

/-- What the checkpoint store holds of a load (22 R453). -/
structure Saved where
  dom    : BitVec 12 := 0
  image  : List Word := []
  packages : List (BitVec 12) := []
  origin : BitVec 12 := 0
  serial : Nat := 0
  /-- Milliseconds. -/
  period : Nat := 1000
  last   : Nat := 0
  epochs : List Epoch := []
  deriving DecidableEq, Repr

/-- A self-test in progress (22 R446). -/
structure Test where
  id   : Nat
  kind : BitVec 3
  n    : Nat
  /-- For a core test: the core, the frame its instance was stopped into, and the TCM words that are lost. -/
  core : Option CoreId
  frame : Option Nat
  lost : List Nat
  /-- A second error came during the test (R456). -/
  again : Bool
  /-- The row under test, and the COUNT of the log entry that the test is for. -/
  row   : Nat
  count : Nat
  /-- The test is over and the core's retirement follows. -/
  ended : Bool
  deriving DecidableEq, Repr

/-- A code word that holds an error: its array's kind and instance, the word's offset, whether the error is
uncorrectable, and whether it was injected (22 R442, R444). -/
structure Bad where
  kind  : BitVec 3
  n     : Nat
  word  : Nat
  fatal : Bool
  inj   : Bool
  deriving DecidableEq, Repr

/-- Where start-up stands (22 R452). -/
inductive Boot where
  | rom | waitHost | running
  deriving DecidableEq, Repr

/-- Which party acts next (log 3). -/
inductive Turn where
  /-- The next instruction of a core. -/
  | core (c : CoreId)
  /-- The k-th of the pending happenings. -/
  | pending (k : Nat)
  /-- An event from outside, or a choice among the events that can happen. -/
  | event (i : Instr)
  deriving DecidableEq, Repr

/-- The whole machine. -/
structure State where
  /-- The model's own: which party acts next, the pending happenings with the cycle they are due, the core that
  `exec` acts for, the counters of free values, identities and faults taken, and what left the package. -/
  schedule   : List Turn
  happenings : List (Nat × Instr)
  cur        : CoreId
  tick       : Nat
  nextId     : Nat
  faults     : Nat
  egress     : List Out
  /-- Cycles of the 2.0 GHz clock since start-up (05 R116, R117). -/
  now        : Nat
  /-- The package id (01 R18). -/
  pkg        : BitVec 12
  /-- Where start-up stands (22 R452). -/
  boot       : Boot
  /-- Memory, by point address: space × 2^48 + offset, HBM by physical address (01 R14, 08 R170). -/
  mem        : List Host.Cell
  /-- Device registers that hold a value, by offset / 8 (08 R172 and the register maps of 15, 18, 20, 22). -/
  dev        : Tbl Word
  /-- The cores, queue tables, tensor tables, ensembles, engines and groups that differ from their reset (01 R10; 06 R125; 12 R261, R268; 13 R297; 09 R214). -/
  cores      : Tbl Core
  queues     : Tbl Queue
  tensors    : Tbl Tensor
  ensembles  : Tbl Ens
  engines    : Tbl Engine
  groups     : Tbl Group
  /-- Active reduction cells, by doubleword (09 R208). -/
  redCells   : Tbl RedCell
  /-- L2 TLBs by cluster, ingress TLBs by die (08 R174), and the generation of each domain (08 R175). -/
  l2tlb      : Tbl (List TlbE)
  ingressTlb : Tbl (List TlbE)
  gens       : Tbl (BitVec 32)
  /-- Invalidations in progress (08 R183), MOVING pages and redirects (08 R181). -/
  invals     : Tbl Inval
  migrations : List Migr
  redirects  : List Redirect
  /-- STATUS of each HBM controller's migration command register (08 R181): 1 BUSY, 2 accepted, 3 complete. -/
  migStat    : Tbl (BitVec 2)
  /-- Pager requests of each die's ingress that were refused and are kept (08 R177, 15 R325). -/
  ingressPager : Tbl (List (Nat × BitVec 256))
  /-- The cue table (15 R328), the hold queue (R333), the landed-cue cache with the time of each entry (R329), the remote-miss slots (R325). -/
  cues       : Tbl Cue
  hold       : List HoldE
  landed     : List (BitVec 32 × Nat)
  /-- Failure notices with the cycle they came in, for stores that arrive in it (15 R353). -/
  failedCues : List (BitVec 32 × Nat)
  misses     : List Miss
  /-- Copies of other packages' engines, by package, engine and command, whose packets have failed here: later ones of them
  are not applied (13 R304). -/
  brokenCopies : List (BitVec 12 × Nat × Nat)
  /-- Trunks (15 R340), the route table (R346), and the routers' slot tables by router × 256 + slot (R348). -/
  trunks     : Tbl Trunk
  routes     : Tbl (BitVec 6)
  slots      : Tbl (BitVec 64)
  /-- Batch formers (18 R364). -/
  formers    : Tbl Former
  /-- Roles and loads (20 R409–R411), and the last serials of loads and recasts (R413, R415). -/
  roles      : Tbl Role
  loads      : Tbl Load
  nextLoad   : BitVec 16
  nextRecast : BitVec 32
  /-- Loads of several packages that are not launched yet (20 R410). -/
  orders     : List Pending
  /-- Frames that the allocator has given, and the ranges it holds, as (domain, first page, count) (20 R413). -/
  usedFrames : List Nat
  mapped     : List (BitVec 12 × Nat × Nat)
  /-- ACCEPTED and COMPLETED of each host page (20 R422). -/
  accepted   : Tbl Nat
  completed  : Tbl Nat
  /-- fumarole's log, its last sequence number, and the refusals it counts: replies of a disabled page, forwarded curtains (20 R413, R416, R424). -/
  fumarole   : List (BitVec 896)
  fumaroleSeq : Nat
  refusals   : Nat
  /-- Cue-fault items refused, which the network service's log counts (15 R332). -/
  netRefusals : Nat
  /-- Code words that hold an error not yet met (22 R442, R444). -/
  injected   : List Bad
  /-- Retention transitions in progress (22 R445). -/
  transitions : List (BitVec 3 × Nat × Bool)
  /-- Self-tests in progress, spare rows used, understudies used, and what is out of use (22 R446, R447). -/
  tests      : List Test
  spares     : Tbl Nat
  understudies : Tbl Nat
  unusable   : List (Nat × Nat)
  /-- The limit, the throttle step, and the intervals since it was last exceeded (22 R450). -/
  powerLimit : Nat
  throttle   : Nat
  powerClear : Nat
  /-- Firmware slots A and B (22 R452). -/
  flashA     : List Byte
  flashB     : List Byte
  /-- The checkpoint store (22 R451, R454): what it holds of each load, and the resume requests, as (load, epoch). -/
  store      : Tbl Saved
  resumeReq  : List (Nat × Nat)
  /-- The host's memory, by bus address, where the checkpoint store of an H9-P lies (22 R454). -/
  hostMem    : List Host.Cell
  /-- Packages found failed (22 R453). -/
  failedPkgs : List (BitVec 12)
  /-- Word from the services of other packages that the happening it set off has not acted on yet (20 R413, 22 R453). -/
  peerWords  : List SvcMsg
  deriving DecidableEq, Repr

/-- The machine right after reset (log 1): every table empty, which each read takes as its reset value; the boot ROM
about to run (22 R452). -/
def State.reset : State :=
  { schedule := [], happenings := [(0, .startUp)], cur := 0, tick := 0, nextId := 1, faults := 0, egress := [],
    now := 0, pkg := 0, boot := .rom, mem := [], dev := [], cores := [], queues := [], tensors := [],
    ensembles := [], engines := [], groups := [], redCells := [], l2tlb := [], ingressTlb := [], gens := [],
    invals := [], migrations := [], redirects := [], migStat := [], ingressPager := [], cues := [], hold := [], landed := [],
    failedCues := [], misses := [], brokenCopies := [],
    trunks := [], routes := [], slots := [], formers := [], roles := [], loads := [], nextLoad := 0,
    nextRecast := 0, orders := [], usedFrames := [], mapped := [], accepted := [], completed := [], fumarole := [], fumaroleSeq := 0,
    refusals := 0, netRefusals := 0, injected := [], transitions := [], tests := [], spares := [], understudies := [], unusable := [], powerLimit := 4600, throttle := 0, powerClear := 0, flashA := [],
    flashB := [], store := [], resumeReq := [], hostMem := [], failedPkgs := [], peerWords := [] }

end Sys2Proof.Machine
end

