-- ==== Sys2Proof/Machine/Base.lean ====
section
/-!
DEFINITION. Where things are and how they are read and written: cores, registers, roles, queue ids, the clock, the
happenings the machine has pending; and `Op`, a computation that changes the state or stops with a fault, a page
fault or a wait.
-/
namespace Sys2Proof.Machine

/-! ## Fault codes (22 Table 22.1) -/

abbrev cILL : BitVec 8 := 0x01
abbrev cALIGN : BitVec 8 := 0x02
abbrev cACCESS : BitVec 8 := 0x03
abbrev cPAGE : BitVec 8 := 0x04
abbrev cQFULL : BitVec 8 := 0x05
abbrev cQGONE : BitVec 8 := 0x06
abbrev cTAGBAD : BitVec 8 := 0x07
abbrev cLANES : BitVec 8 := 0x08
abbrev cMATQ : BitVec 8 := 0x09
abbrev cSPARSE : BitVec 8 := 0x0A
abbrev cTENSOR : BitVec 8 := 0x0B
abbrev cCUEEXP : BitVec 8 := 0x0C
abbrev cCUEBAD : BitVec 8 := 0x0D
abbrev cLINK : BitVec 8 := 0x0E
abbrev cCOPY : BitVec 8 := 0x0F
abbrev cREQ : BitVec 8 := 0x10
abbrev cECC : BitVec 8 := 0x11
abbrev cBUDGET : BitVec 8 := 0x12
abbrev cFRAMES : BitVec 8 := 0x13
abbrev cTIMEOUT : BitVec 8 := 0x14
abbrev cPRIV : BitVec 8 := 0x15

/-! ## Computations -/

/-- Kinds of translation (08 R173). -/
inductive Kind where
  | read | write | fetch
  deriving DecidableEq, Repr

/-- Reasons of a page fault (08 Table 8.10). -/
inductive PageWhy where
  | absent | badEntry | badRoot | cowStore
  deriving DecidableEq, Repr

/-- A page fault: the faulting address, the domain of the access, and what the walk met (08 R173, R177), with the storage
error of the entry that it found bad, if one is to be logged (22 R442). -/
structure PageFault where
  va    : Word
  dom   : BitVec 12
  why   : PageWhy
  level : Nat
  kind  : Kind
  bad   : Option EccErr := none
  deriving DecidableEq, Repr

/-- How an instruction ends without its effect: with a fault (00 R8), a page fault that parks (08 R173), or a wait at
issue, which changes no state (04 R95). -/
inductive Stop where
  | trap (code : BitVec 8) (detail : Word)
  | page (p : PageFault)
  | wait
  /-- An uncorrectable storage error met at the instruction: ECC, and the error to be logged (22 R442). -/
  | ecc (e : EccErr)
  /-- The access waits for a unit's exit from retention, which it starts (22 R445). -/
  | asleep (kind n : Nat)
  deriving DecidableEq, Repr

/-- Does the access wait? -/
def Stop.waits : Stop → Bool
  | .wait | .asleep _ _ => true
  | _ => false

/-- A computation over the machine. -/
abbrev Op (α : Type) := StateT State (Except Stop) α

/-- `fault(CODE, detail)` of R8. -/
def trap {α : Type} (code : BitVec 8) (detail : Word) : Op α := throw (.trap code detail)

/-- A wait at issue (04 R95). -/
def waitHere {α : Type} : Op α := throw .wait

/-- Fail with `code` unless the condition holds. -/
def check (b : Bool) (code : BitVec 8) (detail : Word) : Op Unit := if b then pure () else trap code detail

/-! ## Small numbers -/

/-- The low bits of a natural number as a word. -/
abbrev word (n : Nat) : Word := BitVec.ofNat 64 n

/-- A doubleword of a longer vector: bits [64 i + 63 : 64 i]. -/
def dwordAt {w : Nat} (x : BitVec w) (i : Nat) : Word := x.extractLsb' (64 * i) 64

/-- The field x[hi:lo] as a number. -/
def fieldOf {w : Nat} (x : BitVec w) (hi lo : Nat) : Nat := (x.extractLsb' lo (hi + 1 - lo)).toNat

/-- `n` saturating at `top`. -/
def satTo (top n : Nat) : Nat := if n < top then n else top

/-- Bytes of a vector of bits, lowest first. -/
def bytesOf {w : Nat} (x : BitVec w) (n : Nat) : List Byte := (List.range n).map (fun i => x.extractLsb' (8 * i) 8)

/-- A number from bytes, lowest first (00 R3). -/
def natOfBytes : List Byte → Nat
  | [] => 0
  | b :: t => b.toNat + 256 * natOfBytes t

/-! ## Places of cores (05 R117) -/

abbrev dieOf (c : CoreId) : Nat := c / 4096
abbrev clusterOf (c : CoreId) : ClusterId := c / 256
abbrev ensOf (c : CoreId) : EnsId := c / 8

/-- The number of a core among the arrays of kind 0 (22 Table 22.4), or of the understudy in its place (22 R447). -/
def coreArrayOf (c : CoreId) (x : Core) : Nat := c / 4096 * 2 ^ 13 + c / 256 % 16 * 2 ^ 9 + (if x.replaced then 256 + x.understudy else c % 256)

/-- COORD of a core (Table 5.10). -/
def coordOf (pkg : BitVec 12) (c : CoreId) : Word :=
  pkg.setWidth 64 <<< 52 ||| word (c / 4096 % 2) <<< 47 ||| word (c / 256 % 16) <<< 43 ||| word (c % 256) <<< 35

/-- The core that the fields [47:35] of a word name (20 R425). -/
def coreOfWord (w : Word) : CoreId := fieldOf w 47 47 * 4096 + fieldOf w 46 43 * 256 + fieldOf w 42 35

/-! ## Reading and writing the tables -/

def State.core (s : State) (c : CoreId) : Core := s.cores.get {} c
def State.setCore (s : State) (c : CoreId) (x : Core) : State := { s with cores := s.cores.set c x }
def State.updCore (s : State) (c : CoreId) (f : Core → Core) : State := s.setCore c (f (s.core c))
/-- A queue; a core's fault queue holds 8 items of two granules (22 R437, R438). -/
def State.queue (s : State) (q : QKey) : Queue :=
  s.queues.get (if q < 16384 then {} else { st := .active, cap := 8, g := 2, consumers := [q - 16384] }) q
def State.setQueue (s : State) (q : QKey) (x : Queue) : State := { s with queues := s.queues.set q x }
def State.ens (s : State) (e : EnsId) : Ens := s.ensembles.get {} e
def State.setEns (s : State) (e : EnsId) (x : Ens) : State := { s with ensembles := s.ensembles.set e x }
def State.updEns (s : State) (e : EnsId) (f : Ens → Ens) : State := s.setEns e (f (s.ens e))
def State.engine (s : State) (n : Nat) : Engine := s.engines.get {} n
def State.setEngine (s : State) (n : Nat) (x : Engine) : State := { s with engines := s.engines.set n x }
def State.group (s : State) (g : Nat) : Group := s.groups.get {} g
def State.setGroup (s : State) (g : Nat) (x : Group) : State := { s with groups := s.groups.set g x }
def State.role (s : State) (r : Nat) : Role := s.roles.get {} r
def State.setRole (s : State) (r : Nat) (x : Role) : State := { s with roles := s.roles.set r x }
def State.former (s : State) (b : Nat) : Former := s.formers.get {} b
def State.setFormer (s : State) (b : Nat) (x : Former) : State := { s with formers := s.formers.set b x }
def State.trunk (s : State) (t : Nat) : Trunk := s.trunks.get {} t
def State.setTrunk (s : State) (t : Nat) (x : Trunk) : State := { s with trunks := s.trunks.set t x }
def State.cue (s : State) (n : Nat) : Cue := s.cues.get {} n
def State.setCue (s : State) (n : Nat) (x : Cue) : State := { s with cues := s.cues.set n x }
def State.tensor (s : State) (k : Nat) : Tensor := s.tensors.get {} k
def State.setTensor (s : State) (k : Nat) (x : Tensor) : State := { s with tensors := s.tensors.set k x }

/-- The role of a core; none: an empty role at role level. -/
def State.coreRole (s : State) (c : CoreId) : Role := match (s.core c).role with
  | some r => s.role r
  | none => {}

/-- A core's number among the arrays of kind 0. -/
def State.coreArray (s : State) (c : CoreId) : Nat := coreArrayOf c (s.core c)

/-- The domain of a core's role. -/
def State.coreDom (s : State) (c : CoreId) : BitVec 12 := (s.coreRole c).dom

/-- Does the core's role run at service level (01 R19)? -/
def State.coreSvc (s : State) (c : CoreId) : Bool := (s.coreRole c).svc

/-- Nanoseconds since start-up (00 R4, 05 R116). -/
def State.time (s : State) : Nat := s.now / 2

/-- A new number of the model. -/
def State.fresh (s : State) : Nat × State := (s.nextId, { s with nextId := s.nextId + 1 })

/-- Post a happening, due `delay` cycles from now at the earliest. -/
def State.post (s : State) (delay : Nat) (i : Instr) : State :=
  { s with happenings := s.happenings ++ [(s.now + delay, i)] }

/-- A happening of this kind is pending already. -/
def State.posted (s : State) (i : Instr) : Bool := s.happenings.any (fun p => p.2 == i)

/-- Post a happening unless it is pending. -/
def State.postOnce (s : State) (delay : Nat) (i : Instr) : State := if s.posted i then s else s.post delay i

/-- A package field: 0xFFF means the issuing package (01 R14). -/
def State.realPkg (s : State) (p : BitVec 12) : BitVec 12 := if p = 0xFFF then s.pkg else p

/-! ## The running instance's registers (02 R22, 00 R7) -/

/-- `s[r]`: register 0 reads zero. -/
def Core.reg (x : Core) (r : Reg) : Word := if r = 0 then 0 else x.regs[r.toNat]'r.isLt

/-- Write `s[r]`; a write to register 0 is discarded. -/
def Core.setReg (x : Core) (r : Reg) (v : Word) : Core :=
  if r = 0 then x else { x with regs := x.regs.set r.toNat v r.isLt }

/-- The core that acts. -/
def State.me (s : State) : Core := s.core s.cur

def getMe : Op Core := fun s => .ok (s.me, s)
def modMe (f : Core → Core) : Op Unit := fun s => .ok ((), s.updCore s.cur f)
def getCur : Op CoreId := fun s => .ok (s.cur, s)
def getState : Op State := fun s => .ok (s, s)
def setState (t : State) : Op Unit := fun _ => .ok ((), t)
def modState (f : State → State) : Op Unit := fun s => .ok ((), f s)

def rd (r : Reg) : Op Word := fun s => .ok (s.me.reg r, s)
def wr (r : Reg) (v : Word) : Op Unit := modMe (·.setReg r v)

/-- The register after `r` (02 R22, 09 R209): indices do not pass 31 where this is used. -/
abbrev nextReg (r : Reg) (k : Nat) : Reg := BitVec.ofNat 5 (r.toNat + k)

/-- A detail that the spec does not state (log 40). -/
def State.openDetail (s : State) : Word := Config.freeWord s.tick

/-- Privilege check: PRIV at role level (02 R42). -/
def needService : Op Unit := do
  let s ← getState
  check (s.coreSvc s.cur) cPRIV s.openDetail

/-! ## Queue ids (06 R123) -/

/-- The package of a queue id, 0xFFF read as this package. -/
def State.qidPkg (s : State) (id : BitVec 32) : BitVec 12 := s.realPkg (id.extractLsb' 20 12)

/-- Reserved bits [14:9] of a queue id. -/
def qidReserved (id : BitVec 32) : Bool := id.extractLsb' 9 6 != 0

/-- The key of an id of this package. -/
def qkeyOf (id : BitVec 32) : QKey := fieldOf id 19 15 * 512 + fieldOf id 8 0

/-- The cluster of a queue key. -/
abbrev qcluster (q : QKey) : ClusterId := q / 512

/-- The id of a queue of this package. -/
def State.qidOf (s : State) (q : QKey) : BitVec 32 :=
  s.pkg.setWidth 32 <<< 20 ||| BitVec.ofNat 32 (q / 512) <<< 15 ||| BitVec.ofNat 32 (q % 512)

/-- The key of a core's fault queue (22 R438). -/
abbrev faultKey (c : CoreId) : QKey := 16384 + c

/-- Who a push of the device's own is for, where it is no core: the network service's cue-fault item (15 R332), and a
service's reply (20 R412). -/
abbrev byNetwork : Nat := 2 ^ 20
abbrev byService : Nat := 2 ^ 20 + 1

/-- The key of service s's request queue (20 R412). -/
abbrev serviceKey (n : Nat) : QKey := 500 + n

/-- Which queue a handle of a core reaches. -/
def Core.handle (x : Core) (h : Reg) : HandleMap := x.handles.get .unmapped h.toNat

/-- The id a handle maps (06 R152): 0 for the fault handle (22 R436) and for a handle that maps nothing. -/
def Core.handleId (x : Core) (h : Reg) : BitVec 32 := match x.handle h with
  | .queue id => id
  | _ => 0

end Sys2Proof.Machine
end

