-- ==== Sys2Proof/Machine/Devices.lean ====
section
/-!
DEFINITION. The device registers of space 0x5 (08 R160, R172; 15 R328, R332; 18 R363, R364; 20 R424; 22 R443–R445,
R448, R454 and the key list): which addresses are assigned, what they reset to, which bits a service-level write
sets, and what a write does beside setting them.
-/
namespace Sys2Proof.Machine

/-! ## Arrays (22 Table 22.4) -/

/-- Instance numbers of the arrays of a kind. -/
def arrayCount (kind : Nat) : Nat :=
  match kind with
  | 0 => 16384 | 1 => 32 | 2 => 256 | 3 => 32 | 4 => 1024 | 5 => 1 | 6 => 2 | 7 => 16 | _ => 0

/-- Register numbers (offset / 8) of the error log of array (kind, n), entry i (R443). -/
abbrev logReg (kind n i : Nat) : Nat := (0x100000000 + kind * 2 ^ 24 + 128 * n + 32 * i) / 8
/-- The injection register (R444). -/
abbrev injReg (kind n : Nat) : Nat := (0x200000000 + kind * 2 ^ 24 + 8 * n) / 8
/-- The retention register (R445). -/
abbrev retReg (kind n : Nat) : Nat := (0x300000000 + kind * 2 ^ 24 + 8 * n) / 8
/-- A domain's root (08 R172). -/
abbrev rootReg (dom : BitVec 12) : Nat := (0x100000 + 8 * dom.toNat) / 8
/-- A domain's cue lifetime (15 R328). -/
abbrev lifeReg (dom : BitVec 12) : Nat := (0x180000 + 8 * dom.toNat) / 8
/-- A domain's cue-fault queue (15 R332). -/
abbrev cueFaultReg (dom : BitVec 12) : Nat := (0x1C0000 + 8 * dom.toNat) / 8
/-- A domain's STOPBASE (18 R363). -/
abbrev stopReg (dom : BitVec 12) : Nat := (0x1E0000 + 8 * dom.toNat) / 8
/-- Doubleword k of a former's block (18 R364). -/
abbrev formerReg (bf k : Nat) : Nat := (0x1F0000 + 64 * bf + 8 * k) / 8
/-- Doubleword k of a host page's registration (20 R424). -/
abbrev pageReg (p k : Nat) : Nat := (0x200000 + 32 * p + 8 * k) / 8
/-- Doubleword k of monitor m, numbered die × 1024 + cluster × 64 + monitor (22 R448). -/
abbrev monReg (m k : Nat) : Nat := (0x400000 + 0x20000 * (m / 1024) + 128 * (m % 1024) + 8 * k) / 8
/-- Doubleword k of the checkpoint store's registers (22 R454). -/
abbrev storeReg (k : Nat) : Nat := (0x510000 + 8 * k) / 8

/-- Where the count of an array's errors since start-up is kept: past the last register number (22 Table 22.6). -/
abbrev countKey (kind n : Nat) : Nat := 2 ^ 45 + kind * 2 ^ 24 + n

/-- A register map that an address belongs to, with the place in it. -/
inductive DevReg where
  | root (dom : Nat)
  | life (dom : Nat)
  | cueFault (dom : Nat)
  | stopBase (dom : Nat)
  | former (bf k : Nat)
  | page (p k : Nat)
  | monitor (m k : Nat)
  | key (j k : Nat)
  | store (k : Nat)
  | log (kind n i k : Nat)
  | inject (kind n : Nat)
  | retain (kind n : Nat)
  | unassigned
  deriving DecidableEq, Repr

/-- Which register stands at register number r = offset / 8. -/
def devRegOf (r : Nat) : DevReg :=
  let o := 8 * r
  if 0x100000 ≤ o ∧ o < 0x108000 then .root ((o - 0x100000) / 8)
  else if 0x180000 ≤ o ∧ o < 0x188000 then .life ((o - 0x180000) / 8)
  else if 0x1C0000 ≤ o ∧ o < 0x1C8000 then .cueFault ((o - 0x1C0000) / 8)
  else if 0x1E0000 ≤ o ∧ o < 0x1E8000 then .stopBase ((o - 0x1E0000) / 8)
  else if 0x1F0000 ≤ o ∧ o < 0x1F0100 then .former ((o - 0x1F0000) / 64) (o % 64 / 8)
  else if 0x200000 ≤ o ∧ o < 0x208000 then .page ((o - 0x200000) / 32) (o % 32 / 8)
  else if 0x400000 ≤ o ∧ o < 0x440000 then .monitor ((o - 0x400000) / 128) (o % 128 / 8)
  else if 0x500000 ≤ o ∧ o < 0x500400 then .key ((o - 0x500000) / 64) (o % 64 / 8)
  else if 0x510000 ≤ o ∧ o < 0x510018 then .store ((o - 0x510000) / 8)
  else
    let kind := o / 2 ^ 24 % 256
    let low := o % 2 ^ 24
    let top := o / 2 ^ 32
    if top = 1 ∧ low / 128 < arrayCount kind then .log kind (low / 128) (low % 128 / 32) (low % 32 / 8)
    else if top = 2 ∧ low / 8 < arrayCount kind then .inject kind (low / 8)
    else if top = 3 ∧ low / 8 < arrayCount kind ∧ (kind = 1 ∨ kind = 2 ∨ kind = 4) then .retain kind (low / 8)
    else .unassigned

/-- Reset values: zero but for these (15 R328; 18 Table 18.3; 22 Table 22.8). -/
def DevReg.reset : DevReg → Word
  | .life _ => 100
  | .former _ 5 => 0x0000FFFFFFFFFFFF
  | .monitor _ 2 => 0xFFFFFFFF
  | _ => 0

/-- The bits that a service-level write sets (00 R5). -/
def DevReg.writable : DevReg → Word
  | .root _ => 0x000000FFFFFFE001
  | .life _ => 0xFFFFFFFFFFFFFFFF
  | .cueFault _ => 0xFFFFFFFFFFFFFFFF
  | .stopBase _ => 0xFFFFFFFFFFFFFFFF
  | .former _ k =>
    match k with
    | 0 | 1 => 0xFFFFFFFFFFFFFFFF
    | 2 => 0xFFFFFFFF00000000
    | 3 => 0xFFFFFFFF8000FFFF
    | 4 => 0xFFFFFFFFFFFF0000
    | 5 => 0xFFFFFFFFFFFFFFFF
    | 7 => 0x8000000000000FFF
    | _ => 0
  | .page _ k => if k = 0 then 0x8000000000000FFF else 0xFFFFFFFFFFFFFFFF
  | .monitor _ k => if k = 0 then 0x80FFFFFFFFFFFFFF else 0
  | .store k => if k = 2 then 1 else 0xFFFFFFFFFFFFFFFF
  | .inject _ _ => 0x807FFFFFFFFFFFFF
  | .retain _ _ => 1
  | .key _ _ | .log _ _ _ _ | .unassigned => 0

/-- The key list's entry j, doubleword k (22): the hash in bytes 0–47, CLASS and REVOKED in byte 48. -/
def keyWord (j k : Nat) : Word :=
  let j4 := BitVec.ofNat 4 j
  if k < 6 then dwordAt (Config.keyHash j4) k
  else if k = 6 then word ((if Config.keyClass j4 then 1 else 0) + (if Config.keyRevoked j4 then 2 else 0))
  else 0

/-- The value of device register r (offset / 8). An address that no map assigns reads as a free value (log 10). -/
def State.devGet (s : State) (r : Nat) : Word :=
  match devRegOf r with
  | .key j k => keyWord j k
  | .unassigned => Config.unassignedDevice (BitVec.ofNat 48 (8 * r)) s.tick
  | d => s.dev.get d.reset r

/-- Set a device register as the device itself does; the reset value is not listed. -/
def State.devPut (s : State) (r : Nat) (v : Word) : State :=
  if v = (devRegOf r).reset then { s with dev := s.dev.erase r } else { s with dev := s.dev.set r v }

/-- CLR of a monitor (22 R448). -/
def State.clearMonitor (s : State) (m : Nat) : State :=
  (List.range 11).foldl (fun s k => if k = 0 then s else s.devPut (monReg m k) (DevReg.monitor m k).reset) s

/-- Cycles between the samples of a source that is sampled at its times (22 Table 22.9): a queue's occupancy, and replays per
µs. -/
def sampleCycles (src : Nat) : Option Nat := match src with
  | 2 => some 256
  | 8 => some 2000
  | _ => none

/-- The control word of a monitor (22 R448): CLR acts and is not kept; a source that is sampled at its times has its next
time set. -/
def State.setMonitor (s : State) (m : Nat) (ctl : Word) : State :=
  let s := s.devPut (monReg m 0) (ctl &&& (DevReg.monitor m 0).writable)
  let s := if ctl.getLsbD 62 then s.clearMonitor m else s
  let s := { s with happenings := s.happenings.filter (fun h => h.2 != .monitorSample m 0) }
  match sampleCycles (fieldOf ctl 55 48) with
  | some n => if ctl.getLsbD 63 then State.post s n (.monitorSample m 0) else s
  | none => s

/-- Cycles of a retention transition (22 R445). -/
def retentionCycles (kind : Nat) : Nat := match kind with
  | 4 => 8192
  | 2 => 16384
  | _ => 65536

/-- Enter or leave retention (22 R445): bit 0 changes, and a transition begins when it does. -/
def State.setRetention (s : State) (kind n : Nat) (on : Bool) : State :=
  if (s.devGet (retReg kind n)).getLsbD 0 = on then s
  else
    let k3 := BitVec.ofNat 3 kind
    let s := s.devPut (retReg kind n) (if on then 1 else 0)
    let s := { s with transitions := s.transitions.filter (fun (t : BitVec 3 × Nat × Bool) => !(t.1 == k3 && t.2.1 == n)) ++ [(k3, n, on)] }
    s.postOnce (retentionCycles kind) (.retentionTransitionEnd k3 n)

/-- The unit is in retention, or in transition: an access to it starts an exit and waits (22 R445). -/
def State.asleep (s : State) (kind n : Nat) : Bool :=
  (kind == 1 || kind == 2 || kind == 4) &&
    ((s.devGet (retReg kind n)).getLsbD 0 || s.transitions.any (fun (t : BitVec 3 × Nat × Bool) => t.1 == BitVec.ofNat 3 kind && t.2.1 == n))

/-- Set the registers from r on, and read n of them. -/
def State.devPuts (s : State) (r : Nat) : List Word → State
  | [] => s
  | v :: t => (s.devPut r v).devPuts (r + 1) t
def State.devGets (s : State) (r n : Nat) : List Word := (List.range n).map (fun k => s.devGet (r + k))

/-- Clear entry i of an error log (22 R443). -/
def State.clearLog (s : State) (kind n i : Nat) : State := s.devPuts (logReg kind n i) [0, 0, 0, 0]

/-- An entry of an error log (22 Table 22.6). -/
def logEntry (kindCode : Nat) (inj : Bool) (addr : Word) (synd : BitVec 16) (dom : BitVec 12) (count time : Nat) : List Word :=
  [word kindCode <<< 62 ||| (if inj then 1#64 <<< 61 else 0), synd.setWidth 64 <<< 48 ||| dom.setWidth 64 <<< 36 ||| word count,
   word time, addr]

/-- Log an error of array (kind, n) (22 R443): the older entries move down. -/
def State.logError (s : State) (kind n : Nat) (kindCode : Nat) (inj : Bool) (addr : Word) (synd : BitVec 16)
    (dom : BitVec 12) : State :=
  let count := satTo (2 ^ 32 - 1) ((s.dev.get 0 (countKey kind n)).toNat + 1)
  ({ s with dev := s.dev.set (countKey kind n) (word count) } : State).devPuts (logReg kind n 0)
    (logEntry kindCode inj addr synd dom count s.time ++ s.devGets (logReg kind n 0) 12)

/-- A retention transition is over; on exit, whether the retention code corrected an error is open (22 R445). -/
def State.retentionEnd (s : State) (kind n : Nat) : State :=
  let mine := fun (t : BitVec 3 × Nat × Bool) => t.1 == BitVec.ofNat 3 kind && t.2.1 == n
  match s.transitions.find? mine with
  | none => s
  | some t =>
    let s := { s with transitions := s.transitions.filter (fun x => !mine x) }
    if t.2.2 ∨ !Config.freeChoice s.tick then s
    else s.logError kind n 2 false (Config.freeWord s.tick) ((Config.freeWord (s.tick + 1)).setWidth 16) 0

/-- The device's own units (walkers, services, formers) reach a sleeping unit: its exit, which they wait for, is over at
once (log 41). -/
def State.wake (s : State) (kind n : Nat) : State := if s.asleep kind n then (s.setRetention kind n false).retentionEnd kind n else s

/-! ## Injected errors of stored items (22 R444) -/

/-- What an injection register's word does to the code it strikes: nothing when it flips one bit twice; else whether the
error is uncorrectable. -/
def injectionOf (v : Word) : Option Bool :=
  if v.getLsbD 47 && fieldOf v 54 48 == fieldOf v 46 40 then none else some (v.getLsbD 47)

/-- An item is stored in the code words [lo, lo + len) of an array that is no byte-addressed memory (kinds 3–6): an armed
register of one of them fires and disarms, and the error is logged, as a read of the item finds it (log 70). True: the
item cannot be corrected. -/
def State.storeItem (s : State) (kind n lo len : Nat) (dom : BitVec 12) : Bool × State :=
  let r := injReg kind n
  let v := s.dev.get 0 r
  if v.getLsbD 63 && decide (lo ≤ fieldOf v 39 0) && decide (fieldOf v 39 0 < lo + len) then
    let s := s.devPut r (v &&& 0x7FFFFFFFFFFFFFFF)
    match injectionOf v with
    | none => (false, s)
    | some fatal => (fatal, s.logError kind n (if fatal then 1 else 0) true (word (fieldOf v 39 0)) (s.openDetail.setWidth 16) dom)
  else (false, s)

/-! ## Monitors (22 R448, R449) -/

/-- The bin of a sample (R449). -/
def binOf (v : Nat) : Nat := if v ≤ 1 then 0 else ((List.range 15).reverse.find? (fun j => 2 ^ (j + 1) ≤ v)).map (· + 1) |>.getD 0

/-- A saturating 32-bit half of a doubleword goes up by one. -/
def bumpHalf (w : Word) (hi : Bool) : Word :=
  let x := if hi then fieldOf w 63 32 else fieldOf w 31 0
  let y := word (satTo (2 ^ 32 - 1) (x + 1))
  if hi then (w &&& 0xFFFFFFFF) ||| (y <<< 32) else (w &&& 0xFFFFFFFF00000000) ||| y

/-- A monitor takes a sample. -/
def State.sample (s : State) (m v : Nat) : State :=
  let x := satTo (2 ^ 32 - 1) v
  let mm := s.devGet (monReg m 2)
  let lo := if x < fieldOf mm 31 0 then x else fieldOf mm 31 0
  let hi := if x > fieldOf mm 63 32 then x else fieldOf mm 63 32
  let b := binOf v
  let s := s.devPut (monReg m 1) (s.devGet (monReg m 1) + 1)
  let s := s.devPut (monReg m 2) (word (hi * 2 ^ 32 + lo))
  s.devPut (monReg m (3 + b / 2)) (bumpHalf (s.devGet (monReg m (3 + b / 2))) (b % 2 == 1))

/-- The enabled monitors of a source and its ARG, of one cluster where the source is a cluster's. -/
def State.monitors (s : State) (src arg : Nat) (k : Option ClusterId) : List Nat := s.dev.filterMap (fun r => match devRegOf r.1 with
  | .monitor m 0 =>
    if r.2.getLsbD 63 && fieldOf r.2 55 48 == src && fieldOf r.2 47 0 == arg && k.all (· == m / 64) then some m else none
  | _ => none)

/-- Every enabled monitor of the source takes the sample (R448). -/
def State.samples (s : State) (src arg : Nat) (k : Option ClusterId) (v : Nat) : State :=
  (s.monitors src arg k).foldl (fun s m => s.sample m v) s

/-- A service-level write of the bits of `mask` to device register r (00 R5, R6). A write to an unassigned address
does nothing (log 10). A former that is disabled has published nothing (18 R388). A checkpoint store that is enabled is
looked at for its resume request (22 R452 step 5, R454). -/
def State.devWrite (s : State) (r : Nat) (mask v : Word) : State :=
  let d := devRegOf r
  let old := s.devGet r
  let new := (old &&& ~~~(mask &&& d.writable)) ||| (v &&& mask &&& d.writable)
  match d with
  | .monitor m 0 => s.setMonitor m (new ||| (v &&& mask &&& 0x4000000000000000))
  | .retain kind n => s.setRetention kind n (new.getLsbD 0)
  | .log kind n i 0 => if mask = 0xFFFFFFFFFFFFFFFF ∧ v = 0 then s.clearLog kind n i else s
  | .former bf 7 =>
    let s := s.devPut r new
    if new.getLsbD 63 then s else s.setFormer bf { s.former bf with published := false }
  | .store 2 =>
    let s := s.devPut r new
    if new.getLsbD 0 then s.postOnce 0 .resume else s
  | .key _ _ | .unassigned | .log _ _ _ _ => s
  | _ => s.devPut r new

end Sys2Proof.Machine
end

