-- ==== Sys2Proof/Machine/Numbers.lean ====
section
/-!
DEFINITION. Number formats, exact values, rounding, overflow and conversions (03 R52–R69, R76, R460). A value is an
exact `Num`; a code is a natural number; flags are the seven bits of Table 3.6.
-/
namespace Sys2Proof

/-! ## Flags and modes (R58, R59) -/

/-- The sticky flags of Table 3.6, as its bits [6:0]. -/
abbrev Flags := BitVec 7

abbrev flagINV : Flags := 0x01
abbrev flagDIVZ : Flags := 0x02
abbrev flagOVF : Flags := 0x04
abbrev flagUNF : Flags := 0x08
abbrev flagINX : Flags := 0x10
abbrev flagSAT : Flags := 0x20
abbrev flagRANGE : Flags := 0x40

/-- The numeric modes of Table 3.5. -/
structure Modes where
  rm      : BitVec 2
  sat     : Bool
  flushN  : Bool
  flush32 : Bool
  deriving DecidableEq, Repr

/-- The modes that an NMODE word selects (R58). -/
def modesOf (w : Word) : Modes :=
  { rm := w.extractLsb' 0 2, sat := w.getLsbD 2, flushN := w.getLsbD 3, flush32 := w.getLsbD 4 }

/-- The modes with RNE in place of RM (R62, R76). -/
def Modes.rne (m : Modes) : Modes := { m with rm := 0 }

/-- RNE, no saturation, no flush: what a pass, an accumulator and a REDF cell use (R72, R207). -/
def plainModes : Modes := { rm := 0, sat := false, flushN := false, flush32 := false }

/-! ## Formats (R52) -/

/-- The format codes of Table 3.1. -/
inductive Fmt where
  | fp32 | bf16 | fp16 | t8 | t6 | k4 | int8 | int4 | int32 | int64
  deriving DecidableEq, Repr

/-- The format of a code (R40, R52). -/
def fmtOf (c : Nat) : Option Fmt :=
  match c with
  | 0 => some .fp32 | 1 => some .bf16 | 2 => some .fp16 | 3 => some .t8 | 4 => some .t6
  | 5 => some .k4 | 6 => some .int8 | 7 => some .int4 | 8 => some .int32 | 9 => some .int64
  | _ => none

/-- Bits of an element. -/
def Fmt.bits : Fmt → Nat
  | .fp32 => 32 | .bf16 => 16 | .fp16 => 16 | .t8 => 8 | .t6 => 6 | .k4 => 4
  | .int8 => 8 | .int4 => 4 | .int32 => 32 | .int64 => 64

def Fmt.isInt : Fmt → Bool
  | .int8 | .int4 | .int32 | .int64 => true
  | _ => false

/-- Fraction bits. -/
def Fmt.frac : Fmt → Nat
  | .fp32 => 23 | .bf16 => 7 | .fp16 => 10 | .t8 => 3 | .t6 => 2 | .k4 => 1 | _ => 0

/-- Exponent bias. -/
def Fmt.bias : Fmt → Nat
  | .fp32 => 127 | .bf16 => 127 | .fp16 => 15 | .t8 => 7 | .t6 => 3 | .k4 => 2 | _ => 0

/-- The formats with IEEE infinities and NaNs. -/
def Fmt.ieee : Fmt → Bool
  | .fp32 | .bf16 | .fp16 => true
  | _ => false

/-- The code of the largest finite magnitude, positive. -/
def Fmt.maxCode : Fmt → Nat
  | .fp32 => 0x7F7FFFFF | .bf16 => 0x7F7F | .fp16 => 0x7BFF | .t8 => 0x7F | .t6 => 0x1F | .k4 => 0x7
  | .int8 => 127 | .int4 => 7 | .int32 => 0x7FFFFFFF | .int64 => 0x7FFFFFFFFFFFFFFF

/-- The code of +∞ of a format that has one. -/
def Fmt.infCode : Fmt → Nat
  | .fp32 => 0x7F800000 | .bf16 => 0x7F80 | .fp16 => 0x7C00 | _ => 0

/-- The canonical NaN (R64). -/
def Fmt.nanCode : Fmt → Nat
  | .fp32 => 0x7FC00000 | .bf16 => 0x7FC0 | .fp16 => 0x7E00 | .t8 => 0x80 | _ => 0

/-- A code with its sign bit set when `neg`. -/
def Fmt.signed (f : Fmt) (neg : Bool) (c : Nat) : Nat := if neg then c + 2 ^ (f.bits - 1) else c

/-! ## Exact values -/

/-- Zero of a sign. -/
def Num.zero (neg : Bool) : Num := .fin neg 0 0

/-- The exact value of an integer, scaled by 2^e. -/
def Num.ofInt (i : Int) (e : Int) : Num := .fin (i < 0) i.natAbs e

def Num.isZero : Num → Bool
  | .fin _ m _ => m == 0
  | _ => false

def Num.isNan : Num → Bool
  | .nan _ => true
  | _ => false

def Num.isInf : Num → Bool
  | .inf _ => true
  | _ => false

def Num.isNeg : Num → Bool
  | .nan n => n
  | .inf n => n
  | .fin n _ _ => n

/-- The value times 2^k. -/
def Num.scale (x : Num) (k : Int) : Num :=
  match x with
  | .fin n m e => .fin n m (e + k)
  | x => x

def Num.negate : Num → Num
  | .nan n => .nan n
  | .inf n => .inf !n
  | .fin n m e => .fin (!n) m e

def Num.absNum : Num → Num
  | .nan n => .nan n
  | .inf _ => .inf false
  | .fin _ m e => .fin false m e

/-- floor(log2 |x|) of a nonzero finite value (R71). -/
def Num.exp (m : Nat) (e : Int) : Int := (Nat.log2 m : Int) + e

/-- The decoded value of a floating code (R52, R53), without any flush. -/
def decodeFloat (f : Fmt) (c : Nat) : Num :=
  let F := f.frac
  let c := c % 2 ^ f.bits
  let neg := c / 2 ^ (f.bits - 1) = 1
  let mag := c % 2 ^ (f.bits - 1)
  let ex := mag / 2 ^ F
  let fr := mag % 2 ^ F
  if f = .t8 ∧ c = 0x80 then .nan true
  else if f.ieee ∧ mag = f.infCode then .inf neg
  else if f.ieee ∧ mag > f.infCode then .nan neg
  else if ex = 0 then .fin neg fr (1 - (f.bias : Int) - F)
  else .fin neg (2 ^ F + fr) ((ex : Int) - f.bias - F)

/-- The signed value of the low `w` bits. -/
def signedOf (w : Nat) (c : Nat) : Int :=
  let c := c % 2 ^ w
  if c < 2 ^ (w - 1) then (c : Int) else (c : Int) - 2 ^ w

/-- The exact value of a code of any format. -/
def decodeExact (f : Fmt) (c : Nat) : Num :=
  if f.isInt then Num.ofInt (signedOf f.bits c) 0 else decodeFloat f c

/-- A floating code is subnormal: exponent field 0, fraction nonzero. -/
def subnormalCode (f : Fmt) (c : Nat) : Bool :=
  !f.isInt && (c % 2 ^ (f.bits - 1)) / 2 ^ f.frac == 0 && (c % 2 ^ f.frac) != 0

/-- Decoding under the flush modes (R67, R69): the value and the flags raised. -/
def decodeNum (md : Modes) (f : Fmt) (c : Nat) : Num × Flags :=
  let v := decodeExact f c
  let flush := if f = .fp32 then md.flush32 else md.flushN
  if flush ∧ subnormalCode f c then
    (Num.zero (v.isNeg && f != .t8), flagUNF)
  else (v, 0)

/-! ## Rounding (R62, R63, R66) -/

/-- `n / d` rounded to an integer under `rm`, for a value of sign `neg`. -/
def roundInt (rm : BitVec 2) (neg : Bool) (n d : Nat) : Nat :=
  let q := n / d
  let r := n % d
  let up := match rm.toNat with
    | 0 => decide (2 * r > d) || (2 * r == d && q % 2 == 1)
    | 1 => false
    | 2 => neg && r != 0
    | _ => !neg && r != 0
  if up then q + 1 else q

/-- `n / d × 2^k` as a quotient of natural numbers. -/
def shiftQ (n d : Nat) (k : Int) : Nat × Nat :=
  if k ≥ 0 then (n * 2 ^ k.toNat, d) else (n, d * 2 ^ (-k).toNat)

/-- floor(log2 (n / d)) for n > 0. -/
def log2Q (n d : Nat) : Int :=
  let k : Int := (Nat.log2 n : Int) - Nat.log2 d
  let (a, b) := shiftQ n d (-k)
  if a < b then k - 1 else k

/-- Does RNE, or RDN or RUP toward the value's sign, round away from zero at an overflow (Table 3.7)? -/
def awayAtOverflow (rm : BitVec 2) (neg : Bool) : Bool :=
  match rm.toNat with
  | 0 => true
  | 1 => false
  | 2 => neg
  | _ => !neg

/-- The result of an overflow (R63 Table 3.7). -/
def overflowCode (f : Fmt) (md : Modes) (neg : Bool) : Nat × Flags :=
  let big := f.signed neg f.maxCode
  if md.sat then (big, flagOVF ||| flagINX ||| flagSAT)
  else if awayAtOverflow md.rm neg then
    if f.ieee then (f.signed neg f.infCode, flagOVF ||| flagINX)
    else if f = .t8 then (0x80, flagOVF ||| flagINX)
    else (big, flagOVF ||| flagINX ||| flagSAT)
  else (big, flagOVF ||| flagINX)

/-- The code of a signed zero; T8 has only +0. -/
def zeroCode (f : Fmt) (neg : Bool) : Nat := f.signed (neg && f != .t8 && !f.isInt) 0

/-- Encoding of the finite magnitude n / d × 2^e with a sign into a floating format (R62, R63, R66, R69). -/
def encodeMag (f : Fmt) (md : Modes) (neg : Bool) (n d : Nat) (e : Int) : Nat × Flags :=
  if n = 0 then (zeroCode f neg, 0) else
  let F := f.frac
  let lo : Int := 1 - (f.bias : Int)
  let x := log2Q n d + e
  let u := (if x < lo then lo else x) - F
  let (a, b) := shiftQ n d (e - u)
  let r := roundInt md.rm neg a b
  let inexact := a % b != 0
  -- the magnitude is r × 2^u; a carry to the next binade keeps this form
  let code : Nat := if x < lo then r else (r - 2 ^ F) + ((x + f.bias).toNat) * 2 ^ F
  if code > f.maxCode then overflowCode f md neg
  else
    let fl : Flags := (if inexact then flagINX else 0) ||| (if inexact ∧ code < 2 ^ F then flagUNF else 0)
    let flush := if f = .fp32 then md.flush32 else md.flushN
    if flush ∧ code < 2 ^ F ∧ code ≠ 0 then (zeroCode f neg, fl ||| flagUNF)
    else if code = 0 then (zeroCode f neg, fl)
    else (f.signed neg code, fl)

/-- Encoding of an exact value into a floating format (R64–R66). -/
def encodeNum (f : Fmt) (md : Modes) (v : Num) : Nat × Flags :=
  match v with
  | .nan neg =>
    if f = .t6 ∨ f = .k4 then (f.signed neg f.maxCode, flagINV) else (f.nanCode, 0)
  | .inf neg =>
    if f.ieee then (f.signed neg f.infCode, 0)
    else
      let fl : Flags := flagOVF ||| (if md.sat then flagSAT else 0)
      if f = .t8 ∧ !md.sat ∧ awayAtOverflow md.rm neg then (0x80, fl) else (f.signed neg f.maxCode, fl)
  | .fin neg m e => encodeMag f md neg m 1 e

/-- Two's complement code of an integer at width `w`. -/
def intCode (w : Nat) (i : Int) : Nat := (i % 2 ^ w).toNat

/-- Conversion to a signed integer of `w` bits (R68). -/
def encodeInt (w : Nat) (md : Modes) (v : Num) : Nat × Flags :=
  let hi : Int := 2 ^ (w - 1) - 1
  let lo : Int := -(2 ^ (w - 1))
  match v with
  | .nan _ => (0, flagINV)
  | .inf neg => (intCode w (if neg then lo else hi), flagINV)
  | .fin neg m e =>
    let (a, b) := shiftQ m 1 e
    let r := roundInt md.rm neg a b
    let i : Int := if neg then -(r : Int) else r
    if i > hi then (intCode w hi, flagINV ||| flagSAT)
    else if i < lo then (intCode w lo, flagINV ||| flagSAT)
    else (intCode w i, if a % b != 0 then flagINX else 0)

/-- Encoding of an exact value into any format. -/
def encodeFmt (f : Fmt) (md : Modes) (v : Num) : Nat × Flags :=
  if f.isInt then encodeInt f.bits md v else encodeNum f md v

/-! ## Exact arithmetic -/

/-- The exact sum of two finite values as an integer times a power of two. -/
def sumFin (m1 : Int) (e1 : Int) (m2 : Int) (e2 : Int) : Int × Int :=
  let e := if e1 ≤ e2 then e1 else e2
  (m1 * 2 ^ (e1 - e).toNat + m2 * 2 ^ (e2 - e).toNat, e)

/-- The signed mantissa of a finite value. -/
def signMant (neg : Bool) (m : Nat) : Int := if neg then -(m : Int) else m

/-- The sum of two values before rounding (R62, R64, R460): IEEE's sign of an exact zero under `rm`. -/
def addNum (rm : BitVec 2) (x y : Num) : Num × Flags :=
  match x, y with
  | .nan _, _ | _, .nan _ => (.nan false, 0)
  | .inf a, .inf b => if a = b then (.inf a, 0) else (.nan false, flagINV)
  | .inf a, _ => (.inf a, 0)
  | _, .inf b => (.inf b, 0)
  | .fin n1 m1 e1, .fin n2 m2 e2 =>
    if m1 = 0 ∧ m2 = 0 then
      (Num.zero (if n1 = n2 then n1 else rm = 2), 0)
    else
      let (t, e) := sumFin (signMant n1 m1) e1 (signMant n2 m2) e2
      if t = 0 then (Num.zero (rm = 2), 0) else (Num.ofInt t e, 0)

/-- The exact product (R64). -/
def mulNum (x y : Num) : Num × Flags :=
  match x, y with
  | .nan _, _ | _, .nan _ => (.nan false, 0)
  | .inf a, y => if y.isZero then (.nan false, flagINV) else (.inf (a != y.isNeg), 0)
  | x, .inf b => if x.isZero then (.nan false, flagINV) else (.inf (x.isNeg != b), 0)
  | .fin n1 m1 e1, .fin n2 m2 e2 => (.fin (n1 != n2) (m1 * m2) (e1 + e2), 0)

/-- One more term of an exact sum: NaN, then infinities, then the finite part (R64, R76). -/
structure SumAcc where
  nan  : Bool := false
  pos  : Bool := false
  neg  : Bool := false
  m    : Int := 0
  e    : Int := 0
  /-- Every term so far is −0, and there is one. -/
  allNegZero : Bool := true
  any  : Bool := false
  deriving DecidableEq, Repr

def SumAcc.add (a : SumAcc) (x : Num) : SumAcc :=
  match x with
  | .nan _ => { a with nan := true, any := true, allNegZero := false }
  | .inf n => { a with pos := a.pos || !n, neg := a.neg || n, any := true, allNegZero := false }
  | .fin n m e =>
    let z := m == 0
    let (t, e') := if z then (a.m, a.e) else if a.m = 0 then (signMant n m, e) else sumFin a.m a.e (signMant n m) e
    { a with m := t, e := e', any := true, allNegZero := a.allNegZero && z && n }

/-- The value of an exact sum, a zero taking its sign by the second point of R460. -/
def SumAcc.value (a : SumAcc) : Num × Flags :=
  if a.nan then (.nan false, 0)
  else if a.pos ∧ a.neg then (.nan false, flagINV)
  else if a.pos then (.inf false, 0)
  else if a.neg then (.inf true, 0)
  else if a.m = 0 then (Num.zero (a.any && a.allNegZero), 0)
  else (Num.ofInt a.m a.e, 0)

/-- The exact sum of terms (R76, R460). -/
def exactSum (xs : List Num) : Num × Flags := (xs.foldl SumAcc.add {}).value

/-- A sum of two values rounded once to FP32 under RNE: an accumulator add or a REDF application (R72, R207). -/
def addFp32Rne (x y : Nat) : Nat × Flags :=
  let (v, f1) := exactSum [decodeFloat .fp32 x, decodeFloat .fp32 y]
  let (c, f2) := encodeNum .fp32 plainModes v
  (c, f1 ||| f2)

/-- A quotient rounded once (R62, R64). -/
def divNum (f : Fmt) (md : Modes) (x y : Num) : Nat × Flags :=
  match x, y with
  | .nan _, _ | _, .nan _ => (f.nanCode, 0)
  | .inf _, .inf _ => (f.nanCode, flagINV)
  | .inf a, y => encodeNum f md (.inf (a != y.isNeg))
  | x, .inf b => encodeNum f md (Num.zero (x.isNeg != b))
  | .fin n1 m1 e1, .fin n2 m2 e2 =>
    if m2 = 0 then
      if m1 = 0 then (f.nanCode, flagINV)
      else (f.signed (n1 != n2) f.infCode, flagDIVZ)
    else encodeMag f md (n1 != n2) m1 m2 (e1 - e2)

/-- The integer square root, by `k` bits from the top. -/
def isqrtGo (n : Nat) : Nat → Nat → Nat
  | 0, r => r
  | k + 1, r =>
    let c := r + 2 ^ k
    isqrtGo n k (if c * c ≤ n then c else r)

/-- floor(√n). -/
def isqrt (n : Nat) : Nat := isqrtGo n (Nat.log2 n / 2 + 1) 0

/-- A square root rounded once (R62, R64). The root is taken to 40 bits, and a remainder is told by one bit more. -/
def sqrtNum (f : Fmt) (md : Modes) (x : Num) : Nat × Flags :=
  match x with
  | .nan _ => (f.nanCode, 0)
  | .inf neg => if neg then (f.nanCode, flagINV) else encodeNum f md (.inf false)
  | .fin neg m e =>
    if m = 0 then (zeroCode f neg, 0)
    else if neg then (f.nanCode, flagINV)
    else
      let (m, e) := if e % 2 = 0 then (m, e) else (m * 2, e - 1)
      let m := m * 2 ^ 80
      let r := isqrt m
      let r := if r * r = m then 2 * r else 2 * r + 1
      encodeMag f md false r 1 (e / 2 - 41)

/-! ## Comparison -/

/-- Total order of non-NaN values, −0 equal to +0: is x < y? -/
def ltNum (x y : Num) : Bool :=
  match x, y with
  | .nan _, _ | _, .nan _ => false
  | .inf a, .inf b => a && !b
  | .inf a, _ => a
  | _, .inf b => !b
  | .fin n1 m1 e1, .fin n2 m2 e2 =>
    let e := if e1 ≤ e2 then e1 else e2
    signMant n1 m1 * 2 ^ (e1 - e).toNat < signMant n2 m2 * 2 ^ (e2 - e).toNat

/-- Equality of non-NaN values, −0 equal to +0. -/
def eqNum (x y : Num) : Bool := !x.isNan && !y.isNan && !ltNum x y && !ltNum y x

/-- Round a value to an integer multiple of 2^u under RNE, as a signed integer (R71, R77). -/
def roundToGrid (x : Num) (u : Int) : Int :=
  match x with
  | .fin neg m e =>
    let (a, b) := shiftQ m 1 (e - u)
    signMant neg (roundInt 0 neg a b)
  | _ => 0

end Sys2Proof
end

