-- ==== Sys2Proof/Machine/Memory.lean ====
section
/-!
DEFINITION. Storage: the byte map and its canonical form, the points of TCM, scratchpad, chip SRAM and HBM (09 R189),
reads and writes at a point, what a write does to armaments (R211), to reduction cells (R208) and under an armed
injection (22 R444).
-/
namespace Sys2Proof.Machine

/-! ## The byte map -/

/-- Bytes by place, places rising; an unlisted place reads as zero (log 6). -/
abbrev Memory := List Host.Cell

def Memory.get : Memory → Nat → Byte
  | [], _ => 0
  | (b, v) :: t, a => if b = a then v else Memory.get t a

/-- Write one byte; writing zero removes the entry. -/
def Memory.set : Memory → Nat → Byte → Memory
  | [], a, v => if v = 0 then [] else [(a, v)]
  | (b, w) :: t, a, v =>
    if b = a then (if v = 0 then t else (a, v) :: t)
    else if a < b then (if v = 0 then (b, w) :: t else (a, v) :: (b, w) :: t)
    else (b, w) :: Memory.set t a v

/-- The canonical form: places strictly rising, no listed byte zero. -/
abbrev Memory.wf (m : Memory) : Prop := m.Pairwise (fun p q => p.1 < q.1) ∧ ∀ p ∈ m, p.2 ≠ 0

/-- Write bytes at consecutive places. -/
def Memory.setBytes (m : Memory) (a : Nat) : List Byte → Memory
  | [] => m
  | b :: t => Memory.setBytes (Memory.set m a b) (a + 1) t

/-- Read `n` bytes. -/
def Memory.getBytes (m : Memory) (a n : Nat) : List Byte := (List.range n).map (fun i => Memory.get m (a + i))

/-! ## Places (01 R14, 09 R189) -/

abbrev spaceSize : Nat := 2 ^ 48

/-- A place in TCM of core `c`. -/
def tcmPlace (c : CoreId) (off : Nat) : Nat :=
  3 * spaceSize + c / 4096 % 2 * 2 ^ 47 + c / 256 % 16 * 2 ^ 43 + c % 256 * 2 ^ 35 + off
/-- A place in the scratchpad of a cluster. -/
def spadPlace (k : ClusterId) (off : Nat) : Nat := 2 * spaceSize + k / 16 % 2 * 2 ^ 47 + k % 16 * 2 ^ 43 + off
/-- A place in the chip SRAM of a die. -/
def sramPlace (die off : Nat) : Nat := spaceSize + die % 2 * 2 ^ 47 + off
/-- A device register's place. -/
def devPlace (off : Nat) : Nat := 5 * spaceSize + off

abbrev placeSpace (p : Nat) : Nat := p / spaceSize
abbrev placeDie (p : Nat) : Nat := p / 2 ^ 47 % 2
/-- The core that owns a TCM place. -/
def placeCore (p : Nat) : CoreId := p / 2 ^ 47 % 2 * 4096 + p / 2 ^ 43 % 16 * 256 + p / 2 ^ 35 % 256
/-- The cluster that owns a scratchpad place. -/
def placeCluster (p : Nat) : ClusterId := p / 2 ^ 47 % 2 * 16 + p / 2 ^ 43 % 16

/-- The array, instance and code word of a place (22 Table 22.4, R444). Chip SRAM banks interleave at 64 bytes (08
Table 8.1); the request record table, and its mirror, are arrays of their own (01 R16). -/
def codeWordOf (p : Nat) : Option (Nat × Nat × Nat) :=
  match placeSpace p with
  | 3 => let c := placeCore p
    some (0, c / 4096 * 2 ^ 13 + c / 256 % 16 * 2 ^ 9 + c % 256, p % 2 ^ 14 / 8)
  | 2 => some (1, placeCluster p, p % 2 ^ 22 / 4)
  | 1 => let off := p % 2 ^ 27
    if off ≥ 0x07C00000 then some (6, placeDie p, (off - 0x07C00000) / 8)
    else some (2, placeDie p * 128 + off / 64 % 128, (off / 8192 * 64 + off % 64) / 8)
  | 0 => some (7, p / 2 ^ 36, p % 2 ^ 36 / 32)
  | _ => none

/-- The unit of a place that can be put in retention (22 R445): a scratchpad, or a bank of chip SRAM. -/
def unitOf (p : Nat) : Option (Nat × Nat) :=
  match placeSpace p with
  | 2 => some (1, placeCluster p)
  | 1 => some (2, placeDie p * 128 + p % 2 ^ 27 / 64 % 128)
  | _ => none

/-- The bank that owns a reduction cell (09 R208): cluster and scratchpad bank, or die and chip SRAM bank. -/
def cellBank (p : Nat) : Nat × Nat :=
  if placeSpace p = 2 then (placeCluster p, p % 2 ^ 22 / 4 % 512) else (1000 + placeDie p, p % 2 ^ 27 / 64 % 128)

/-- Is the place in the frame area of its core's TCM (04 R90)? -/
def State.inFrameArea (s : State) (p : Nat) : Bool :=
  placeSpace p == 3 && p % 2 ^ 35 + 256 * ((s.core (placeCore p)).frames + 2) ≥ 0x4000

/-- The code words that `n` bytes at a place touch; an understudy's TCM is an array of its own (22 R447). -/
def State.codeWords (s : State) (p n : Nat) : List (Nat × Nat × Nat) :=
  ((List.range n).filterMap (fun i => (codeWordOf (p + i)).map (fun w =>
    if w.1 = 0 then (0, s.coreArray (placeCore p), w.2.2) else w))).eraseDups

/-- Is it the error of this code word? -/
def Bad.at_ (e : Bad) (w : Nat × Nat × Nat) : Bool := e.kind.toNat == w.1 && e.n == w.2.1 && e.word == w.2.2

/-- A row that a self-test of memory has in hand holds one of the code words: accesses to it wait (22 R446). -/
def State.underTest (s : State) (p n : Nat) : Bool := s.tests.any (fun t => t.core.isNone &&
  (s.codeWords p n).any (fun w => t.kind.toNat == w.1 && t.n == w.2.1 && t.row == Config.rowOf w.1 w.2.1 w.2.2))

/-- The unit of the place that is in retention or in transition (22 R445). -/
def State.sleeping (s : State) (p n : Nat) : Option (Nat × Nat) :=
  (List.range n).findSome? (fun i => (unitOf (p + i)).bind (fun u => if s.asleep u.1 u.2 then some u else none))

/-- Memory at a place that an access must wait for: its row is under test, or its unit asleep. -/
def State.blocked (s : State) (p n : Nat) : Bool := s.underTest p n || (s.sleeping p n).isSome

/-- The exit of the unit at a place starts, when it sleeps. -/
def State.rouse (s : State) (p n : Nat) : State := match s.sleeping p n with
  | some u => s.setRetention u.1 u.2 false
  | none => s

/-! ## Reading -/

/-- `n` bytes at a place as they stand, lowest first. -/
def State.bytesAt (s : State) (p n : Nat) : List Byte := Memory.getBytes s.mem p n

/-- `n` bytes at a place as a number. -/
def State.peek (s : State) (p n : Nat) : Nat := natOfBytes (s.bytesAt p n)

/-- An access by the device's own units finds a sleeping unit awake (22 R445, log 41). -/
def State.wakeAt (s : State) (p : Nat) : State :=
  match unitOf p with
  | some u => s.wake u.1 u.2
  | none => s

/-- The first uncorrectable error of the words that an access reads, if any (22 R442). The mirror serves a word of the request
record table that is bad in the primary alone. -/
def State.badWord (s : State) (p n : Nat) : Option Bad :=
  (s.codeWords p n).findSome? (fun w => s.injected.find? (fun e => e.at_ w && e.fatal &&
    (w.1 != 6 || w.2.1 != 0 || s.injected.any (fun m => m.at_ (6, 1, w.2.2) && m.fatal))))

/-- A code word holds no error any more. -/
def State.forget (s : State) (w : Nat × Nat × Nat) : State := { s with injected := s.injected.filter (fun e => !e.at_ w) }

/-- Correct, write back and log the error of a word, if it holds one. -/
def State.mendWord (s : State) (w : Nat × Nat × Nat) (addr : Word) (dom : BitVec 12) : State :=
  match s.injected.find? (fun e => e.at_ w) with
  | some e => (s.logError w.1 w.2.1 (if e.fatal then 1 else 0) e.inj addr (s.openDetail.setWidth 16) dom).forget w
  | none => s

/-- Correct, write back and log the errors of the words read, and mend a record's primary from its mirror (22 R442). -/
def State.scrub (s : State) (p n : Nat) (addr : Word) (dom : BitVec 12) : State :=
  (s.codeWords p n).foldl (fun s w => s.mendWord w addr dom) s

/-- The page that is MOVING and holds an HBM place (08 R181). -/
def State.movingAt (s : State) (p : Nat) : Option Migr :=
  if placeSpace p = 0 then
    s.migrations.find? (fun m => let size := if m.cmd.large then 2 ^ 25 else 2 ^ 16
      m.old.toNat ≤ p && p < m.old.toNat + size)
  else none

/-- Does a page of a size, at a frame, hold an HBM place? -/
def inFrame (frame : BitVec 40) (large : Bool) (p : Nat) : Bool :=
  placeSpace p == 0 && frame.toNat ≤ p && p < frame.toNat + (if large then 2 ^ 25 else 2 ^ 16)

/-- An HBM place translated with a frame that has moved is forwarded, as often as the page has moved (08 R181). -/
def State.redirect (s : State) (p : Nat) : Nat :=
  s.redirects.foldl (fun p r => if inFrame r.old r.large p then r.new.toNat + (p - r.old.toNat) else p) p

/-- The global address of a place, or of a virtual address, of this package. -/
def State.globalOf (s : State) (p : Nat) : Word := s.pkg.setWidth 64 <<< 52 ||| word p

/-- The error that an access to a bad word meets (22 R442, R444). -/
def State.eccAt (s : State) (b : Bad) (addr : Word) (dom : BitVec 12) (site : EccSite) : EccErr :=
  { kind := b.kind, n := b.n, fatal := true, addr := addr, synd := s.openDetail.setWidth 16, domain := dom, inj := b.inj, site := site }

/-- An uncorrectable error is logged where it is met (22 R443). -/
def State.logMet (s : State) (e : EccErr) : State := s.logError e.kind.toNat e.n 1 e.inj e.addr e.synd e.domain

/-- The bad table entry of a page fault, if any, is logged (22 R442, R443). -/
def State.logBad (s : State) (p : PageFault) : State := match p.bad with
  | some e => s.logMet e
  | none => s

/-- Read `n` bytes at a place for an instruction: waits while the page is MOVING, its row is under test, or its unit
leaves retention; an uncorrectable error is ECC at the instruction; a device register reads by doublewords. `addr` is the
address as issued. -/
def readPlace (p n : Nat) (addr : Word) (dom : BitVec 12) : Op Nat := do
  let s ← getState
  if placeSpace p = 5 then
    let off := p % spaceSize
    pure (natOfBytes ((List.range n).map (fun i => (s.devGet ((off + i) / 8)).extractLsb' (8 * ((off + i) % 8)) 8)))
  else
    let p := s.redirect p
    if (s.movingAt p).isSome || s.underTest p n then waitHere
    else match s.sleeping p n with
      | some u => throw (.asleep u.1 u.2)
      | none => match s.badWord p n with
        | some b => throw (.ecc (s.eccAt b addr dom (.access s.cur)))
        | none =>
          modState (fun s => s.scrub p n addr dom)
          pure (s.peek p n)

/-! ## Writing -/

/-- An armament meets a write on the doublewords [p, p + n): the lowest standing watch among them is hit, and the
others are withdrawn (09 R211). -/
def Arm.meet (a : Arm) (p n order : Nat) : Arm :=
  if a.hit.isSome ∨ a.fired.isSome then a
  else match (List.range a.watches.length).find? (fun j => match a.watches[j]? with
      | some w => w.stands && w.dw < p + n && p < w.dw + 8
      | none => false) with
    | some j => { a with hit := some (j, order), watches := a.watches.map (fun w => { w with stands := false }) }
    | none => a

/-- Does an armament of the core wait for a write on [p, p + n)? -/
def Core.watching (x : Core) (p n : Nat) : Bool :=
  x.arms.any (fun a => a.2.hit.isNone && a.2.fired.isNone &&
    a.2.watches.any (fun w => w.stands && w.dw < p + n && p < w.dw + 8))

/-- A write met the doublewords of [p, p + n): the armaments that watch them are hit, and their firing is posted. -/
def State.meetWatches (s : State) (p n : Nat) : State :=
  if s.cores.any (fun c => c.2.watching p n) then
    let (k, s) := s.fresh
    let s := { s with cores := s.cores.map (fun c => (c.1, { c.2 with arms := c.2.arms.map (fun a => (a.1, a.2.meet p n k)) })) }
    ((List.range ((p % 8 + n + 7) / 8)).map (fun i => p - p % 8 + 8 * i)).foldl (fun s d => s.postOnce 0 (.armamentFire d)) s
  else s

/-- An invalidation or a migration covers the pages that `f` says: the armaments that watch them are hit (09 R211). -/
def State.meetPages (s : State) (f : BitVec 12 × BitVec 48 × Bool → Bool) : State :=
  let meets := fun (w : Watch) => w.stands && (match w.page with
    | some x => f x
    | none => false)
  let waits := fun (a : Arm) => a.hit.isNone && a.fired.isNone && a.watches.any meets
  if s.cores.any (fun c => c.2.arms.any (fun a => waits a.2)) then
    let (k, s) := s.fresh
    let dws := s.cores.flatMap (fun c => c.2.arms.flatMap (fun a => if waits a.2 then (a.2.watches.filter meets).map (·.dw) else []))
    let hit := fun (a : Arm) => if waits a then
        { a with hit := some (a.watches.findIdx meets, k), watches := a.watches.map (fun w => { w with stands := false }) }
      else a
    let s := { s with cores := s.cores.map (fun c => (c.1, { c.2 with arms := c.2.arms.map (fun a => (a.1, hit a.2)) })) }
    dws.foldl (fun s d => s.postOnce 0 (.armamentFire d)) s
  else s

/-- An injection strikes a code word: it holds an error. -/
def State.strike (s : State) (w : Nat × Nat × Nat) (fatal : Bool) : State :=
  { s with injected := s.injected ++ [{ kind := BitVec.ofNat 3 w.1, n := w.2.1, word := w.2.2, fatal := fatal, inj := true }] }

/-- A code word is written: it replaces an error it held; under an armed injection register its bits are flipped, and the
register disarms (22 R444). -/
def State.writeWord (s : State) (w : Nat × Nat × Nat) : State :=
  let v := s.dev.get 0 (injReg w.1 w.2.1)
  if v.getLsbD 63 ∧ fieldOf v 39 0 = w.2.2 then
    match injectionOf v with
    | some fatal => ((s.forget w).devPut (injReg w.1 w.2.1) (v &&& 0x7FFFFFFFFFFFFFFF)).strike w fatal
    | none => (s.forget w).devPut (injReg w.1 w.2.1) (v &&& 0x7FFFFFFFFFFFFFFF)
  else s.forget w

/-- The code words of a write, when an error stands or an injection register is armed (22 R444). -/
def State.injectAt (s : State) (p n : Nat) : State :=
  if s.injected.isEmpty && !s.dev.any (fun r => injReg 0 0 ≤ r.1 && r.1 < retReg 0 0 && r.2.getLsbD 63) then s else
  (s.codeWords p n).foldl State.writeWord s

/-- A write applied at its point. The frame area is read only (22 Table 22.3): a write to it is ignored. -/
def State.writeAt (s : State) (p : Nat) (bs : List Byte) : State :=
  if s.inFrameArea p then s
  else
    let s := (s.wakeAt p).injectAt p bs.length
    let s := { s with mem := Memory.setBytes s.mem p bs }
    s.meetWatches p bs.length

/-! ## Reduction cells (09 R207, R208) -/

/-- A write that must read its word finds it bad: the word stays as it is, and the error is logged and reported to the
issuing core (22 Table 22.5). -/
def State.spoiled (s : State) (b : Bad) (c : CoreId) (addr : Word) (dom : BitVec 12) : State :=
  s.post 0 (.eccError (s.eccAt b addr dom (.met c)))

/-- One application: SUM under RNE, NEXT one more; one write of the doubleword (R207). A cell in a bad word stays as it
is (22 Table 22.5). -/
def State.redApply (s : State) (x : Contribution) : State := match s.badWord x.addr 8 with
  | some b => s.spoiled b x.core x.issued 0
  | none =>
    let s := s.scrub x.addr 8 x.issued 0
    let cell : Word := word (s.peek x.addr 8)
    let sum := (addFp32Rne (fieldOf cell 31 0) x.value.toNat).1
    let next : BitVec 16 := cell.extractLsb' 32 16 + 1
    let cell' : Word := cell.extractLsb' 48 16 ++ next ++ BitVec.ofNat 32 sum
    s.writeAt x.addr (bytesOf cell' 8)

/-- Apply the held contributions that match NEXT, in order; each application restarts the time (R208). -/
def State.redDrain : Nat → State → Nat → State
  | 0, s, _ => s
  | fuel + 1, s, p =>
    let r := s.redCells.get {} p
    let next := fieldOf (word (s.peek p 8)) 47 32
    match r.held.find? (fun x => x.index.toNat == next) with
    | none => s
    | some x =>
      let s := s.redApply x
      let held := dropFirst (· == x) r.held
      let s := { s with redCells := if held.isEmpty then s.redCells.erase p
                                    else s.redCells.set p { held := held, since := s.now } }
      State.redDrain fuel s p

/-- An ordinary store restarts the time of the cells it touches, and their held contributions are matched against the
NEXT it wrote (R208). -/
def State.redStore (s : State) (p n : Nat) : State :=
  (s.redCells.filter (fun r => r.1 < p + n && p < r.1 + 8)).foldl (fun s r =>
    let s := { s with redCells := s.redCells.upd {} r.1 (fun c => { c with since := s.now }) }
    s.redDrain (r.2.held.length + 1) r.1) s

/-- The place in the mirror of the request record table, on die 1, of one in the primary on die 0 (01 R16). -/
def mirrorOf (p : Nat) : Option Nat :=
  if placeSpace p = 1 ∧ placeDie p = 0 ∧ p % 2 ^ 27 ≥ 0x07C00000 then some (p + 2 ^ 47) else none

/-- An ordinary write applied at its point: by a store, an atomic, an engine, `QPOP.M` or a remote store. One into the request
record table's primary goes to the mirror too (01 R16). -/
def State.storeAt (s : State) (p : Nat) (bs : List Byte) : State :=
  let t := (s.writeAt p bs).redStore p bs.length
  match mirrorOf p with
  | some q => t.writeAt q bs
  | none => t

/-- Store `n` bytes of a number. -/
def State.storeNat (s : State) (p n v : Nat) : State := s.storeAt p (bytesOf (BitVec.ofNat (8 * n) v) n)

/-! ## A store arriving at its point (08 R167, R169, R181) -/

/-- Does the entry write whole bytes only? -/
def StEntry.plain (e : StEntry) : Bool := e.bits == (BitVec.allOnes 128) >>> (128 - 8 * e.n)

/-- The runs of bytes in which a mask has a bit, as (first, length). -/
def byteRuns (bits : BitVec 128) (n : Nat) : List (Nat × Nat) :=
  ((List.range n).filter (fun i => bits.extractLsb' (8 * i) 8 != 0)).foldr (fun i acc => match acc with
    | (j, k) :: t => if j = i + 1 then (i, k + 1) :: t else (i, 1) :: (j, k) :: t
    | [] => [(i, 1)]) []

/-- An access arrives at a page that is MOVING: it is queued (R181). -/
def State.queueAt (s : State) (p : Nat) (q : Queued) : State :=
  { s with migrations := s.migrations.map (fun m => if inFrame m.old m.cmd.large p then { m with queued := m.queued ++ [q] } else m) }

/-- May the store be applied at its point now: its unit is awake, and no row of it under test? -/
def State.canArrive (s : State) (e : StEntry) : Bool := placeSpace e.pa == 5 || !s.blocked (s.redirect e.pa) e.n

/-- A store arrives at its point, at the home where its page stands. A page that is MOVING queues it (R181); a device register
takes it by doublewords; a masked write changes the bits it names in one step (R169), unless it finds its word bad (22 Table
22.5). -/
def State.arriveHome (s : State) (e : StEntry) : State :=
  if placeSpace e.pa = 5 then
    let off := e.pa % spaceSize
    ((List.range ((off % 8 + e.n + 7) / 8)).foldl (fun s i =>
      s.devWrite (off / 8 + i) (dwordAt (e.bits <<< (8 * (off % 8))) i) (dwordAt (e.value <<< (8 * (off % 8))) i)) s)
  else
    let p := e.pa
    if (s.movingAt p).isSome then s.queueAt p (.store e)
    else if e.plain then s.storeAt p (bytesOf e.value e.n)
    else match s.badWord p e.n with
      | some b => s.spoiled b e.src (s.globalOf e.key) e.dom
      | none =>
        let s := s.scrub p e.n (s.globalOf e.key) e.dom
        let old := BitVec.ofNat 128 (s.peek p e.n)
        let new := bytesOf ((old &&& ~~~e.bits) ||| (e.value &&& e.bits)) e.n
        (byteRuns e.bits e.n).foldl (fun s r => s.storeAt (p + r.1) ((new.drop r.1).take r.2)) s

/-- A store arrives at its point, by the place that its address was translated to. -/
def State.arrive (s : State) (e : StEntry) : State := s.arriveHome { e with pa := s.redirect e.pa }

end Sys2Proof.Machine
end

