-- ==== Sys2Proof/Machine/Items.lean ====
section
/-!
DEFINITION. The queue hardware (06 R126–R142): acceptance, distribution, spill and refill, pops, destruction; and what
a service queue does with the calls it accepts (20 R412).
-/
namespace Sys2Proof.Machine

/-! ## Tags (02 R39) -/

abbrev tagCURTAIN : BitVec 4 := 8
abbrev tagPOISON : BitVec 4 := 9

/-- The low 128 × g bits of a payload: longer data is cut, shorter data is zero above (06 R150). -/
def cutTo (g : Nat) (d : BitVec 1024) : BitVec 1024 := d &&& (BitVec.allOnes 1024 >>> (1024 - 128 * g))

/-- A DATA item of one granule. -/
def dataItem (d : BitVec 128) : Item := { tag := 0, data := d.setWidth 1024 }

/-! ## Which copies stand in a queue -/

/-- Slots of capacity held on-chip (06 R126, R136). -/
def Queue.onchip (x : Queue) : Nat := (x.items.map (·.slot)).eraseDups.length

/-- The key of the queue that a handle of core `c` reaches, for an instance of row `row` (06 R124, 22 R436): the
fault queue for the fault row only. -/
def State.handleKey (s : State) (c : CoreId) (faultRow : Bool) (h : Reg) : Option QKey :=
  match (s.core c).handle h with
  | .queue id => if s.qidPkg id = s.pkg then some (qkeyOf id) else none
  | .faultQueue => if faultRow then some (faultKey c) else none
  | .unmapped => none

/-- The queues that a row binds, with their trigger counts (04 R79, R81). -/
def State.rowQueues (s : State) (c : CoreId) (r : Row) : List (QKey × Nat) :=
  let get := fun (h : BitVec 4) => s.handleKey c r.fault (h.setWidth 5)
  (if r.q0v then (match get r.qh0 with | some k => [(k, r.trig0.toNat)] | none => []) else []) ++
  (if r.q1v then (match get r.qh1 with | some k => [(k, r.trig1.toNat)] | none => []) else [])

/-- Does a VALID row of core `c` bind the queue (06 R131)? -/
def State.binds (s : State) (c : CoreId) (q : QKey) : Bool :=
  (s.core c).rows.any (fun r => r.2.valid && (s.rowQueues c r.2).any (fun p => p.1 == q))

/-- The copies of a queue reserved for core `c` and owned by no instance, oldest first. -/
def Queue.unowned (x : Queue) (c : CoreId) : List Copy := x.items.filter (fun i => i.core == c && i.owner.isNone)

/-- The copies that an instance owns, oldest first. -/
def Queue.ownedBy (x : Queue) (inst : Nat) : List Copy := x.items.filter (fun i => i.owner == some inst)

/-- A curtain of the recast that this core's role is under (20 R415). -/
def State.curtainOf (s : State) (c : CoreId) (i : Item) : Bool :=
  match (s.core c).role with
  | some r => match (s.role r).recast with
    | some _ => i.tag == tagCURTAIN && fieldOf i.data 63 48 == r
    | none => false
  | none => false

/-- The unowned items of a core that an instance may pop from a queue that no row binds (06 R131): those in front of a
curtain of a recast that the core belongs to, until its install (20 R416, R417). -/
def State.loose (s : State) (c : CoreId) (q : QKey) : List Copy :=
  if s.binds c q || (s.core c).closed.contains q then []
  else ((s.queue q).unowned c).takeWhile (fun i => !s.curtainOf c i.item)

/-- The next available item of an instance on a queue (06 R131). -/
def State.nextItem (s : State) (c : CoreId) (inst : Nat) (q : QKey) : Option Copy :=
  match (s.queue q).ownedBy inst with
  | i :: _ => some i
  | [] => (s.loose c q).head?

/-! ## Life cycle (06 R139) -/

/-- A FAILED queue becomes FREE when no item, copy or binding row remains. -/
def State.freeIfDone (s : State) (q : QKey) : State :=
  let x := s.queue q
  if x.st = .failed ∧ x.items = [] ∧ x.spill = [] ∧ x.refill = none ∧ !s.cores.any (fun c => s.binds c.1 q) then
    { s with queues := s.queues.erase q }
  else s

/-- The queues that the rows of a core bind. -/
def State.boundBy (s : State) (c : CoreId) : List QKey := (s.core c).rows.flatMap (fun r => (s.rowQueues c r.2).map (·.1))

/-- The queues that lost a binding row: those of them that are done are FREE (06 R139). -/
def State.freeAll (s : State) (qs : List QKey) : State := qs.foldl State.freeIfDone s

/-- Start a refill when R136 lets it. -/
def State.refillIfDue (s : State) (q : QKey) : State :=
  let x := s.queue q
  if x.st = .active ∧ x.spilling ∧ x.onchip ≤ x.lowmark ∧ x.spill ≠ [] ∧ x.refill.isNone then
    s.postOnce 0 (.refillStart q)
  else s

/-- Remove one copy: a pop or a drop (06 R146, R148). -/
def State.takeCopy (s : State) (q : QKey) (i : Copy) : State :=
  let x := s.queue q
  let s := s.setQueue q { x with items := dropFirst (fun y => y.slot == i.slot && y.core == i.core) x.items }
  (s.refillIfDue q).freeIfDone q

/-! ## Distribution (06 R126, R129) -/

/-- The consumer after the one last served, in ascending role index with wrap-around. -/
def State.nextConsumer (s : State) (x : Queue) : Option CoreId :=
  match x.served with
  | some k => match x.consumers.find? (fun c => (s.core c).index > k) with
    | some c => some c
    | none => x.consumers.head?
  | none => x.consumers.head?

/-- The copies of an item that enters on-chip storage, and the queue with its turn moved on. A queue without consumer
cores is a service's: its items stand for the service (log 42). -/
def State.distribute (s : State) (x : Queue) (i : Item) : Queue :=
  let slot := x.nextSlot
  let x := { x with nextSlot := slot + 1 }
  let to_ := fun (c : CoreId) => ({ slot := slot, core := c, item := i, owner := none } : Copy)
  if x.consumers = [] then { x with items := x.items ++ [to_ 0] }
  else if i.tag = tagCURTAIN ∨ x.mcast then { x with items := x.items ++ x.consumers.map to_ }
  else if x.steer then
    let v := fieldOf i.data 15 0
    { x with items := x.items ++ [to_ (x.consumers.getD (v % x.consumers.length) 0)] }
  else match s.nextConsumer x with
    | some c => { x with items := x.items ++ [to_ c], served := some (s.core c).index }
    | none => x

/-! ## Service queues (20 R412) -/

/-- The event by which a service answers a call; a FUNC it does not have is answered by its first function's event
(BADCALL). -/
def callEvent (service func : Nat) : Option Instr :=
  match service with
  | 0 => some (match func with | 2 => .remove | 3 => .recast | 4 => .query | _ => .load .call)
  | 1 => some (match func with | 2 => .unmap | _ => .map)
  | 3 => some .lifetime
  | 4 => some (match func with | 2 => .epoch | 3 => .resume | 4 => .period | _ => .take)
  | 5 => some .append
  | _ => none

/-- A service queue writes CDOMAIN of a call it accepts, and the service's answer is posted. -/
def State.callAccepted (s : State) (q : QKey) (i : Item) : State :=
  if 500 ≤ q ∧ q < 506 then
    match callEvent (q - 500) (fieldOf i.data 79 64) with
    | some e => s.post 0 e
    | none => s
  else s

/-- The item as a service queue keeps it: CDOMAIN is the pusher's domain (the pager's queue takes no calls). -/
def stampDomain (q : QKey) (dom : BitVec 12) (i : Item) : Item :=
  if 500 ≤ q ∧ q < 506 ∧ q ≠ 502 then
    { i with data := (i.data &&& ~~~((0xFFF#1024) <<< 80)) ||| (dom.setWidth 1024 <<< 80) }
  else i

/-! ## Acceptance (06 R128, R134, R135) -/

/-- An item is written into on-chip storage (06 R126), in the granules of its slot: under an armed injection it may be
lost, and becomes POISON with payload zero (06 R155; 22 R442, log 70). A fault queue is no part of that storage. -/
def State.storeOnchip (s : State) (q : QKey) (x : Queue) (i : Item) : Item × State :=
  if q ≥ 16384 then (i, s) else
  let r := s.storeItem 3 (qcluster q) (2 * (x.granule + x.nextSlot % x.cap * x.g)) (2 * x.g) x.dom
  (if r.1 then { tag := tagPOISON, data := 0 } else i, r.2)

/-- A queue takes an item as it stands, or refuses it with a code: QGONE, ACCESS or QFULL. -/
def State.enter (s : State) (q : QKey) (i : Item) (dom : BitVec 12) (checked : Bool) : Except (BitVec 8) State :=
  let x := s.queue q
  if x.st ≠ .active then .error cQGONE
  else if !checked && x.dom != dom && !x.openAll then .error cACCESS
  else if !x.spilling && x.onchip < x.cap then
    let r := s.storeOnchip q x i
    .ok (r.2.setQueue q (r.2.distribute x r.1))
  else if x.elastic && x.spill.length < x.calItems then
    .ok ((s.setQueue q { x with spill := x.spill ++ [i], spilling := true }).refillIfDue q)
  else .error cQFULL

/-- A queue accepts an item: a service's queue writes CDOMAIN of it, and its call is answered (20 R412). -/
def State.accept (s : State) (q : QKey) (i : Item) (dom : BitVec 12) (checked : Bool) : Except (BitVec 8) State :=
  let i := stampDomain q dom { i with data := cutTo (s.queue q).g i.data }
  match s.enter q i dom checked with
  | .ok t => .ok (t.callAccepted q i)
  | .error code => .error code

/-- An item that a role pushes: the pager's queue takes only the requests of 08 R177 (20 R412; ACCESS is the model's choice
of code, log 72). -/
def State.acceptPush (s : State) (q : QKey) (i : Item) (dom : BitVec 12) (checked : Bool) : Except (BitVec 8) State :=
  if q = serviceKey 2 then .error cACCESS else s.accept q i dom checked

/-- An item that the device puts into a queue and that is no call: a service's queue keeps it as it is, and the service
takes it (15 R332). -/
def State.acceptNote (s : State) (q : QKey) (i : Item) (dom : BitVec 12) : Except (BitVec 8) State :=
  let i := { i with data := cutTo (s.queue q).g i.data, note := 500 ≤ q && q < 506 }
  match s.enter q i dom true with
  | .ok t => .ok (if 500 ≤ q ∧ q < 506 then (callEvent (q - 500) 0).toList.foldl (fun t e => t.postOnce 0 e) t else t)
  | .error code => .error code

/-- A barrier release item: reserved to one core, on-chip only (09 R217). -/
def State.acceptRelease (s : State) (q : QKey) (c : CoreId) (i : Item) : Except (BitVec 8) State :=
  let x := s.queue q
  if x.st ≠ .active then .error cQGONE
  else if x.onchip < x.cap then
    let r := s.storeOnchip q x { i with data := cutTo x.g i.data }
    .ok (r.2.setQueue q { x with nextSlot := x.nextSlot + 1
                                 items := x.items ++ [{ slot := x.nextSlot, core := c, item := r.1, owner := none }] })
  else .error cQFULL

/-- A refill lands: its batch enters on-chip storage together and is distributed (06 R136). -/
def State.landRefill (s : State) (q : QKey) : State :=
  let x := s.queue q
  match x.refill with
  | none => s
  | some n =>
    let r := (x.spill.take n).foldl (fun (p : Queue × State) i =>
      let w := p.2.storeOnchip q p.1 i
      (w.2.distribute p.1 w.1, w.2)) ({ x with refill := none, spill := x.spill.drop n }, s)
    let y := if r.1.spill = [] then { r.1 with spilling := false } else r.1
    ((r.2.setQueue q y).samples 3 (q % 512) (some (qcluster q)) (s.now - x.refillAt)).refillIfDue q

/-! ## Destruction (06 R140–R142) -/

/-- May a plain QDESTROY free the queue (06 R140)? -/
def State.destroyable (s : State) (q : QKey) : Bool :=
  let x := s.queue q
  x.st == .active && x.items.isEmpty && x.spill.isEmpty && x.refill.isNone && !s.cores.any (fun c => s.binds c.1 q)

/-- QDESTROY.FORCE at the queue: unowned items and spilled items go, a POISON copy stands for each consumer core with
a row that binds the queue, and the queue is FAILED (06 R141). -/
def State.failQueue (s : State) (q : QKey) : State :=
  let x := s.queue q
  if x.st = .free then s
  else
    let keep := x.items.filter (fun i => i.owner.isSome)
    let poison : Item := { tag := tagPOISON, data := 0 }
    let to_ := (x.consumers.filter (fun c => s.binds c q)).map (fun c =>
      ({ slot := x.nextSlot, core := c, item := poison, owner := none } : Copy))
    (s.setQueue q { x with st := .failed, items := keep ++ to_, nextSlot := x.nextSlot + 1, spill := [], refill := none,
                           spilling := false }).freeIfDone q

/-! ## What an instance holds -/

/-- Owned items go back unowned, in their places: they keep their order ahead of later arrivals (04 R89). -/
def State.returnItems (s : State) (inst : Nat) : State :=
  { s with queues := s.queues.map (fun q =>
      (q.1, { q.2 with items := q.2.items.map (fun i => if i.owner = some inst then { i with owner := none } else i) })) }

/-- Items that an instance owns, over all queues. -/
def State.ownedCount (s : State) (inst : Nat) : Nat := (s.queues.map (fun q => (q.2.ownedBy inst).length)).sum

/-- Owned items are discarded (04 R89): the count, and the state. -/
def State.discardItems (s : State) (inst : Nat) : Nat × State :=
  let n := s.ownedCount inst
  let keys := (s.queues.filter (fun q => q.2.items.any (fun i => i.owner == some inst))).map (·.1)
  let s := keys.foldl (fun s q =>
    let x := s.queue q
    ((s.setQueue q { x with items := x.items.filter (fun i => i.owner ≠ some inst) }).refillIfDue q).freeIfDone q) s
  (n, s)

end Sys2Proof.Machine
end

