-- ==== Sys2Proof/Machine/Ops.lean ====
section
/-!
DEFINITION. The named operations of a core: its state word and frames (04 R91, R101; 22 R440), taking a fault as one
operation (22 R435–R439), parking (04 R92), stopping (R94), ending (R89), creation (R81–R84), dispatch (R87) and
resumption (20 R428, 04 R461).
-/
namespace Sys2Proof.Machine

/-! ## The running instance -/

/-- The binding row r of a core. -/
def Core.row (x : Core) (r : Nat) : Row := x.rows.get {} r
def Core.setRow (x : Core) (r : Nat) (v : Row) : Core := { x with rows := x.rows.set r v }

/-- Cycles charged so far (04 R96, R102). -/
def State.charged (s : State) (c : CoreId) : Nat :=
  let x := s.core c
  x.inst.used + (if x.cond = .running then s.now - x.startedAt else 0)

/-- Items an instance owns on the k-th queue its row binds. -/
def State.ownedOn (s : State) (c : CoreId) (i : Inst) (k : Nat) : Nat :=
  match (s.rowQueues c ((s.core c).row i.row.toNat))[k]? with
  | some q => ((s.queue q.1).ownedBy i.id).length
  | none => 0

/-- The `TSTATE` word of an instance of core `c` with a grant of `vl` lanes (04 Table 4.8). -/
def State.tstate (s : State) (c : CoreId) (i : Inst) (vl : Nat) : Word :=
  let r := (s.core c).row i.row.toNat
  word ((if r.budget ≠ 0 then 2 ^ 48 else 0) + i.parks.toNat * 2 ^ 40 + satTo 255 (s.ownedOn c i 1) * 2 ^ 32 +
    satTo 255 (s.ownedOn c i 0) * 2 ^ 24 + vl * 2 ^ 16 + (if i.preempted then 2 ^ 15 else 0) +
    i.source.toNat * 2 ^ 12 + i.eff.toNat * 2 ^ 9 + i.prio.toNat * 2 ^ 6 + i.row.toNat)

/-! ## Frames (04 R90, R91; 22 R440) -/

abbrev frameS : Nat := 14
abbrev frameP : Nat := 16
abbrev inPlace : Nat := 15

/-- The bytes of a frame (22 Table 22.3). -/
def frameBytes (h : Held) (state : Word) : List Byte :=
  bytesOf h.pc 8 ++ ((List.range 15).flatMap (fun i => bytesOf (h.sregs.toList.getD (i + 1) 0) 8)) ++
  bytesOf h.nflags 8 ++ bytesOf state 8 ++ ((List.range 7).flatMap (fun i => bytesOf (h.masks.toList.getD (i + 1) 0) 16))

/-- Where a frame lies in TCM (22 R440). -/
def frameOffset (frames f : Nat) : Nat :=
  if f = frameP then 0x3E00 else if f = frameS then 0x3F00 else 0x4000 - 256 * (frames + 2) + 256 * f

/-- Save an entry's frame bytes. -/
def State.saveFrame (s : State) (c : CoreId) (h : Held) : State :=
  match h.frame with
  | some f =>
    let p := tcmPlace c (frameOffset (s.core c).frames f)
    let bs := frameBytes h (s.tstate c h.inst h.vl)
    { s.injectAt p 256 with mem := Memory.setBytes s.mem p bs }
  | none => s

/-- What the running instance of a core leaves in the run queue: its registers and lanes (02 R24). -/
def Core.leave (x : Core) (st : HeldAs) (f : Option Nat) : Held :=
  { inst := x.inst, st := st, frame := f, pc := x.pc, sregs := Vector.ofFn (fun i : Fin 16 => x.regs[i.val]'(by omega)),
    nflags := x.nflags, vl := x.vl, vregs := x.vregs, masks := x.masks, blocks := x.blocks }

/-- The core with no instance on it. -/
def Core.cleared (x : Core) : Core :=
  { x with cond := .idle, inst := {}, nflags := 0, vl := 0, vregs := Vector.replicate 32 [], masks := Vector.replicate 8 0,
           blocks := [] }

/-- The lowest free parking frame (04 R90, R92; which one is free to the device, log 43). -/
def Core.freeFrame (x : Core) : Option Nat :=
  (List.range x.frames).find? (fun f => !x.held.any (fun h => h.frame == some f))

/-- A run-queue entry is free (04 R85). -/
def Core.entryFree (x : Core) : Bool := x.held.length < 64

/-- The running instance moves to the run queue, in frame `f`, as `st`. -/
def State.moveOut (s : State) (c : CoreId) (st : HeldAs) (f : Nat) : State :=
  let x := s.core c
  let h := x.leave st (some f)
  let s := s.saveFrame c h
  s.setCore c { x.cleared with held := x.held ++ [h] }

/-- Charge the running instance up to now. -/
def State.charge (s : State) (c : CoreId) : State :=
  s.updCore c (fun x => { x with inst := { x.inst with used := s.charged c }, startedAt := s.now })

/-! ## Fault items (22 R437–R439) -/

/-- A fault item (22 Table 22.2), without LOST. -/
def faultItem (pc detail whereAt : Word) (code : BitVec 8) (discard : Nat) (report : Bool) (state : BitVec 32) : BitVec 256 :=
  (pc ++ detail ++ whereAt ++ code ++ BitVec.ofNat 8 (satTo 255 discard) ++ (if report then 1#1 else 0#1) ++ 0#7 ++ 0#8 ++ state)

/-- Does the core's role have a fault row (22 R436)? -/
def Core.faultRow (x : Core) : Option Nat := (List.find? (fun (r : Nat × Row) => r.2.valid && r.2.fault) x.rows).map (·.1)

/-- An APPEND call that the device makes for a core (22 R439): the item in ARGS bytes 0–31, COORD in bytes 32–39,
REPLY 0. A refusal is counted in the core's error log with KIND 3. -/
def State.appendFumarole (s : State) (c : CoreId) (item : BitVec 256) : State :=
  let call : BitVec 1024 := (coordOf s.pkg c).setWidth 1024 <<< 384 ||| item.setWidth 1024 <<< 128 ||| (1#1024 <<< 64)
  match s.accept (serviceKey 5) { tag := 0, data := call } (s.coreDom c) true with
  | .ok s => s
  | .error _ => s.logError 0 (s.coreArray c) 3 false 0 0 (s.coreDom c)

/-- Deliver a fault item to a core (22 R437–R439): to its fault queue, with LOST, or to fumarole. -/
def State.deliver (s : State) (c : CoreId) (fromFaultRow : Bool) (item : BitVec 256) : State :=
  let x := s.core c
  if fromFaultRow ∨ x.faultRow.isNone then s.appendFumarole c item
  else
    let it := item ||| (x.lost.setWidth 256 <<< 32)
    match s.accept (faultKey c) { tag := 0, data := it.setWidth 1024 } 0 true with
    | .ok s => s.updCore c (fun x => { x with lost := 0 })
    | .error _ => s.updCore c (fun x => { x with lost := BitVec.ofNat 8 (satTo 255 (x.lost.toNat + 1)) })

/-- A report (path R): a fault item that ends nothing (22 R435). -/
def State.report (s : State) (c : CoreId) (code : BitVec 8) (detail whereAt : Word) : State :=
  s.deliver c false (faultItem 0 detail whereAt code 0 true 0)

/-! ## Ending (04 R89) -/

/-- Lane blocks go back to the pool (04 R89, 11 R224). -/
def State.releaseLanes (s : State) (c : CoreId) (blocks : List Nat) : State :=
  if blocks = [] then s
  else s.updEns (ensOf c) (fun e => { e with taken := blocks.foldl (fun t b => t &&& ~~~(1#16 <<< b)) e.taken })

/-- The running instance ends normally, by TEND or TARM (04 R89). -/
def State.endInstance (s : State) (c : CoreId) : State :=
  let x := s.core c
  let s := s.returnItems x.inst.id
  let s := s.releaseLanes c x.blocks
  s.updCore c Core.cleared

/-- TAKING A FAULT (22 R435 path T): the running instance of core `c` is terminated under 04 R89, its items are
discarded and counted, its lanes released, and the fault item goes to the fault row's queue or to fumarole. -/
def State.takeFault (s : State) (c : CoreId) (code : BitVec 8) (detail : Word) : State :=
  let x := s.core c
  let word32 := (s.tstate c x.inst x.vl).setWidth 32
  let r := s.discardItems x.inst.id
  let s := r.2.releaseLanes c x.blocks
  let s := s.updCore c Core.cleared
  let s := s.deliver c (x.faultRow == some x.inst.row.toNat) (faultItem x.pc detail 0 code r.1 false word32)
  { s with faults := s.faults + 1 }

/-- A held instance is terminated with a fault code (20 R428; 22 R447). -/
def State.faultHeld (s : State) (c : CoreId) (h : Held) (code : BitVec 8) (detail : Word) : State :=
  let word32 := (s.tstate c h.inst h.vl).setWidth 32
  let r := s.discardItems h.inst.id
  let s := r.2.releaseLanes c h.blocks
  let x := s.core c
  let s := s.setCore c { x with held := x.held.filter (fun y => y.inst.id ≠ h.inst.id) }
  let s := s.deliver c (x.faultRow == some h.inst.row.toNat) (faultItem h.pc detail 0 code r.1 false word32)
  { s with faults := s.faults + 1 }

/-! ## Parking (04 R92) and the pager (08 R177) -/

/-- The running instance parks with a wait: into the lowest free parking frame, or in place. -/
def State.park (s : State) (c : CoreId) (w : Wait) : State :=
  let s := s.charge c
  let s := s.updCore c (fun x => { x with inst := { x.inst with parks := BitVec.ofNat 8 (satTo 255 (x.inst.parks.toNat + 1)) } })
  let x := s.core c
  match x.freeFrame with
  | some f => if x.entryFree then s.moveOut c (.parked w) f else s.setCore c { x with cond := .parked w }
  | none => s.setCore c { x with cond := .parked w }

/-- The frame number by which a service names an instance of the core: 15 when it is in place (04 R94). -/
def State.frameOf (s : State) (c : CoreId) (inst : Nat) : Nat :=
  match (s.core c).held.find? (fun h => h.inst.id == inst) with
  | some h => h.frame.getD inPlace
  | none => inPlace

def Kind.code : Kind → BitVec 3
  | .read => 0 | .write => 1 | .fetch => 2

def PageWhy.code : PageWhy → BitVec 3
  | .absent => 0 | .badEntry => 1 | .badRoot => 2 | .cowStore => 3

/-- A pager request (08 Table 8.10). -/
def pagerItem (pc : Word) (frame : Nat) (pkg : BitVec 12) (c : CoreId) (dom : BitVec 12) (level : Nat)
    (reason kind : BitVec 3) (va : Word) : BitVec 256 :=
  pc ++ 0#24 ++ BitVec.ofNat 4 frame ++ 0#4 ++ pkg ++ BitVec.ofNat 1 (c / 4096) ++ BitVec.ofNat 4 (c / 256) ++
    BitVec.ofNat 8 c ++ 0#7 ++ dom ++ BitVec.ofNat 2 level ++ reason ++ kind ++ 0#44 ++ va

/-- The ingress of a die, as the one that keeps pager requests (15 R325): numbered past the cores. -/
abbrev ingressOf (die : Nat) : Nat := 8192 + die

/-- Pager requests refused and kept, of a core or of a die's ingress (08 R177). -/
def State.kept (s : State) (c : Nat) : List (Nat × BitVec 256) := if c < 8192 then (s.core c).pagerReqs else s.ingressPager.get [] (c - 8192)
def State.setKept (s : State) (c : Nat) (l : List (Nat × BitVec 256)) : State :=
  if c < 8192 then s.updCore c (fun x => { x with pagerReqs := l }) else { s with ingressPager := s.ingressPager.set (c - 8192) l }

/-- The pager's queue takes a request (08 R177), or none. -/
def State.pushPager (s : State) (item : BitVec 256) : Option State :=
  match s.accept (serviceKey 2) { tag := 0, data := item.setWidth 1024 } 0 true with
  | .ok s => some s
  | .error _ => none

/-- A request to the pager (08 R177): refused, or behind one that was refused, it is kept, and pushed again every 1,024
cycles; one core's requests are accepted in their order. -/
def State.askPager (s : State) (c : Nat) (inst : Nat) (item : BitVec 256) : State :=
  match (if s.kept c = [] then s.pushPager item else none) with
  | some s => s
  | none => (s.setKept c (s.kept c ++ [(inst, item)])).post 1024 (.pagerRequestRetry c inst)

/-- A page fault: the instance parks and its request is posted (04 R92; 08 R173, R177). -/
def State.pageFault (s : State) (c : CoreId) (p : PageFault) : State :=
  let x := s.core c
  let s := (s.logBad p).park c .pager
  let f := s.frameOf c x.inst.id
  s.askPager c x.inst.id (pagerItem x.pc f s.pkg c p.dom p.level p.why.code p.kind.code p.va)

/-! ## How an instruction ends -/

/-- An uncorrectable error at an instruction: logged, then ECC at the instruction (22 R442, R443). -/
def State.takeEcc (s : State) (c : CoreId) (e : EccErr) : State :=
  (s.logMet e).takeFault c cECC e.addr

/-- The state after an instruction of the acting core: its effect, or the state as it was with the fault taken, the
instance parked, or nothing but a wait (00 R8, 04 R95). A completed instruction retires (05 R116). DESIGN CHOICE (log 96):
one that terminates or parks its instance does not, and a BREAK that stops does. -/
def settle (m : Op Unit) (s : State) : State :=
  match m s with
  | .ok (_, t) => t.updCore s.cur (fun x => { x with retired := x.retired + 1 })
  | .error (.trap code detail) => s.takeFault s.cur code detail
  | .error (.page p) => s.pageFault s.cur p
  | .error .wait => s
  | .error (.ecc e) => s.takeEcc s.cur e
  | .error (.asleep kind n) => s.setRetention kind n false

/-- The outcome of an instruction. -/
def run (m : Op Unit) (s : State) : Host.Outcome State Fault Refusal := .next (settle m s)

/-- The outcome of a happening that is no instruction. -/
def happen (s : State) : Host.Outcome State Fault Refusal := .next s

/-- The pc advances past an instruction of `len` bytes (02 R28). -/
def advance (len : Word) : Op Unit := modMe (fun x => { x with pc := x.pc + len })

/-- An instruction that transfers no control. -/
def straight (len : Word) (m : Op Unit) : Op Unit := do m; advance len

/-! ## Effective priority and dispatch (04 R86, R87) -/

/-- Effective priority at `now` (04 R86). -/
def effective (now : Nat) (i : Inst) : Nat :=
  if i.prio = 7 then 7 else
    let e := i.prio.toNat + (now - i.readySince) / 4096
    if e < 6 then e else 6

/-- Is `a` chosen before `b` (04 R87): greater effective priority, then least ready-since, least row, earliest
creation? -/
def before (now : Nat) (a b : Inst) : Bool :=
  let ea := effective now a
  let eb := effective now b
  if ea ≠ eb then ea > eb
  else if a.readySince ≠ b.readySince then a.readySince < b.readySince
  else if a.row ≠ b.row then a.row < b.row
  else a.id < b.id

/-- The ready instance that R87 chooses. -/
def bestReady (now : Nat) (hs : List Held) : Option Held :=
  (hs.filter (fun h => h.st == .ready)).foldl (fun best h => match best with
    | none => some h
    | some b => if before now h.inst b.inst then some h else some b) none

/-- The instance in frame P, if one stands there. -/
def displaced (hs : List Held) : Option Held :=
  hs.find? (fun h => match h.st with
    | .preempted _ => true
    | _ => false)

/-- The next instance (04 R87). -/
def nextInstance (now : Nat) (hs : List Held) : Option Held :=
  match displaced hs with
  | some p => if hs.any (fun h => h.st == .ready && h.inst.prio == 7) then bestReady now hs else some p
  | none => bestReady now hs

/-- The registers s1–s15 come back; s16–s31 stay as they are (02 R24). -/
def Core.takeRegs (x : Core) (h : Held) : Core :=
  { x with regs := Vector.ofFn (fun i : Fin 32 => if lt : i.val < 16 then h.sregs[i.val]'lt else x.regs[i.val]) }

/-- An instance takes the core: running, or parked in place again when its wait goes on (04 R87, R92). A held result
of an atomic is written now (09 R204). -/
def Core.enter (x : Core) (now : Nat) (h : Held) : Core :=
  let wait : Option Wait := match h.st with
    | .preempted w => w
    | _ => none
  let eff : BitVec 3 := match h.st with
    | .ready => BitVec.ofNat 3 (effective now h.inst)
    | _ => h.inst.eff
  let x := x.takeRegs h
  let x := { x with held := x.held.filter (fun y => y.inst.id ≠ h.inst.id), pc := h.pc, nflags := h.nflags, vl := h.vl,
                    vregs := h.vregs, masks := h.masks, blocks := h.blocks,
                    inst := { h.inst with eff := eff, result := none }, startedAt := now,
                    cond := match wait with
                      | some w => .parked w
                      | none => .running }
  match h.inst.result with
  | some r => x.setReg r.1 r.2
  | none => x

/-- The frame that an instance resumes from holds an uncorrectable error (22 Table 22.5). -/
def State.badFrame (s : State) (c : CoreId) (h : Held) : Option Bad :=
  h.frame.bind (fun f => s.badWord (tcmPlace c (frameOffset (s.core c).frames f)) 256)

/-- Dispatch on an idle core. An instance whose frame is bad is terminated with ECC (22 Table 22.5); the ready-to-start
wait of one that was ready is sampled (22 R449). -/
def State.dispatch (s : State) (c : CoreId) : State :=
  let x := s.core c
  if x.cond = .idle then
    match nextInstance s.now x.held with
    | some h => match s.badFrame c h with
      | some b =>
        let e := s.eccAt b (s.globalOf (tcmPlace c (frameOffset x.frames (h.frame.getD 0)))) (s.coreDom c) (.frame c (h.frame.getD 0))
        (s.logMet e).faultHeld c h cECC e.addr
      | none =>
        let s := match h.frame with
          | some f => if s.injected.isEmpty then s
            else s.scrub (tcmPlace c (frameOffset x.frames f)) 256 (s.globalOf (tcmPlace c (frameOffset x.frames f))) (s.coreDom c)
          | none => s
        let t := s.setCore c (x.enter s.now h)
        if h.st = .ready then t.samples 4 (c % 256) (some (clusterOf c)) (s.now - h.inst.readySince) else t
    | none => s
  else s

/-! ## Creation (04 R81–R84) -/

/-- The items that a side of a trigger takes (04 R81, 06 R130): none when it is not met. Nothing behind a curtain that
an instance still holds counts, and what was returned in front of it does; on a core that a recast's curtain belongs to, the curtain itself is left to close the
input (20 R416, log 44). -/
def State.sideTakes (s : State) (c : CoreId) (q : QKey) (trig : Nat) : Option (List Copy) :=
  let x := s.queue q
  if (s.core c).closed.contains q then none
  else
    let reach := (x.items.filter (fun i => i.core == c)).takeWhile (fun i => !(i.owner.isSome && i.item.tag == tagCURTAIN))
    let first := (reach.filter (fun i => i.owner.isNone)).take trig
    let ahead := first.takeWhile (fun i => i.item.tag ≠ tagCURTAIN)
    if ahead.length < first.length then
      match first.drop ahead.length with
      | k :: _ => if s.curtainOf c k.item then (if ahead = [] then none else some ahead) else some (ahead ++ [k])
      | [] => none
    else if first.length = trig ∧ trig > 0 then some first else none

/-- The takes of a row's trigger: both sides, or nothing (04 R81). -/
def State.triggerTakes (s : State) (c : CoreId) (r : Row) : Option (List (QKey × List Copy)) :=
  if !r.q0v then none
  else
    let qs := s.rowQueues c r
    if qs.length ≠ (if r.q1v then 2 else 1) then none
    else qs.foldr (fun q acc => match acc, s.sideTakes c q.1 q.2 with
      | some l, some t => some ((q.1, t) :: l)
      | _, _ => none) (some [])

/-- A new instance of a row (04 R82, 02 R23). -/
def State.newHeld (s : State) (c : CoreId) (r : Nat) (row : Row) (source : BitVec 3) (s2 : Word) : Held :=
  let x := s.core c
  let rolenum := x.role.getD 0
  let role := s.role rolenum
  { inst := { id := s.nextId, row := BitVec.ofNat 6 r, prio := if row.fault then 7 else row.prio, source := source,
              readySince := s.now, version := role.version, role := rolenum },
    st := .ready, frame := none, pc := row.entry,
    sregs := Vector.ofFn (fun i : Fin 16 => match i.val with
      | 1 => row.arg
      | 2 => s2
      | 3 => word x.index
      | 4 => word role.cores.length
      | _ => 0),
    nflags := 0, vl := 0, vregs := Vector.replicate 32 [], masks := Vector.replicate 8 0, blocks := [] }

/-- Put a new instance into the run queue. -/
def State.addInstance (s : State) (c : CoreId) (r : Nat) (h : Held) : State :=
  let x := s.core c
  { s.setCore c { x with held := x.held ++ [h], lastRow := some r } with nextId := s.nextId + 1 }

/-- The oldest firing or refusal of a row: its slot if it has one, its index and its order (04 R83, R84). -/
def Core.firing (x : Core) (r : Nat) : Option (Option Nat × Nat × Nat) :=
  let fired := x.arms.filterMap (fun a => match a.2.fired with
    | some f => if a.2.row.toNat = r then some (some a.1, f.1, f.2) else none
    | none => none)
  let refused := x.refused.filterMap (fun p => if p.1.toNat = r then some (none, 4, p.2) else none)
  (fired ++ refused).foldl (fun best p => match best with
    | none => some p
    | some b => if p.2.2 < b.2.2 then some p else some b) none

/-- Create an instance of row r from the first source that can (04 R83). -/
def State.createFrom (s : State) (c : CoreId) (r : Nat) (row : Row) : Option State :=
  let x := s.core c
  match x.firing r with
  | some (slot, j, order) =>
    let s := s.addInstance c r (s.newHeld c r row 1 (word j))
    some (s.updCore c (fun x => match slot with
      | some k => { x with arms := x.arms.erase k }
      | none => { x with refused := x.refused.filter (fun p => p.2 ≠ order) }))
  | none =>
    if row.pend ≠ 0 then
      let s := s.addInstance c r (s.newHeld c r row 2 0)
      some (s.updCore c (fun x => x.setRow r { x.row r with pend := row.pend - 1 }))
    else match s.triggerTakes c row with
      | some takes =>
        let n0 := ((takes[0]?).map (·.2.length)).getD 0
        let n1 := ((takes[1]?).map (·.2.length)).getD 0
        let h := s.newHeld c r row 0 (word (n0 + 256 * n1))
        let s := s.addInstance c r h
        some (takes.foldl (fun s t =>
          let q := s.queue t.1
          s.setQueue t.1 { q with items := q.items.map (fun i =>
            if t.2.any (fun k => k.slot == i.slot && k.core == i.core) then { i with owner := some h.inst.id } else i) }) s)
      | none => none

/-- Creation on a core (04 R83): rows from the one after the last that created, with wrap-around. -/
def State.create (s : State) (c : CoreId) : Option State :=
  let x := s.core c
  if x.entryFree ∧ x.role.isSome then
    let start := match x.lastRow with
      | some r => r + 1
      | none => 0
    ((List.range 64).map (fun i => (start + i) % 64)).findSome? (fun r =>
      match Tbl.find? x.rows r with
      | some row => if row.valid ∧ row.en then s.createFrom c r row else none
      | none => none)
  else none

/-! ## Pre-emption and stops (04 R93, R94) -/

/-- A ready instance of priority 7 waits while one of a lower priority has the core, running or parked in place. -/
def Core.preemptable (x : Core) : Bool :=
  x.held.any (fun h => h.st == .ready && h.inst.prio == 7) && x.inst.prio ≠ 7 &&
  (match x.cond with
    | .running | .parked _ => true
    | _ => false)

/-- Priority 7 pre-empts (04 R92, R93): the instance goes to frame P, its wait with it, and the priority-7 instance,
whose entry it takes, runs. -/
def State.preempt (s : State) (c : CoreId) : State :=
  let s := s.charge c
  let x := s.core c
  let w : Option Wait := match x.cond with
    | .parked w => some w
    | _ => none
  let s := s.setCore c { x with inst := { x.inst with preempted := true } }
  (s.moveOut c (.preempted w) frameP).dispatch c

/-- Stop whatever has the core (04 R94, R461): the frame number, or none when nothing ran. -/
def State.stopCore (s : State) (c : CoreId) : Option Nat × State :=
  let s := s.charge c
  let x := s.core c
  let y := { x with inst := { x.inst with preempted := true } }
  match x.cond with
  | .idle => (none, s)
  | .stopped _ => (some inPlace, s)
  | .parked w => (some inPlace, s.setCore c { y with cond := .stopped (some w) })
  | .running =>
    let f := if x.held.any (fun h => h.frame == some frameS) then x.freeFrame else some frameS
    match f with
    | some f => if x.entryFree then (some f, (s.setCore c y).moveOut c .stopped f)
                else (some inPlace, s.setCore c { y with cond := .stopped none })
    | none => (some inPlace, s.setCore c { y with cond := .stopped none })

/-! ## The end of a wait, and answers (04 R92, R461; 20 R428) -/

/-- A wait of an instance of core `c` ends: it becomes ready, or goes on in place, or is kept with frame P or with a
stop (04 R92, R461). `f` changes the instance (an atomic's result). -/
def State.endWait (s : State) (c : CoreId) (inst : Nat) (f : Inst → Inst) : State :=
  let x := s.core c
  let x := { x with held := x.held.map (fun h => if h.inst.id = inst then
      match h.st with
      | .parked _ => { h with st := .ready, inst := { f h.inst with readySince := s.now } }
      | .preempted _ => { h with st := .preempted none, inst := f h.inst }
      | _ => h
    else h) }
  let x := if x.inst.id = inst then
      match x.cond with
      | .parked _ =>
        let i := f x.inst
        let x := { x with cond := .running, startedAt := s.now, inst := { i with result := none } }
        match i.result with
        | some r => x.setReg r.1 r.2
        | none => x
      | .stopped (some _) => { x with cond := .stopped none, inst := f x.inst }
      | _ => x
    else x
  s.setCore c x

/-- The wait of an instance of a core, wherever it stands. -/
def State.waitOf (s : State) (c : CoreId) (inst : Nat) : Option Wait :=
  let x := s.core c
  match x.held.find? (fun h => h.inst.id == inst) with
  | some h => match h.st with
    | .parked w => some w
    | .preempted w => w
    | _ => none
  | none => if x.inst.id = inst then
      match x.cond with
      | .parked w => some w
      | .stopped w => w
      | _ => none
    else none

/-- The instance on the core, stopped in place, goes on (04 R461): a held result is written now. -/
def State.goOn (s : State) (c : CoreId) : State :=
  let x := s.core c
  let y := { x with cond := .running, startedAt := s.now, inst := { x.inst with result := none } }
  s.setCore c (match x.inst.result with
    | some r => y.setReg r.1 r.2
    | none => y)

/-- An answer to the instance that a frame number names (20 R428, 04 R461): none when nothing waits there. Only waits
for an answer are answered: a hardware wait ends by itself (log 45). DESIGN CHOICE (log 93): an instance in a frame that is
answered 0 is ready from this cycle and is chosen under R87. -/
def State.answer (s : State) (c : CoreId) (frame : Nat) (code : BitVec 8) : Option State :=
  let x := s.core c
  if frame = inPlace then
    match x.cond with
    | .parked .pager => some (if code = 0 then s.goOn c else s.takeFault c code s.openDetail)
    | .stopped (some .pager) => some (if code = 0 then s.setCore c { x with cond := .stopped none } else s.takeFault c code s.openDetail)
    | .stopped (some w) => if code = 0 then some (s.setCore c { x with cond := .parked w }) else some (s.takeFault c code s.openDetail)
    | .stopped none => some (if code = 0 then s.goOn c else s.takeFault c code s.openDetail)
    | _ =>
      -- displaced from parking in place into frame P, it keeps its number (log 45)
      match x.held.find? (fun h => h.st == .preempted (some .pager)) with
      | some h => some (if code = 0 then s.endWait c h.inst.id id else s.faultHeld c h code s.openDetail)
      | none => none
  else
    match x.held.find? (fun h => h.frame == some frame && (h.st == .parked .pager || h.st == .stopped)) with
    | some h => some (if code = 0 then
        s.setCore c { x with held := x.held.map (fun y => if y.inst.id = h.inst.id then
          { y with st := .ready, inst := { y.inst with readySince := s.now } } else y) }
      else s.faultHeld c h code s.openDetail)
    | none => none

end Sys2Proof.Machine
end

