-- ==== Sys2Proof/Machine/Send.lean ====
section
/-!
DEFINITION. What leaves a core for another cluster or another package, and how it is delivered (06 R137, R138; 15 R324,
R330, R340–R346): messages, trunks, lane faults, requests that fail with LINK, pushes.
-/
namespace Sys2Proof.Machine

/-! ## Messages -/

/-- The happening by which a message arrives in this package, with its delay in cycles. -/
def msgArrival : Msg → Option (Nat × Instr)
  | .request r => some (0, .remoteRequestArrival r)
  | .push p => some (0, .pushArrival p)
  | .ack a => some (0, .remoteAcknowledge a)
  | .result r => some (0, .remoteResult r)
  | .landed cue => some (0, .landingAckAtOrigin cue)
  | .failed cue _ => some (0, .cueFailure cue)
  | .landing cue => some (0, .landingNotice cue)
  | .failure cue _ => some (0, .failureNotice cue)
  | .watch cue w => some (0, .watch cue w)
  | .notYet cue => some (1024, .watchResend cue)
  | .cueq r => some (0, .cueqAnswer r)
  | .rank eng a => some (0, .xredRootArrival eng a)
  | .part eng key c => some (0, .xredChunk eng key [c] .none)
  | .chunk eng _ key r => some (0, .xredChunk eng key [] r)
  | .service (.load x) => some (0, .load x)
  | .service (.lifetime _ _) => some (0, .lifetime)
  | .service (.take _ _) => some (0, .take)
  | .service (.resume _ _ _) => some (0, .resume)
  | _ => none

/-- The class of a message (15 Table 15.11). -/
def msgClass : Msg → BitVec 2
  | .request _ | .push _ | .watch _ (.core _ _ _ _) | .rank _ _ | .part _ _ _ | .chunk _ _ _ _ | .service _ => 0
  | .watch _ (.package _) | .landing _ | .failure _ _ => 1
  | .link _ _ _ _ _ => 3
  | _ => 2

/-- A data packet of LNKDIAG: a remote store or an engine packet (15 R352). -/
def msgIsData : Msg → Bool
  | .request r => match r.kind with
    | .store _ _ _ _ _ | .packet _ _ _ | .fetch _ _ _ => true
    | _ => false
  | _ => false

/-- What leaves the package for no other Hallys package: the host, the controllers. -/
def State.emit (s : State) (m : Msg) : State := 
  { s with egress := s.egress ++ [{ dst := s.pkg, msg := m, waiting := false, transit := false }] }

/-- What a message leaves for the happening that it sets off: word of another package's service but the loader's. -/
def msgWords : Msg → List SvcMsg
  | .service (.load _) => []
  | .service x => [x]
  | _ => []

/-- A message to a party of this package. -/
def State.postMsg (s : State) (m : Msg) : State := match msgArrival m with
  | some a => ({ s with peerWords := s.peerWords ++ msgWords m } : State).post a.1 a.2
  | none => s.emit m

/-- A failure item of a remote read or atomic (15 R339). -/
def poisonItem (hi : Word) (code : BitVec 8) : Item :=
  { tag := tagPOISON, data := (hi ++ code.setWidth 64 : BitVec 128).setWidth 1024 }

/-- The first element of an engine's packet. -/
def packetFirst (r : RemoteReq) : Nat := match r.kind with
  | .packet lo _ _ | .fetch lo _ _ => lo
  | _ => 0

/-- The words that a failed request sends back (15 R326, R330): a store's failure to its core and its cue's to the
origin; the failure item of a read or an atomic; a packet's failure to its engine, with its element and address. -/
def failMsgs (r : RemoteReq) (code : BitVec 8) (at_ : Nat) (addr : Word) : List (BitVec 12 × Msg) :=
  let poison := fun (q : BitVec 32) (hi : Word) =>
    [(r.origin, Msg.result { core := r.core, serial := r.serial, q := q, item := poisonItem hi code })]
  let ack := (r.origin, Msg.ack { core := r.core, serial := r.serial, code := code, where_ := addr, data := [], at_ := at_ })
  match r.kind with
  | .store _ _ _ _ returns => ack :: (if returns = 0 then [] else [(returns.extractLsb' 20 12, Msg.failed returns code)])
  | .read _ q cookie => poison q cookie
  | .atomic _ _ _ _ q => poison q r.addr
  | .packet _ _ _ | .fetch _ _ _ => [ack]

/-- The words that go back when a message cannot reach its package: LINK, to whom waits for it (15 R338, R345, R346; 13
R312). `here`: the package that sends the message. -/
def lostMsgs (here : BitVec 12) : Msg → List (BitVec 12 × Msg)
  | .request r => failMsgs r cLINK (packetFirst r) r.addr
  | .push p => [(p.srcPkg, .ack { core := p.core, serial := p.serial, code := cLINK, where_ := p.qid.setWidth 64, data := [], at_ := 0 })]
  | .watch cue (.core p c serial q) => [(p, .cueq { core := c, serial := serial, q := q, cue := cue, status := cLINK })]
  | .rank eng a => [(a.pkg, .chunk a.eng eng a.key (.ended a.rank cLINK a.rank a.start))]
  | .part eng key c => [(here, .chunk c.eng eng key (.ended c.rank cLINK c.rank 0))]
  | .chunk eng root key r => match r with
    | .begin_ k | .emax k _ | .sums k _ _ _ => [(here, .part root key { rank := k, eng := eng, part := .failed cLINK })]
    | .none | .ended _ _ _ _ => []
  | .service (.load (.order x)) => [(x.origin, .service (.load (.answer x.serial x.dest false)))]
  | _ => []

/-- A message of this package that cannot leave: what waits for it fails with LINK. -/
def State.unsent (s : State) (m : Msg) : State := (lostMsgs s.pkg m).foldl (fun s x => s.postMsg x.2) s

/-! ## Trunks (15 R340–R346) -/

/-- The mask of `n` lanes from lane `lo`. -/
def laneMask (lo n : Nat) : BitVec 16 := BitVec.ofNat 16 ((2 ^ n - 1) * 2 ^ lo)

/-- Lanes in a mask. -/
def laneCount (m : BitVec 16) : Nat := (List.range 16).countP (fun i => m.getLsbD i)

/-- Lanes of a trunk that have faulted, injected or not (Table 15.12). -/
def Trunk.faulted (t : Trunk) : BitVec 16 := t.failed ||| t.injected

/-- The first set without a faulted lane. -/
def cleanSet (bad : BitVec 16) (l : List (BitVec 16)) : Option (BitVec 16) := l.find? (fun m => m &&& bad == 0)

def halves (p : Nat) : List (BitVec 16) := [laneMask 0 (2 * p), laneMask (2 * p) (2 * p)]
def quarters (p : Nat) : List (BitVec 16) := (List.range 4).map (fun i => laneMask (i * p) p)

/-- The widest set at step `from_` or narrower (R344): the step and its lanes; none is DOWN. -/
def Trunk.widest (p : Nat) (bad : BitVec 16) (from_ : Nat) : Option (Nat × BitVec 16) :=
  let full := if from_ = 0 ∧ laneMask 0 (4 * p) &&& bad = 0 then some (0, laneMask 0 (4 * p)) else none
  let half := if from_ ≤ 1 then (cleanSet bad (halves p)).map (fun m => (1, m)) else none
  let quarter := if from_ ≤ 2 then (cleanSet bad (quarters p)).map (fun m => (2, m)) else none
  full <|> half <|> quarter

/-- The credit window of a class in flits (R343). -/
def Trunk.window (t : Trunk) (cls : BitVec 2) : Nat :=
  (if cls = 0 then 2048 else 1024) * laneCount t.inuse / 16

/-- May a flit of a class be sent now (R343–R345)? -/
def Trunk.admits (t : Trunk) (cls : BitVec 2) : Bool :=
  t.st == .up && t.credits.get 0 cls.toNat < t.window cls && t.replay.length < 4096

/-- The route toward a package (R346). -/
def State.route (s : State) (p : BitVec 12) : Option Nat := (Tbl.find? s.routes p.toNat).map (·.toNat)

/-- Is a request of a core still outstanding? -/
def State.stillOut (s : State) (c : CoreId) (serial : Nat) : Bool := (s.core c).outst.any (fun o => o.serial == serial)

/-- The message's request waits for an answer in this package. -/
def State.awaited (s : State) (m : Msg) : Bool := match m with
  | .request r => r.origin == s.pkg && (if r.core < 8192 then s.stillOut r.core r.serial else match r.kind with
    | .packet _ hi _ | .fetch _ hi _ => (s.engine (r.core - 8192)).running.any (fun c => c.id == r.serial && c.sent.contains hi)
    | _ => false)
  | .push p => p.srcPkg == s.pkg && (p.core ≥ 8192 || s.stillOut p.core p.serial)
  | .watch _ (.core p c serial _) => p == s.pkg && s.stillOut c serial
  | .rank _ a => a.pkg == s.pkg && (s.engine a.eng.toNat).running.any (fun c => c.id == a.id)
  | .part _ _ _ | .chunk _ _ _ _ | .service (.load (.order _)) => true
  | _ => false

/-- A request: what a DOWN trunk has sent of it and has no acknowledgement for fails (R345). -/
def msgRequests : Msg → Bool
  | .request _ | .push _ | .watch _ (.core _ _ _ _) | .rank _ _ | .part _ _ _ | .chunk _ _ _ _ | .service (.load (.order _)) => true
  | _ => false

/-- A packet that was sent on a trunk which has gone DOWN, and not acknowledged (R345, R346): a request fails with LINK,
here or where it came from, and is never sent again; any other message waits for another route. -/
def State.lostOn (s : State) (dst : BitVec 12) (m : Msg) : State :=
  let back := fun (s : State) (x : BitVec 12 × Msg) => if x.1 = s.pkg then s.postMsg x.2
    else { s with egress := s.egress ++ [{ dst := x.1, msg := x.2, waiting := true, transit := false }] }
  let mine := match m with
    | .request r => r.origin == s.pkg
    | .push p => p.srcPkg == s.pkg
    | .watch _ (.core p _ _ _) => p == s.pkg
    | .rank _ a => a.pkg == s.pkg
    | _ => true
  if msgRequests m then (if mine && !s.awaited m then s else (lostMsgs s.pkg m).foldl back s)
  else { s with egress := s.egress ++ [{ dst := dst, msg := m, waiting := true, transit := false }] }

/-- A trunk goes DOWN (R345): LINK is reported to the network service, and requests sent and not acknowledged fail. -/
def State.trunkDown (s : State) (t : Nat) : State :=
  let x := s.trunk t
  let lost := x.replay.flatMap (·.packets) ++ x.ending.flatMap (fun p => p.2.map (·.2))
  let s := s.setTrunk t { x with st := .down, inuse := 0, restoring := false, replay := [], stream := [], ending := [], credits := [], owed := [] }
  lost.foldl (fun s p => s.lostOn p.1 p.2) (s.emit (.control 0 t 0))

/-- Begin retraining to a set, or go DOWN (R344): the full-width bound is 20.2 µs. -/
def State.retrain (s : State) (t : Nat) (to_ : Option (Nat × BitVec 16)) (restoring : Bool) : State :=
  match to_ with
  | some x =>
    ({ s.setTrunk t { s.trunk t with st := .retraining, target := x, restoring := restoring } with
        happenings := s.happenings.filter (fun h => h.2 != Instr.retrainComplete (BitVec.ofNat 6 t)) }).post 0 (.retrainComplete (BitVec.ofNat 6 t))
  | none => s.trunkDown t

/-- A lane faults (R344): in use, it takes the trunk to its next step; while the trunk retrains, to the step after the
one it was bound for. -/
def State.faultLane (s : State) (t lane : Nat) (inject : Bool) : State :=
  let x := s.trunk t
  let bit := laneMask lane 1
  if x.ports = 0 ∨ lane ≥ 4 * x.ports then s
  else
    let already := x.faulted &&& bit ≠ 0
    let x := if inject then { x with injected := x.injected ||| bit } else { x with failed := x.failed ||| bit }
    let s := s.setTrunk t x
    if already then s
    else match x.st with
      | .up => if x.inuse &&& bit = 0 then s else s.retrain t (Trunk.widest x.ports x.faulted (x.step + 1)) false
      | .retraining => s.retrain t (Trunk.widest x.ports x.faulted (x.target.1 + 1)) false
      | .down => s

/-! ## Flits (R341) -/

/-- A CRC-64 by the ECMA-182 polynomial, from zero, most significant bit first (log 8). -/
def crc64 (bs : List Byte) : BitVec 64 :=
  bs.foldl (fun (c : BitVec 64) (b : Byte) => (List.range 8).foldl (fun (c : BitVec 64) (_ : Nat) =>
    if c.getLsbD 63 then (c <<< 1) ^^^ 0x42F0E1EBA9EA3693 else c <<< 1) (c ^^^ (b.setWidth 64 <<< 56))) 0

/-- The header (Table 15.8). -/
def flitHeader (f : Flit) : BitVec 128 :=
  f.seq ++ f.ack ++ (if f.ackv then 1#1 else 0#1) ++ (if f.nak then 1#1 else 0#1) ++ f.cls ++ f.cred ++ f.ccls ++ f.used ++
    f.dpkg ++ f.spkg ++ 0#30

/-- Bytes 0–247: the header, lowest byte first, and the payload, filled up with zeros. -/
def flitBody (f : Flit) : List Byte := bytesOf (flitHeader f) 16 ++ (f.payload ++ List.replicate (232 - f.payload.length) 0)

/-- The CRC that the flit must carry. -/
def flitCode (f : Flit) : BitVec 64 := crc64 (flitBody f)

/-- The flit arrives intact. -/
def flitIntact (f : Flit) : Bool := f.crc == flitCode f && f.payload.length ≤ 232

/-- The bytes of a message's packet: at least one, and at most 1,024. -/
def packetOf (m : Msg) : List Byte := match (Config.packetBytes m).take 1024 with
  | [] => [0]
  | bs => bs

/-- REQUEST credit is withheld while every hold-queue entry, or every remote-miss slot of a die, is held (R325, R333). -/
def State.withheld (s : State) : Bool :=
  s.hold.length ≥ 1024 || (List.range 2).any (fun d => (s.misses.filter (fun m => m.die == d)).length ≥ 64)

/-- The class whose owed credits a flit of the trunk returns now, and how many. -/
def State.creditFor (s : State) (t : Trunk) : Option (Nat × Nat) :=
  (List.find? (fun (p : Nat × Nat) => p.2 > 0 && !(p.1 == 0 && s.withheld)) t.owed).map (fun p => (p.1, satTo 4095 p.2))

/-- The next flit of a class leaves a trunk: up to 232 bytes of its stream, with the packets that end in it. -/
def State.sendFlit (s : State) (n : Nat) (cls : BitVec 2) : State :=
  let t := s.trunk n
  let k := cls.toNat
  let bytes := t.stream.get [] k
  let ends := t.ending.get [] k
  let used := satTo 232 bytes.length
  let done := ends.filter (fun e => e.1 ≤ used)
  let later := (ends.filter (fun e => !(e.1 ≤ used))).map (fun e => (e.1 - used, e.2))
  let first := ends.find? (fun e => (packetOf e.2.2).length ≤ e.1 && e.1 - (packetOf e.2.2).length < used)
  let cred := s.creditFor t
  let f : Flit := { seq := t.txSeq + 1, ack := t.rxSeq, ackv := true, nak := false, cls := cls,
                    cred := BitVec.ofNat 12 ((cred.map (·.2)).getD 0), ccls := BitVec.ofNat 2 ((cred.map (·.1)).getD 0),
                    used := BitVec.ofNat 8 used, dpkg := ((first <|> ends.head?).map (·.2.1)).getD s.pkg, spkg := s.pkg,
                    payload := bytes.take 232, crc := 0, packets := done.map (·.2) }
  let f := { f with crc := if t.corrupt then flitCode f ^^^ 1 else flitCode f }
  s.setTrunk n { t with txSeq := t.txSeq + 1, replay := t.replay ++ [f], corrupt := false,
                        stream := if bytes.length ≤ 232 then t.stream.erase k else t.stream.set k (bytes.drop 232),
                        ending := if later = [] then t.ending.erase k else t.ending.set k later,
                        credits := t.credits.upd 0 k (· + 1),
                        owed := match cred with
                          | some c => t.owed.set c.1 (t.owed.get 0 c.1 - c.2)
                          | none => t.owed }

/-- The stream of a class enters flits while credit lasts. -/
def State.pump (s : State) (n : Nat) (cls : BitVec 2) : Nat → State
  | 0 => s
  | fuel + 1 =>
    if (s.trunk n).admits cls && !((s.trunk n).stream.get [] cls.toNat).isEmpty then State.pump (s.sendFlit n cls) n cls fuel else s

/-- An armed lane fault strikes as the trunk begins to send the data packet it was armed for (R352). -/
def State.countData (s : State) (n : Nat) (m : Msg) : State :=
  let t := s.trunk n
  match t.armed, msgIsData m with
  | some (lane, 0), true => (s.setTrunk n { t with armed := none }).faultLane n lane true
  | some (lane, k + 1), true => s.setTrunk n { t with armed := some (lane, k) }
  | _, _ => s

/-- A message's packet joins the stream of its class on a trunk, back to back with what is there (R341), and enters flits. -/
def State.putPacket (s : State) (n : Nat) (dst : BitVec 12) (m : Msg) : State :=
  let t := s.trunk n
  let k := (msgClass m).toNat
  let bytes := t.stream.get [] k ++ packetOf m
  let s := s.setTrunk n { t with stream := t.stream.set k bytes, ending := t.ending.set k (t.ending.get [] k ++ [(bytes.length, dst, m)]) }
  (s.pump n (msgClass m) 8).countData n m

/-- A trunk takes a message: there is credit for it, and no message of its class waits before it. -/
def State.takes (s : State) (n : Nat) (cls : BitVec 2) : Bool :=
  (s.trunk n).admits cls && ((s.trunk n).stream.get [] cls.toNat).isEmpty

/-- A message leaves for another package, or waits in egress for a trunk that takes it (15 R343–R346); what comes through
from another package waits for a route too, and a message of this package to an unreachable one fails. -/
def State.sendOut (s : State) (o : Out) : State := match s.route o.dst with
  | none => if o.transit then { s with egress := s.egress ++ [{ o with waiting := true }] } else s.unsent o.msg
  | some t =>
    let cls := msgClass o.msg
    let go := s.takes t cls && !s.egress.any (fun x => x.waiting && s.route x.dst == some t && msgClass x.msg == cls)
    let s := { s with egress := s.egress ++ [{ o with waiting := !go }] }
    if go then s.putPacket t o.dst o.msg else s

/-- Send a message to a package (15 R329, R345, R346): at once within this package. -/
def State.send (s : State) (dst : BitVec 12) (m : Msg) : State :=
  if dst = s.pkg then s.postMsg m else s.sendOut { dst := dst, msg := m, waiting := true, transit := false }

/-- A request that must follow earlier reads of its instance: a write is never applied before them (09 R193, 15 R335). -/
def State.readsFirst (s : State) (m : Msg) : Bool := match m with
  | .request r => r.origin == s.pkg && r.core < 8192 && (match r.kind with
    | .store _ _ _ _ _ | .atomic _ _ _ _ _ => (s.core r.core).outst.any (fun o => o.read && o.inst == r.inst && o.serial < r.serial)
    | _ => false)
  | _ => false

/-- Send a remote request of this package; one that must follow a read waits in egress, or here. -/
def State.sendRequest (s : State) (dst : BitVec 12) (r : RemoteReq) : State :=
  if dst ≠ s.pkg && s.readsFirst (.request r) then
    { s with egress := s.egress ++ [{ dst := dst, msg := .request r, waiting := true, transit := false }] }
  else s.send dst (.request r)

/-- Try the waiting messages again, in order: after a retraining, a credit, a route or a read. Streams go on first. -/
def State.releaseEgress (s : State) : State :=
  let s := s.trunks.foldl (fun s t => t.2.stream.foldl (fun s c => s.pump t.1 (BitVec.ofNat 2 c.1) 8) s) s
  s.egress.foldl (fun s o =>
    if o.waiting && !s.readsFirst o.msg then s.sendOut o else { s with egress := s.egress ++ [o] }) { s with egress := [] }

/-- Credit that was withheld, or is owed, goes back by link-control flits (R343): after a hold-queue entry or a remote-miss
slot is free. -/
def State.giveCredit (s : State) : State := s.trunks.foldl (fun s t =>
  t.2.owed.foldl (fun s p =>
    if p.2 = 0 ∨ (p.1 = 0 ∧ s.withheld) then s
    else
      let x := s.trunk t.1
      (s.setTrunk t.1 { x with owed := x.owed.erase p.1 }).emit
        (.link t.1 x.rxSeq false (BitVec.ofNat 12 (satTo 4095 p.2)) (BitVec.ofNat 2 p.1))) s) s

/-- A request fails at this package, its target (15 R326, R330). -/
def State.failRequest (s : State) (r : RemoteReq) (code : BitVec 8) : State :=
  (failMsgs r code (packetFirst r) r.addr).foldl (fun s x => s.send x.1 x.2) s

/-! ## Curtains of the device (20 R416) -/

/-- Change the recast of a role. -/
def State.updRecast (s : State) (role : Nat) (f : Recast → Recast) : State :=
  let r := s.role role
  s.setRole role { r with recast := r.recast.map f }

/-- A curtain is settled: accepted, or refused with QGONE or LINK, which fumarole's log counts when it was forwarded. When
every forwarded one is, the install follows. -/
def State.settled (s : State) (role : Nat) (id : BitVec 32) (code : BitVec 8) : State :=
  match (s.role role).recast with
  | none => s
  | some r =>
    let counted := r.outputs.contains id && code != 0
    let s := if counted then { s with refusals := s.refusals + 1 } else s
    let s := s.updRecast role (fun r => { r with inputs := r.inputs.filter (· ≠ id), outputs := r.outputs.filter (· ≠ id) })
    match (s.role role).recast with
    | some r => if r.forwarded ∧ r.outputs = [] ∧ !r.installing then
        (s.updRecast role (fun r => { r with installing := true })).post 0 (.recastInstall role)
      else s
    | none => s

/-- A push that a service made for itself and that is refused: a report to fumarole, as of a core without a fault row (06
R138; 22 R439; log 65). -/
def State.serviceReport (s : State) (qid : BitVec 32) (code : BitVec 8) : State :=
  s.appendFumarole 0 (faultItem 0 (qid.setWidth 64) (qid.setWidth 64) code 0 true 0)

/-- A refused push: the report to the pushing core (R138), and the LOST bit for a break notice (05 R120); a curtain of the
device is pushed again after QFULL, and is else settled (20 R416); a refused cue-fault item is counted (15 R332). -/
def State.pushRefused (s : State) (core : Nat) (curtain notice : Bool) (qid : BitVec 32) (code : BitVec 8) : State :=
  if core = byNetwork then { s with netRefusals := s.netRefusals + 1 }
  else if core = byService then s.serviceReport qid code
  else if curtain then (if code = cQFULL then s.post 1024 (.curtainRetry core qid) else s.settled core qid code)
  else
    let s := if notice then s.updCore core (fun x => { x with dbgctl := x.dbgctl ||| 2 }) else s
    s.report core code (qid.setWidth 64) (qid.setWidth 64)

/-- A push reaches its queue's cluster or package: accepted, or refused and reported; its credit or acknowledgement
returns. -/
def State.pushArrives (s : State) (p : Push) : State :=
  let res := if p.core = byNetwork then s.acceptNote (qkeyOf p.qid) p.item p.domain
    else s.acceptPush (qkeyOf p.qid) p.item p.domain p.checked
  let code : BitVec 8 := match res with
    | .ok _ => 0
    | .error c => c
  let s := match res with
    | .ok t => t
    | .error _ => s
  if p.srcPkg ≠ s.pkg then s.send p.srcPkg (.ack { core := p.core, serial := p.serial, code := code, where_ := p.qid.setWidth 64, data := [], at_ := 0 })
  else
    let s := if p.curtain then s else s.post 0 (.flowCreditReturn p.core p.qid)
    if code = 0 then s else s.pushRefused p.core p.curtain p.notice p.qid code

/-- A pending happening that is a push of core `c` of this package, issued before push `limit`. -/
def State.pendingPush (s : State) (c : CoreId) (limit : Nat) (i : Instr) : Option Push := match i with
  | .pushArrival p => if p.srcPkg = s.pkg ∧ p.core = c ∧ !p.curtain ∧ p.serial < limit then some p else none
  | _ => none

/-- The pushes of a core that are on their way to other clusters arrive, oldest first: what orders against them, and
later pushes, come after (06 R143, R144). -/
def State.flushPushes (s : State) (c : CoreId) (limit : Nat) : State :=
  let ps := s.happenings.filterMap (fun h => s.pendingPush c limit h.2)
  let s := { s with happenings := s.happenings.filter (fun h => (s.pendingPush c limit h.2).isNone) }
  ps.foldl (fun s p => s.pushArrives p) s

end Sys2Proof.Machine
end

