-- ==== Sys2Proof/Machine/Operands.lean ====
section
/-!
DEFINITION. Memory operands: the address checks (01 R15, R16; 04 R90; 08 R161), translation (08 R170–R176), loads and
the value record (09 R210), the store buffer (08 R167), and what an ordering waits for (09 R192–R200).
-/
namespace Sys2Proof.Machine

/-! ## Address checks -/

/-- Where an address points once its checks pass: a virtual address, or a place. -/
inductive Loc where
  | virt (va : Nat)
  | place (p : Nat)
  deriving DecidableEq, Repr

/-- Offset bits that no sub-field of Table 1.5 names. -/
def unnamedBits (space off : Nat) : Bool :=
  match space with
  | 1 => off / 2 ^ 27 % 2 ^ 20 ≠ 0
  | 2 => off / 2 ^ 22 % 2 ^ 21 ≠ 0
  | 3 => off / 2 ^ 14 % 2 ^ 21 ≠ 0
  | 6 => off / 2 ^ 14 ≠ 0
  | 7 => off / 2 ^ 22 ≠ 0
  | 8 => off / 2 ^ 27 ≠ 0
  | _ => false

/-- The place that a checked offset of a physical space names, short forms taken from core `c`. -/
def placeIn (c : CoreId) (space off : Nat) : Nat :=
  match space with
  | 6 => tcmPlace c off
  | 7 => spadPlace (clusterOf c) off
  | 8 => sramPlace (dieOf c) off
  | k => k * spaceSize + off

/-- R15, R16 and the frame area, for an access by core `c` at a level, of this package; then R161 when `near` says
that the access reaches only the issuing package. None: ACCESS. -/
def State.resolve (s : State) (c : CoreId) (svc near : Bool) (addr : Word) : Option Loc :=
  let pkg := s.realPkg (addr.extractLsb' 52 12)
  let space := fieldOf addr 51 48
  let off := fieldOf addr 47 0
  if space = 4 ∨ space ≥ 9 then none
  else if space = 5 ∧ !svc then none
  else if space ≥ 5 ∧ pkg ≠ s.pkg then none
  else if unnamedBits space off then none
  else if (space = 1 ∨ space = 8) ∧ !svc ∧ off % 2 ^ 27 ≥ 0x07C00000 then none
  else if near ∧ pkg ≠ s.pkg then none
  else if space = 0 then some (.virt off)
  else
    let p := placeIn c space off
    if !svc ∧ s.inFrameArea p then none else some (.place p)

/-- The checks of R15 and R16 at issue, without translation, of an address that another package may hold: the spaces that a
request between packages may name (15 R323; 13 R306). -/
def farFields (svc : Bool) (addr : Word) : Bool :=
  let space := fieldOf addr 51 48
  let off := fieldOf addr 47 0
  space ≤ 3 && !unnamedBits space off && !(space == 1 && !svc && off % 2 ^ 27 ≥ 0x07C00000)

/-- `check_address` of an instruction that reaches only this package (01 R15, 08 R161). -/
def checkAddress (addr : Word) : Op Loc := do
  let s ← getState
  match s.resolve s.cur (s.coreSvc s.cur) true addr with
  | some l => pure l
  | none => trap cACCESS addr

/-! ## Page tables (08 R170–R173) -/

abbrev pteV (e : Word) : Bool := e.getLsbD 0
abbrev pteLeaf (e : Word) : Bool := e.getLsbD 1
abbrev pteK (e : Word) : Bool := e.getLsbD 2
abbrev pteW (e : Word) : Bool := e.getLsbD 3
abbrev pteX (e : Word) : Bool := e.getLsbD 4
abbrev pteA (e : Word) : Bool := e.getLsbD 6
abbrev pteD (e : Word) : Bool := e.getLsbD 7
abbrev pteCow (e : Word) : Bool := e.getLsbD 8

/-- PA of an entry, as a physical address. -/
def ptePA (e : Word) : Nat := fieldOf e 39 12 * 4096

/-- Reserved bits, bits below the alignment, and bits a pointer leaves zero (08 R171). -/
def reservedNonzero (e : Word) (lvl : Nat) : Bool :=
  fieldOf e 51 40 ≠ 0 || fieldOf e 11 9 ≠ 0 ||
  (match lvl with
    | 1 => fieldOf e 8 2 ≠ 0 || fieldOf e 15 12 ≠ 0
    | 2 => if pteLeaf e then fieldOf e 24 12 ≠ 0 else fieldOf e 8 2 ≠ 0
    | _ => fieldOf e 15 12 ≠ 0)

/-- What a walk finds: a leaf with its level and its own address, or why and at which level it stopped. -/
inductive Walked where
  | leaf (e : Word) (lvl : Nat) (at_ : Nat)
  | stopped (why : PageWhy) (lvl : Nat)
  deriving DecidableEq, Repr

/-- One table entry, as the walker reads it at its home; an uncorrectable error makes it a bad entry (22 R442). -/
def State.tableEntry (s : State) (pa : Nat) : Option Word :=
  let p := s.redirect pa
  if (s.badWord p 8).isSome then none else some (word (s.peek p 8))

/-- The walk of R173 up to the permission checks. -/
def State.walk (s : State) (dom : BitVec 12) (va : Nat) : Walked :=
  let root := s.devGet (rootReg dom)
  if !root.getLsbD 0 then .stopped .badRoot 0 else
  match s.tableEntry (fieldOf root 39 13 * 8192 + 8 * (va / 2 ^ 38 % 1024)) with
  | none => .stopped .badEntry 1
  | some e1 =>
    if !pteV e1 then .stopped .absent 1
    else if pteLeaf e1 || reservedNonzero e1 1 then .stopped .badEntry 1 else
    let a2 := ptePA e1 + 8 * (va / 2 ^ 25 % 8192)
    match s.tableEntry a2 with
    | none => .stopped .badEntry 2
    | some e2 =>
      if !pteV e2 then .stopped .absent 2
      else if reservedNonzero e2 2 then .stopped .badEntry 2
      else if pteLeaf e2 then .leaf e2 2 a2 else
      let a3 := ptePA e2 + 8 * (va / 2 ^ 16 % 512)
      match s.tableEntry a3 with
      | none => .stopped .badEntry 3
      | some e3 =>
        if !pteV e3 then .stopped .absent 3
        else if !pteLeaf e3 || reservedNonzero e3 3 then .stopped .badEntry 3
        else .leaf e3 3 a3

/-- The places of the entries that a walk reads, in order. -/
def State.tablePlaces (s : State) (dom : BitVec 12) (va : Nat) : List Nat :=
  let root := s.devGet (rootReg dom)
  if !root.getLsbD 0 then [] else
  let a1 := fieldOf root 39 13 * 8192 + 8 * (va / 2 ^ 38 % 1024)
  match s.tableEntry a1 with
  | none => [s.redirect a1]
  | some e1 =>
    if !pteV e1 || pteLeaf e1 || reservedNonzero e1 1 then [s.redirect a1] else
    let a2 := ptePA e1 + 8 * (va / 2 ^ 25 % 8192)
    match s.tableEntry a2 with
    | none => [s.redirect a1, s.redirect a2]
    | some e2 =>
      if !pteV e2 || reservedNonzero e2 2 || pteLeaf e2 then [s.redirect a1, s.redirect a2]
      else [s.redirect a1, s.redirect a2, s.redirect (ptePA e2 + 8 * (va / 2 ^ 16 % 512))]

/-- The uncorrectable entry that a walk meets (22 Table 22.5). One that ECC_ERROR named is in the log already. -/
def State.walkBad (s : State) (dom : BitVec 12) (va : Nat) : Option EccErr :=
  if s.injected.isEmpty then none else
  (s.tablePlaces dom va).findSome? (fun p => (s.badWord p 8).bind (fun b =>
    if b.inj then some (s.eccAt b (s.globalOf p) dom (.pte (BitVec.ofNat 40 p))) else none))

/-- The correctable errors of the entries that a walk read are corrected and logged (22 R442). -/
def State.walkScrub (s : State) (dom : BitVec 12) (va : Nat) : State :=
  if s.injected.isEmpty then s else (s.tablePlaces dom va).foldl (fun s p => s.scrub p 8 (s.globalOf p) dom) s

/-- The physical address a leaf gives (08 R173). -/
def leafPA (e : Word) (large : Bool) (va : Nat) : Nat :=
  if large then ptePA e / 2 ^ 25 * 2 ^ 25 + va % 2 ^ 25 else ptePA e / 2 ^ 16 * 2 ^ 16 + va % 2 ^ 16

/-- Permission of a leaf for an access (08 R173): none when it is given. -/
def denied (e : Word) (kind : Kind) (lvl : Nat) (p : PageFault) : Option Stop :=
  match kind with
  | .read => if pteK e then none else some (.trap cACCESS p.va)
  | .fetch => if pteX e then none else some (.trap cACCESS p.va)
  | .write => if pteW e then none
    else if pteCow e then some (.page { p with why := .cowStore, level := lvl }) else some (.trap cACCESS p.va)

/-! ## TLBs (08 R174, R175) -/

/-- A domain's translation generation. -/
def State.gen (s : State) (dom : BitVec 12) : BitVec 32 := s.gens.get 0 dom.toNat

/-- Does an entry translate the address, under the current generation? -/
def TlbE.hits (e : TlbE) (dom : BitVec 12) (va : Nat) (gen : BitVec 32) : Bool :=
  e.dom == dom && e.gen == gen && e.page == (if e.large then va / 2 ^ 25 else va / 2 ^ 16)

/-- Find an entry, moving it to the most recently used place. -/
def tlbFind (l : List TlbE) (dom : BitVec 12) (va : Nat) (gen : BitVec 32) : Option (TlbE × List TlbE) :=
  match l.find? (fun e => e.hits dom va gen) with
  | some e => some (e, e :: l.filter (fun x => x ≠ e))
  | none => none

/-- Fill an entry; the least recently used one of `cap` goes. An entry for the same page is replaced. -/
def tlbFill (l : List TlbE) (cap : Nat) (e : TlbE) : List TlbE :=
  (e :: l.filter (fun x => !(x.dom == e.dom && x.page == e.page && x.large == e.large))).take cap

/-- A core's TLB for a kind of access. -/
def Core.tlb (x : Core) : Kind → List TlbE
  | .fetch => x.itlb
  | _ => x.dtlb
def Core.setTlb (x : Core) (k : Kind) (l : List TlbE) : Core :=
  match k with
  | .fetch => { x with itlb := l }
  | _ => { x with dtlb := l }

/-- Fill a core's TLB and its cluster's L2 TLB. -/
def State.fillTlbs (s : State) (c : CoreId) (kind : Kind) (e : TlbE) : State :=
  let s := s.updCore c (fun x => x.setTlb kind (tlbFill (x.tlb kind) (if kind = Kind.fetch then 16 else 32) e))
  { s with l2tlb := s.l2tlb.set (clusterOf c) (tlbFill (s.l2tlb.get [] (clusterOf c)) 4096 e) }

/-- Walk for an access, set A and D with an atomic OR at the entry's home, and fill the TLBs with the leaf as found
(08 R173, R174). -/
def State.walkFor (s : State) (c : CoreId) (dom : BitVec 12) (va : Nat) (kind : Kind) (addr : Word) :
    Except Stop (Nat × State) :=
  let p : PageFault := { va := addr, dom := dom, why := .absent, level := 0, kind := kind }
  match s.walk dom va with
  | .stopped why lvl => .error (.page { p with why := why, level := lvl, bad := s.walkBad dom va })
  | .leaf e lvl ea =>
    match denied e kind lvl p with
    | some st => .error st
    | none =>
      let e' := e ||| (if kind = .write then 0xC0 else 0x40)
      let s := s.walkScrub dom va
      let s := if e' = e then s else s.storeAt (s.redirect ea) (bytesOf e' 8)
      let large := lvl == 2
      let entry : TlbE := { dom := dom, page := if large then va / 2 ^ 25 else va / 2 ^ 16, large := large, leaf := e,
                            gen := s.gen dom }
      .ok (leafPA e large va, s.fillTlbs c kind entry)

/-- Translate a virtual address of a domain for an access by core `c` (08 R173–R175): the core's TLB, the L2 TLB, a
walk. A store through an entry cached with D = 0 walks again. -/
def State.translate (s : State) (c : CoreId) (dom : BitVec 12) (va : Nat) (kind : Kind) (addr : Word) :
    Except Stop (Nat × State) :=
  let gen := s.gen dom
  let use := fun (e : TlbE) (s : State) =>
    let lvl := if e.large then 2 else 3
    match denied e.leaf kind lvl { va := addr, dom := dom, why := .cowStore, level := lvl, kind := kind } with
    | some st => Except.error st
    | none => if kind = .write ∧ !pteD e.leaf then s.walkFor c dom va kind addr else .ok (leafPA e.leaf e.large va, s)
  let x := s.core c
  match tlbFind (x.tlb kind) dom va gen with
  | some (e, l) => use e (s.setCore c (x.setTlb kind l))
  | none =>
    match tlbFind (s.l2tlb.get [] (clusterOf c)) dom va gen with
    | some (e, l) =>
      use e ({ s with l2tlb := s.l2tlb.set (clusterOf c) l }.updCore c (fun x =>
        x.setTlb kind (tlbFill (x.tlb kind) (if kind = Kind.fetch then 16 else 32) e)))
    | none => s.walkFor c dom va kind addr

/-- Translate an address of a domain for the acting core. -/
def translateIn (dom : BitVec 12) (l : Loc) (kind : Kind) (addr : Word) : Op Nat := fun s =>
  match l with
  | .place p => .ok (p, s)
  | .virt va => s.translate s.cur dom va kind addr

/-- The place of a checked address, translated in the role's domain when it is virtual. -/
def translate (l : Loc) (kind : Kind) (addr : Word) : Op Nat := do
  let s ← getState
  translateIn (s.coreDom s.cur) l kind addr

/-! ## The store buffer (08 R167) -/

/-- The key by which the buffer matches: a virtual address as issued, or a place (its full form, 08 R164). -/
def Loc.key : Loc → Nat
  | .virt va => va
  | .place p => p

/-- Do an entry and an access name common bytes? Virtual addresses are those of one domain. -/
def StEntry.meets (e : StEntry) (dom : BitVec 12) (key n : Nat) : Bool :=
  e.key < key + n && key < e.key + e.n && (key ≥ spaceSize || e.dom == dom)

/-- The bits that an entry lays over an access of `n` bytes at `key`. -/
def StEntry.over (e : StEntry) (key n : Nat) (v : BitVec 128) : BitVec 128 :=
  let keep := BitVec.allOnes 128 >>> (128 - 8 * n)
  let sh := fun (b : BitVec 128) => if e.key ≥ key then b <<< (8 * (e.key - key)) else b >>> (8 * (key - e.key))
  let m := sh e.bits &&& keep
  (v &&& ~~~m) ||| (sh e.value &&& m)

/-- What a read by the core returns: the memory's bytes under the buffered writes, latest last (09 R191). -/
def Core.overlay (x : Core) (dom : BitVec 12) (key n : Nat) (v : BitVec 128) : BitVec 128 :=
  x.stbuf.foldl (fun v e => if e.meets dom key n then e.over key n v else v) v

/-- Apply the entries of a list, oldest first, and take them out of the buffer. -/
def State.applyEntries (s : State) (c : CoreId) (l : List StEntry) : State :=
  l.foldl (fun s e =>
    (s.updCore c (fun x => { x with stbuf := x.stbuf.filter (fun y => y.id ≠ e.id) })).arrive e) s

/-- The entries that must be applied with entry `id`: it, and earlier ones that share bytes (08 R167). -/
def Core.chain (x : Core) (id : Nat) : List StEntry :=
  match x.stbuf.find? (fun e => e.id == id) with
  | none => []
  | some e => ((x.stbuf.takeWhile (fun y => y.id ≠ id)).reverse).foldl (fun acc y =>
      if acc.any (fun z => z.meets y.dom y.key y.n) then y :: acc else acc) [e]

/-- An earlier read of the entry's instance is still on its way: no write is applied before it (09 R193, 15 R335). -/
def Core.heldBack (x : Core) (e : StEntry) : Bool := x.outst.any (fun o => o.read && o.inst == e.inst && o.serial < e.id)

/-- The entry cannot be applied yet: an entry of its chain is held back, or its unit is not ready. -/
def State.stuck (s : State) (c : CoreId) (e : StEntry) : Bool :=
  ((s.core c).chain e.id).any (fun y => (s.core c).heldBack y || !s.canArrive y)

/-- Drain the core's store buffer: every earlier write that can be is applied at its point. -/
def State.drain (s : State) (c : CoreId) : State := s.applyEntries c ((s.core c).stbuf.filter (fun e => !s.stuck c e))

/-- The entries that `f` names, with their chains. -/
def Core.chains (x : Core) (f : StEntry → Bool) : List StEntry := ((x.stbuf.filter f).flatMap (fun e => x.chain e.id)).eraseDups

/-- A remote access of the running instance to common bytes of this package is still on its way: program order makes a
later access wait (09 R192, 15 R335). -/
def State.farMeets (s : State) (key n : Nat) : Bool :=
  s.me.outst.any (fun o => o.inst == s.me.inst.id && o.store && o.qid.isNone && s.realPkg (o.addr.extractLsb' 52 12) == s.pkg &&
    (match s.resolve s.cur true false o.addr with
      | some l => l.key < key + n && key < l.key + 8
      | none => false))

/-- A contribution of the running instance to common bytes is still on its way: it is a write (09 R192, R206). -/
def Core.contribMeets (x : Core) (pa n : Nat) : Bool :=
  x.contribs.any (fun y => y.inst == x.inst.id && decide (y.addr < pa + n) && decide (pa < y.addr + 8))

/-- A store of the core to the page of a virtual address under another translation: an access under a newer one is applied
after it (08 R182). -/
def StEntry.older (e : StEntry) (dom : BitVec 12) (va pa : Nat) : Bool :=
  e.dom == dom && decide (e.key < spaceSize) && e.pa + va != pa + e.key &&
    (e.key / 2 ^ 16 == va / 2 ^ 16 ||
      (e.key / 2 ^ 25 == va / 2 ^ 25 && e.pa % 2 ^ 25 == e.key % 2 ^ 25 && pa % 2 ^ 25 == va % 2 ^ 25))

/-- The stores of a core that are queued at MOVING pages. -/
def State.queuedStores (s : State) (c : CoreId) : List StEntry := s.migrations.flatMap (fun m => m.queued.filterMap (fun q => match q with
  | .store e => if e.src = c then some e else none
  | _ => none))

/-- Buffered stores that an access of core `c` is applied after: those that share bytes with it where `also` says so, and
those to its page under an older translation. -/
def State.behind? (s : State) (c : CoreId) (l : Loc) (pa n : Nat) (also : Bool) (e : StEntry) : Bool :=
  (also && e.meets (s.coreDom c) l.key n) || (match l with
    | .virt va => e.older (s.coreDom c) va pa
    | .place _ => false)

/-- An access of the running instance is barred by its remote accesses to common bytes (09 R192), or by stores of the core
that go before it and are held back, or queued at another page than where it would queue itself (08 R181). -/
def State.barred (s : State) (l : Loc) (pa n : Nat) (also : Bool) : Bool :=
  s.farMeets l.key n ||
    (s.queuedStores s.cur).any (fun e => s.behind? s.cur l pa n also e && !(match s.movingAt (s.redirect pa) with
      | some m => inFrame m.old m.cmd.large e.pa
      | none => false)) ||
    s.me.stbuf.any (fun e => s.behind? s.cur l pa n also e && s.stuck s.cur e)

/-- An access of the running instance must wait for earlier ones: what bars it, or a contribution to common bytes. -/
def State.mustWait (s : State) (l : Loc) (pa n : Nat) (also : Bool) : Bool := s.barred l pa n also || s.me.contribMeets pa n

/-- The buffered stores that go before an access are applied. -/
def State.applyBefore (s : State) (l : Loc) (pa n : Nat) (also : Bool) : State :=
  s.applyEntries s.cur (s.me.chains (fun e => s.behind? s.cur l pa n also e))

/-- Program order at an access (09 R192; 08 R182): it waits for what must be performed before it, and buffered stores that go
before it are applied. `also`: those that share bytes with it too, for an access that does not look in the buffer. -/
def inOrder (l : Loc) (pa n : Nat) (also : Bool) : Op Unit := do
  let s ← getState
  if s.mustWait l pa n also then waitHere else setState (s.applyBefore l pa n also)

/-- Post a store of `n` bytes into the buffer; a full buffer waits at issue (08 R167). -/
def bufferStore (l : Loc) (pa n : Nat) (value bits : BitVec 128) : Op Unit := do
  inOrder l pa n false
  let s ← getState
  let c := s.cur
  if s.me.stbuf.length ≥ 8 then waitHere
  else
    let e : StEntry := { src := c, id := s.nextId, inst := s.me.inst.id, dom := s.coreDom c, key := l.key, pa := pa, n := n,
                         value := value, bits := bits }
    setState ((({ s with nextId := s.nextId + 1 }).updCore c (fun x => { x with stbuf := x.stbuf ++ [e] })).post 0 (.storeApply c s.nextId))

/-- A plain store of the low `n` bytes. -/
def bufferPlain (l : Loc) (pa n : Nat) (value : BitVec 128) : Op Unit :=
  let m := BitVec.allOnes 128 >>> (128 - 8 * n)
  bufferStore l pa n (value &&& m) m

/-- The oldest entry is applied when the buffer is full: a wide access takes its parts in turn. -/
def makeRoom : Op Unit := do
  let s ← getState
  if s.me.stbuf.length ≥ 8 then
    match s.me.stbuf with
    | e :: _ => if s.stuck s.cur e then waitHere else setState (s.applyEntries s.cur [e])
    | [] => pure ()
  else pure ()

/-! ## Loads and the value record (09 R210) -/

/-- The bytes [lo, lo + n) of a doubleword as a mask. -/
def byteMask (lo n : Nat) : BitVec 8 := (BitVec.ofNat 8 (2 ^ n - 1)) <<< lo

/-- Each byte of `m` that is set, spread over its 8 bits. -/
def spread (m : BitVec 8) : Word := (List.range 8).foldl (fun w i => if m.getLsbD i then w ||| (0xFF#64 <<< (8 * i)) else w) 0

/-- The record after a read of `n` bytes at place `p`: four doublewords, the most recent first. -/
def noteRead (r : List Seen) (p n : Nat) (v : BitVec 128) : List Seen :=
  ((List.range ((p % 8 + n + 7) / 8)).foldl (fun r i =>
    let dw := p - p % 8 + 8 * i
    let lo := if i = 0 then p % 8 else 0
    let cnt := (if dw + 8 ≤ p + n then dw + 8 else p + n) - (dw + lo)
    let m := byteMask lo cnt
    let value := dwordAt (v <<< (8 * (p % 8))) i
    let old := (r.find? (fun x => x.dw == dw)).getD { dw := dw, mask := 0, value := 0 }
    let new : Seen := { dw := dw, mask := old.mask ||| m, value := (old.value &&& ~~~(spread m)) ||| (value &&& spread m) }
    new :: r.filter (fun x => x.dw ≠ dw)) r).take 4

/-- Record a read of the running instance, at the place where its page stands (08 R181). -/
def recordRead (p n : Nat) (v : BitVec 128) : Op Unit := do
  let s ← getState
  modMe (fun x => { x with inst := { x.inst with record := noteRead x.inst.record (s.redirect p) n v } })

/-- A load is sampled by the monitors of its core's latency (22 R449); how long it took is open (log 73). -/
def sampleLoad : Op Unit := modState (fun s => s.samples 1 (s.cur % 256) (some (clusterOf s.cur)) (Config.freeWord s.tick).toNat)

/-- Read `n` bytes (1–16) of a translated address, through the store buffer; no record. -/
def readLoc (l : Loc) (pa n : Nat) (addr : Word) : Op (BitVec 128) := do
  inOrder l pa n false
  let s ← getState
  let v ← readPlace pa n addr (s.coreDom s.cur)
  let x ← getMe
  pure (x.overlay (s.coreDom s.cur) l.key n (BitVec.ofNat 128 v))

/-- A load of `n` bytes (08 R166): the checks in order, the data, the record. -/
def loadFrom (addr : Word) (n : Nat) : Op (BitVec 128) := do
  let l ← checkAddress addr
  check (addr.toNat % n == 0) cALIGN addr
  let pa ← translate l .read addr
  let v ← readLoc l pa n addr
  recordRead pa n v
  sampleLoad
  pure v

/-- A store of the low `n` bytes of a value (08 R166). -/
def storeTo (addr : Word) (n : Nat) (value : BitVec 128) : Op Unit := do
  let l ← checkAddress addr
  check (addr.toNat % n == 0) cALIGN addr
  let pa ← translate l .write addr
  bufferPlain l pa n value

/-! ## Ranges (06 R147, R150; 09 R196) -/

/-- A part of a range: its address, its bytes, its location and its place. -/
structure Part where
  addr : Word
  off  : Nat
  n    : Nat
  loc  : Loc
  pa   : Nat
  deriving DecidableEq, Repr

/-- Where the 16-byte-aligned parts of `n` bytes at `addr` begin, as offsets, and how long they are (09 R196). -/
def partsOf (addr n : Nat) : List (Nat × Nat) :=
  ((List.range ((addr % 16 + n + 15) / 16)).map (fun i =>
    let lo := if i = 0 then 0 else 16 * i - addr % 16
    let hi := if 16 * (i + 1) - addr % 16 < n then 16 * (i + 1) - addr % 16 else n
    (lo, hi - lo)))

/-- Check and translate every part of a range before anything moves. -/
def mapRange (addr : Word) (n : Nat) (kind : Kind) : Op (List Part) :=
  (partsOf addr.toNat n).mapM (fun p => do
    let a := addr + word p.1
    let l ← checkAddress a
    let pa ← translate l kind a
    pure { addr := a, off := p.1, n := p.2, loc := l, pa := pa })

/-- Read a mapped range: bytes lowest first. `note` puts the reads into the value record. -/
def readRange (ps : List Part) (note : Bool) : Op (List Byte) := do
  let bs ← ps.mapM (fun p => do
    let v ← readLoc p.loc p.pa p.n p.addr
    if note then recordRead p.pa p.n v
    pure (bytesOf v p.n))
  pure bs.flatten

/-- Write a mapped range, part by part. -/
def writeRange (ps : List Part) (bs : List Byte) : Op Unit :=
  ps.forM (fun p => do
    makeRoom
    bufferPlain p.loc p.pa p.n (BitVec.ofNat 128 (natOfBytes ((bs.drop p.off).take p.n))))

/-- Read `n` bytes like a load, for a descriptor or a payload that must be aligned to `al`. -/
def loadRange (addr : Word) (n al : Nat) : Op (List Byte) := do
  let _ ← checkAddress addr
  check (addr.toNat % al == 0) cALIGN addr
  let ps ← mapRange addr n .read
  readRange ps false

/-! ## Ordering (09 R192–R200) -/

/-- An outstanding access is one to this package: no push, and its address names this package. -/
def State.homely (s : State) (o : Outst) : Bool := o.qid.isNone && s.realPkg (o.addr.extractLsb' 52 12) == s.pkg

/-- An ordering at a scope must wait for an access of an instance (09 R194, R197, R200; 15 R335): from `.ENS` to `.PKG` for
what is performed in this package, at `.SYS` for every one; `acq`: for reads alone. Local reads are performed in order, so
what is left is remote requests, but for pushes to the queue `but`; contributions on their way; stores queued at a MOVING
page; and buffered ones that cannot be applied. -/
def State.pending (s : State) (c : CoreId) (inst scope : Nat) (acq : Bool) (but : Option (BitVec 32)) : Bool :=
  let x := s.core c
  scope ≠ 0 &&
    (x.outst.any (fun o => o.inst == inst && (if acq then o.read else o.store) && (scope ≥ 5 || s.homely o) &&
        !(o.qid.isSome && o.qid == but)) ||
      (!acq && (x.contribs.any (fun y => y.inst == inst) || (s.queuedStores c).any (fun e => e.inst == inst) ||
        x.stbuf.any (fun e => e.inst == inst && s.stuck c e))))

/-- The wait of an ordering that pushes to one queue do not concern. -/
def waitBut (scope : Nat) (but : Option (BitVec 32)) : Op Unit := do
  if scope = 0 then pure ()
  else
    let s ← getState
    if s.pending s.cur s.me.inst.id scope false but then waitHere
    else
      let t := (s.flushPushes s.cur s.nextId).drain s.cur
      if t.pending t.cur t.me.inst.id scope false but then waitHere else setState t

/-- `wait_performed` of every earlier access, at a scope (09 R194, R200): nothing beyond the core for `.CORE`; else the
pushes on their way arrive and the buffered writes are applied at their points. -/
def waitPerformed (scope : Nat) : Op Unit := waitBut scope none

/-! ## Waits that end (04 R92, R461) -/

/-- The instances of a core that wait as `f` says. -/
def State.waiters (s : State) (c : CoreId) (f : Wait → Bool) : List Nat :=
  let x := s.core c
  let ids := x.held.map (·.inst.id) ++ (match x.cond with
    | .parked _ | .stopped _ => [x.inst.id]
    | _ => [])
  ids.filter (fun i => match s.waitOf c i with
    | some w => f w
    | none => false)

/-- The ordering waits of a core that are over are posted to end (09 R200). -/
def State.wakeOrder (s : State) (c : CoreId) : State :=
  (s.waiters c (fun w => match w with
    | .hw (.order _ _) => true
    | _ => false)).foldl (fun s i => match s.waitOf c i with
      | some (.hw (.order scope acq)) => if s.pending c i scope acq none then s else s.postOnce 0 (.orderWaitEnd c i)
      | _ => s) s

/-- A slot or a cue-table entry is free: the instances of the core that wait for one become ready (15 R324). -/
def State.wakeSlots (s : State) (c : CoreId) : State :=
  (s.waiters c (fun w => w == .hw .slot)).foldl (fun s i => s.endWait c i id) s

/-- An outstanding slot is freed (15 R324); its time is sampled (22 R449), and a request that waited for a read leaves. -/
def State.freeSlot (s : State) (c : CoreId) (serial : Nat) : State :=
  match (s.core c).outst.find? (fun o => o.serial == serial) with
  | none => s
  | some o =>
    let s := s.updCore c (fun x => { x with outst := x.outst.filter (fun o => o.serial ≠ serial) })
    let s := ((s.wakeSlots c).wakeOrder c).samples 6 (c % 256) (some (clusterOf c)) ((s.now - o.at_) / 2)
    if o.read then s.releaseEgress else s

/-! ## The next instruction of a core, for the waits of 960 cycles -/

/-- The word at an address and its place, as translation stands. -/
def State.wordAt (s : State) (c : CoreId) (pc : Word) : Option IWord :=
  match s.resolve c (s.coreSvc c) true pc with
  | some (.virt va) => match s.translate c (s.coreDom c) va .fetch pc with
    | .ok (pa, _) => some (BitVec.ofNat 32 (s.peek (s.redirect pa) 4))
    | .error _ => none
  | _ => none

abbrev wordMajor (w : IWord) : Nat := fieldOf w 31 26
abbrev wordFunc (w : IWord) : Nat := fieldOf w 10 6
abbrev wordD (w : IWord) : Reg := w.extractLsb' 21 5
abbrev wordA (w : IWord) : Reg := w.extractLsb' 16 5
abbrev wordB (w : IWord) : Reg := w.extractLsb' 11 5

/-- The instruction at a core's pc: its prefix, if it has one (02 R31), and its word. -/
def State.nextWords (s : State) (c : CoreId) : Option (Option IWord × IWord) := match s.wordAt c (s.core c).pc with
  | none => none
  | some w => if wordMajor w = 0x3F then (s.wordAt c ((s.core c).pc + 4)).map (fun v => (some w, v)) else some (none, w)

/-- The running instance's next instruction, when the core runs one. -/
def State.waiting (s : State) (c : CoreId) : Option (Option IWord × IWord) :=
  if (s.core c).cond = .running then s.nextWords c else none

/-- The running instance's next word, when it has no prefix. -/
def State.waitingWord (s : State) (c : CoreId) : Option IWord := match s.waiting c with
  | some (none, w) => some w
  | _ => none

/-- The instance on the core parks with a hardware wait. -/
def State.parkFor (s : State) (c : CoreId) (w : Wait) (e : Instr) : State := (s.park c w).post 0 e

end Sys2Proof.Machine
end

