-- ==== Sys2Proof/Machine/Flags.lean ====
section
/-!
DEFINITION. NFLAGS, NMODE and the system registers (03 R58–R61; 05 R116–R118): how an operation sets flags, and how a
CSR instruction reads and writes a register under the access codes of its fields (00 R5).
-/
namespace Sys2Proof.Machine

/-- An operation sets its flags; they are sticky (03 R59). -/
def raise (f : Flags) : Op Unit := modMe (fun x => { x with nflags := x.nflags ||| f.setWidth 64 })

/-- The modes that the core's instructions run under (03 R60). -/
def modes : Op Modes := fun s => .ok (modesOf s.me.nmode, s)

/-- ROLEID of a core (05 Table 5.11). -/
def State.roleId (s : State) (c : CoreId) : Word :=
  match (s.core c).role with
  | some r => word ((if (s.role r).svc then 2 ^ 32 else 0) + (s.role r).version.toNat * 2 ^ 16 + r % 2 ^ 16)
  | none => 0

/-- The value of system register `num` of the acting core, none when the number is not assigned (05 R116). -/
def State.csr (s : State) (num : Nat) : Option Word :=
  let x := s.me
  match num with
  | 0x001 => some x.nflags
  | 0x002 => some x.nmode
  | 0x010 => some (word (s.now - x.resetAt))
  | 0x011 => some (word s.time)
  | 0x012 => some x.retired
  | 0x020 => some (coordOf s.pkg s.cur)
  | 0x021 => some (s.roleId s.cur)
  | 0x022 => some ((s.coreDom s.cur).setWidth 64)
  | 0x040 => some x.dbgctl
  | 0x041 => some x.dbgq
  | _ => none

/-- The fields of a register that are RW, as a mask (03 Tables 3.5, 3.6). -/
def csrRW (num : Nat) : Word :=
  match num with
  | 0x001 => 0x7F
  | 0x002 => 0x1F
  | _ => 0

/-- The fields that are SVC, as a mask (05 Tables 5.9, 5.12). -/
def csrSVC (num : Nat) : Word :=
  match num with
  | 0x040 => 0x3
  | 0x041 => 0xFFFFFFFFFFFFFFFF
  | _ => 0

/-- Set a system register. -/
def Core.setCsr (x : Core) (num : Nat) (v : Word) : Core :=
  match num with
  | 0x001 => { x with nflags := v }
  | 0x002 => { x with nmode := v }
  | 0x040 => { x with dbgctl := v }
  | 0x041 => { x with dbgq := v }
  | _ => x

end Sys2Proof.Machine
end

