-- ==== Sys2Proof/Machine/Scalar.lean ====
section
/-!
DEFINITION. The scalar instructions (05 R104–R120): register and immediate arithmetic, branches and jumps, system
registers, traps and breaks.
-/
namespace Sys2Proof.Machine

/-! ## Register and immediate operations (R104–R110) -/

/-- R105: an operation at 32 bits, sign-extended, or at 64 bits. -/
def atWidth (w : BitVec 1) (f32 : BitVec 32 → BitVec 32 → BitVec 32) (f64 : Word → Word → Word) (x y : Word) : Word :=
  if w = 1 then (f32 (x.setWidth 32) (y.setWidth 32)).signExtend 64 else f64 x y

/-- Shift amounts take the low five or six bits (R105). -/
def shl {n : Nat} (x : BitVec n) (k : Nat) : BitVec n := x <<< (k % n)
def shr {n : Nat} (x : BitVec n) (k : Nat) : BitVec n := x >>> (k % n)
def sar {n : Nat} (x : BitVec n) (k : Nat) : BitVec n := x.sshiftRight (k % n)
def rotl {n : Nat} (x : BitVec n) (k : Nat) : BitVec n := (x <<< (k % n)) ||| (x >>> (n - k % n))
def rotr {n : Nat} (x : BitVec n) (k : Nat) : BitVec n := (x >>> (k % n)) ||| (x <<< (n - k % n))

/-- DIV: rounded toward zero; by zero −1; the most negative by −1 itself (Table 5.1). -/
def sdivR {n : Nat} (x y : BitVec n) : BitVec n := if y = 0 then BitVec.allOnes n else x.sdiv y
def udivR {n : Nat} (x y : BitVec n) : BitVec n := if y = 0 then BitVec.allOnes n else x / y
def sremR {n : Nat} (x y : BitVec n) : BitVec n := if y = 0 then x else x.srem y
def uremR {n : Nat} (x y : BitVec n) : BitVec n := if y = 0 then x else x % y

/-- The high half of a product. -/
def mulHigh (signed : Bool) (x y : Word) : Word :=
  let p : BitVec 128 := if signed then x.signExtend 128 * y.signExtend 128 else x.setWidth 128 * y.setWidth 128
  p.extractLsb' 64 64

/-- Leading zeros over n bits; n for zero. -/
def clzR {n : Nat} (x : BitVec n) : BitVec n := BitVec.ofNat n (if x = 0 then n else n - 1 - Nat.log2 x.toNat)
/-- Ones over n bits. -/
def popR {n : Nat} (x : BitVec n) : BitVec n := BitVec.ofNat n ((List.range n).countP (fun i => x.getLsbD i))
/-- Trailing zeros over n bits; n for zero. -/
def ctzR {n : Nat} (x : BitVec n) : BitVec n :=
  BitVec.ofNat n (((List.range n).find? (fun i => x.getLsbD i)).getD n)
def brevR (x : Word) : Word := x.reverse
def bswapR (x : Word) : Word := (List.range 8).foldl (fun r i => r ||| ((x >>> (8 * i)) &&& 0xFF) <<< (56 - 8 * i)) 0

/-- A truth value as a register's. -/
abbrev truth (b : Bool) : Word := if b then 1 else 0

/-- An instruction of two sources that writes `s[d]`. -/
def alu (d a b : Reg) (f : Word → Word → Word) : Op Unit :=
  straight 4 (do let x ← rd a; let y ← rd b; wr d (f x y))

def execAdd (d a b : Reg) (w : BitVec 1) (s : State) := run (alu d a b (atWidth w (· + ·) (· + ·))) s
def execSub (d a b : Reg) (w : BitVec 1) (s : State) := run (alu d a b (atWidth w (· - ·) (· - ·))) s
def execAnd (d a b : Reg) (s : State) := run (alu d a b (· &&& ·)) s
def execOr (d a b : Reg) (s : State) := run (alu d a b (· ||| ·)) s
def execXor (d a b : Reg) (s : State) := run (alu d a b (· ^^^ ·)) s
def execSll (d a b : Reg) (w : BitVec 1) (s : State) :=
  run (alu d a b (atWidth w (fun x y => shl x y.toNat) (fun x y => shl x y.toNat))) s
def execSrl (d a b : Reg) (w : BitVec 1) (s : State) :=
  run (alu d a b (atWidth w (fun x y => shr x y.toNat) (fun x y => shr x y.toNat))) s
def execSra (d a b : Reg) (w : BitVec 1) (s : State) :=
  run (alu d a b (atWidth w (fun x y => sar x y.toNat) (fun x y => sar x y.toNat))) s
def execMul (d a b : Reg) (w : BitVec 1) (s : State) := run (alu d a b (atWidth w (· * ·) (· * ·))) s
def execMulh (d a b : Reg) (s : State) := run (alu d a b (mulHigh true)) s
def execMulhu (d a b : Reg) (s : State) := run (alu d a b (mulHigh false)) s
def execDiv (d a b : Reg) (w : BitVec 1) (s : State) := run (alu d a b (atWidth w sdivR sdivR)) s
def execDivu (d a b : Reg) (w : BitVec 1) (s : State) := run (alu d a b (atWidth w udivR udivR)) s
def execRem (d a b : Reg) (w : BitVec 1) (s : State) := run (alu d a b (atWidth w sremR sremR)) s
def execRemu (d a b : Reg) (w : BitVec 1) (s : State) := run (alu d a b (atWidth w uremR uremR)) s
def execSlt (d a b : Reg) (s : State) := run (alu d a b (fun x y => truth (x.slt y))) s
def execSltu (d a b : Reg) (s : State) := run (alu d a b (fun x y => truth (x.ult y))) s
def execSeq (d a b : Reg) (s : State) := run (alu d a b (fun x y => truth (x == y))) s
def execMin (d a b : Reg) (s : State) := run (alu d a b (fun x y => if x.slt y then x else y)) s
def execMax (d a b : Reg) (s : State) := run (alu d a b (fun x y => if x.slt y then y else x)) s
def execMinu (d a b : Reg) (s : State) := run (alu d a b (fun x y => if x.ult y then x else y)) s
def execMaxu (d a b : Reg) (s : State) := run (alu d a b (fun x y => if x.ult y then y else x)) s
def execSelz (d a b c : Reg) (s : State) :=
  run (straight 4 (do let x ← rd a; let y ← rd b; let z ← rd c; wr d (if z = 0 then x else y))) s
def execSelnz (d a b c : Reg) (s : State) :=
  run (straight 4 (do let x ← rd a; let y ← rd b; let z ← rd c; wr d (if z ≠ 0 then x else y))) s
def execClz (d a : Reg) (w : BitVec 1) (s : State) := run (alu d a 0 (atWidth w (fun x _ => clzR x) (fun x _ => clzR x))) s
def execCtz (d a : Reg) (w : BitVec 1) (s : State) := run (alu d a 0 (atWidth w (fun x _ => ctzR x) (fun x _ => ctzR x))) s
def execPopc (d a : Reg) (w : BitVec 1) (s : State) := run (alu d a 0 (atWidth w (fun x _ => popR x) (fun x _ => popR x))) s
def execBrev (d a : Reg) (s : State) := run (alu d a 0 (fun x _ => brevR x)) s
def execBswap (d a : Reg) (s : State) := run (alu d a 0 (fun x _ => bswapR x)) s
def execRol (d a b : Reg) (w : BitVec 1) (s : State) :=
  run (alu d a b (atWidth w (fun x y => rotl x y.toNat) (fun x y => rotl x y.toNat))) s
def execRor (d a b : Reg) (w : BitVec 1) (s : State) :=
  run (alu d a b (atWidth w (fun x y => rotr x y.toNat) (fun x y => rotr x y.toNat))) s
def execAddsh (d a b : Reg) (k : BitVec 2) (s : State) := run (alu d a b (fun x y => x + (y <<< k.toNat))) s

/-- An instruction of one source and an immediate. -/
def aluImm (len : Word) (d a : Reg) (f : Word → Word) : Op Unit := straight len (do let x ← rd a; wr d (f x))

/-- Table 5.4, for the short form and under an IX prefix (R107). -/
def addImm (x i : Word) : Word := x + i
def sltImm (x i : Word) : Word := truth (x.slt i)
def sltuImm (x i : Word) : Word := truth (x.ult i)

/-- imm13, sign-extended (R107). -/
abbrev imm13 (i : BitVec 13) : Word := i.signExtend 64

def execAddi (d a : Reg) (i : BitVec 13) (s : State) := run (aluImm 4 d a (addImm · (imm13 i))) s
def execAndi (d a : Reg) (i : BitVec 13) (s : State) := run (aluImm 4 d a (· &&& imm13 i)) s
def execOri (d a : Reg) (i : BitVec 13) (s : State) := run (aluImm 4 d a (· ||| imm13 i)) s
def execXori (d a : Reg) (i : BitVec 13) (s : State) := run (aluImm 4 d a (· ^^^ imm13 i)) s
def execSlti (d a : Reg) (i : BitVec 13) (s : State) := run (aluImm 4 d a (sltImm · (imm13 i))) s
def execSltiu (d a : Reg) (i : BitVec 13) (s : State) := run (aluImm 4 d a (sltuImm · (imm13 i))) s

/-- R105 with the amount from the immediate (R108). -/
def shiftImm (w : BitVec 1) (f32 : BitVec 32 → BitVec 32) (f64 : Word → Word) (x : Word) : Word :=
  atWidth w (fun x _ => f32 x) (fun x _ => f64 x) x 0

def execSlli (d a : Reg) (w : BitVec 1) (k : BitVec 6) (s : State) :=
  run (aluImm 4 d a (shiftImm w (shl · k.toNat) (shl · k.toNat))) s
def execSrli (d a : Reg) (w : BitVec 1) (k : BitVec 6) (s : State) :=
  run (aluImm 4 d a (shiftImm w (shr · k.toNat) (shr · k.toNat))) s
def execSrai (d a : Reg) (w : BitVec 1) (k : BitVec 6) (s : State) :=
  run (aluImm 4 d a (shiftImm w (sar · k.toNat) (sar · k.toNat))) s
def execRori (d a : Reg) (w : BitVec 1) (k : BitVec 6) (s : State) :=
  run (aluImm 4 d a (shiftImm w (rotr · k.toNat) (rotr · k.toNat))) s

/-- The field of n = l + 1 bits at p (R109). -/
def bitField (signed : Bool) (p l : BitVec 6) (x : Word) : Word :=
  let n := l.toNat + 1
  let f := (x >>> p.toNat) <<< (64 - n)
  if signed then f.sshiftRight (64 - n) else f >>> (64 - n)

def execBfx (d a : Reg) (p l : BitVec 6) (s : State) := run (aluImm 4 d a (bitField false p l)) s
def execBfxs (d a : Reg) (p l : BitVec 6) (s : State) := run (aluImm 4 d a (bitField true p l)) s
def execLih (d : Reg) (i : BitVec 21) (s : State) := run (straight 4 (wr d (i.setWidth 64 <<< 43))) s

/-! ## Branches and jumps (R111–R113) -/

/-- A conditional branch of `len` bytes with a displacement in words (R111). -/
def branch (len disp : Word) (a b : Reg) (taken : Word → Word → Bool) : Op Unit := do
  let x ← rd a
  let y ← rd b
  advance (if taken x y then disp <<< 2 else len)

def execBeq (a b : Reg) (i : BitVec 13) (s : State) := run (branch 4 (imm13 i) a b (· == ·)) s
def execBne (a b : Reg) (i : BitVec 13) (s : State) := run (branch 4 (imm13 i) a b (· != ·)) s
def execBlt (a b : Reg) (i : BitVec 13) (s : State) := run (branch 4 (imm13 i) a b (fun x y => x.slt y)) s
def execBge (a b : Reg) (i : BitVec 13) (s : State) := run (branch 4 (imm13 i) a b (fun x y => !x.slt y)) s
def execBltu (a b : Reg) (i : BitVec 13) (s : State) := run (branch 4 (imm13 i) a b (fun x y => x.ult y)) s
def execBgeu (a b : Reg) (i : BitVec 13) (s : State) := run (branch 4 (imm13 i) a b (fun x y => !x.ult y)) s

/-- R112. -/
def execJal (d : Reg) (i : BitVec 21) (s : State) :=
  run (do
    let x ← getMe
    wr d (x.pc + 4)
    modMe (fun y => { y with pc := x.pc + (i.signExtend 64 <<< 2) })) s

/-- R113, for a form of `len` bytes. -/
def jumpReg (len imm : Word) (d a : Reg) : Op Unit := do
  let x ← rd a
  let target := x + imm
  check (target &&& 3 == 0) cALIGN target
  let me ← getMe
  wr d (me.pc + len)
  modMe (fun y => { y with pc := target })

def execJalr (d a : Reg) (i : BitVec 13) (s : State) := run (jumpReg 4 (imm13 i) d a) s

/-! ## System registers (R116–R118) -/

/-- The kinds of CSR access: what a write makes of the old value. -/
inductive CsrOp where
  | read | write | set | clear
  deriving DecidableEq, Repr

/-- R118: `mask` has a 1 for each bit the instruction names, `new` is what it would leave. -/
def csrOp (op : CsrOp) (word0 : IWord) (d a : Reg) (num : Nat) : Op Unit := do
  let s ← getState
  let x ← rd a
  match s.csr num with
  | none => trap cILL (word0.setWidth 64)
  | some old =>
    let mask : Word := match op with
      | .read => 0
      | .write => 0xFFFFFFFFFFFFFFFF
      | _ => x
    let new : Word := match op with
      | .read => old
      | .write => x
      | .set => old ||| x
      | .clear => old &&& ~~~x
    let svc := s.coreSvc s.cur
    check (svc || mask &&& csrSVC num == 0) cPRIV (word num)
    let may := csrRW num ||| (if svc then csrSVC num else 0)
    modMe (fun y => y.setCsr num ((old &&& ~~~may) ||| (new &&& may)))
    wr d old

def execCsrr (d u : Reg) (v : BitVec 6) (s : State) :=
  run (straight 4 (csrOp .read (eA 0x07 d 0 u 0x08 v) d 0 (u.toNat * 64 + v.toNat))) s
def execCsrw (d a u : Reg) (v : BitVec 6) (s : State) :=
  run (straight 4 (csrOp .write (eA 0x07 d a u 0x09 v) d a (u.toNat * 64 + v.toNat))) s
def execCsrs (d a u : Reg) (v : BitVec 6) (s : State) :=
  run (straight 4 (csrOp .set (eA 0x07 d a u 0x0A v) d a (u.toNat * 64 + v.toNat))) s
def execCsrc (d a u : Reg) (v : BitVec 6) (s : State) :=
  run (straight 4 (csrOp .clear (eA 0x07 d a u 0x0B v) d a (u.toNat * 64 + v.toNat))) s

/-! ## Traps (R119) -/

/-- TRAP: the fault 0x40 + code with detail `s[a]`. -/
def execTrap (a : Reg) (c : BitVec 6) (s : State) :=
  run (do let x ← rd a; trap (0x40 + c.setWidth 8) x) s

end Sys2Proof.Machine
end

