-- ==== Sys2Proof/Machine/Queues.lean ====
section
/-!
DEFINITION. The queue instructions (06 R145–R154) and the events of the queue hardware (R136–R142).
-/
namespace Sys2Proof.Machine

/-! ## Popping (R131, R146–R149) -/

/-- Does an instance of the fault row have the core (22 R436)? -/
def State.faultRowRuns (s : State) : Bool := (s.me.row s.me.inst.row.toNat).fault

/-- The queue of this package that a handle reaches for the running instance. -/
def State.keyHere (s : State) (h : Reg) : Option QKey := s.handleKey s.cur s.faultRowRuns h

/-- The next available item of the running instance (R131). -/
def State.nextHere (s : State) (h : Reg) : Option (QKey × Copy) := match s.keyHere h with
  | some q => (s.nextItem s.cur s.me.inst.id q).map (fun i => (q, i))
  | none => none

/-- Is the queue of a handle ACTIVE? Of a queue in another package the core cannot know: a free value (log 47). -/
def State.handleActive (s : State) (h : Reg) : Bool := match s.me.handle h with
  | .queue id => if s.qidPkg id = s.pkg then (s.queue (qkeyOf id)).st == .active else Config.freeChoice s.tick
  | .faultQueue => true
  | .unmapped => false

/-- The next item, or the fault of an empty queue (R146). -/
def takeNext (h : Reg) : Op (QKey × Copy) := do
  let s ← getState
  match s.nextHere h with
  | some x => pure x
  | none => trap (if s.handleActive h then cACCESS else cQGONE) (h.setWidth 64)

/-- Remove an item or copy from its queue. -/
def removeItem (x : QKey × Copy) : Op Unit := modState (fun s => s.takeCopy x.1 x.2)

/-- R146. -/
def execQpop (d a b : Reg) (s : State) :=
  run (straight 4 (do
    let x ← takeNext a
    wr d (dwordAt x.2.item.data 0)
    wr b (dwordAt x.2.item.data 1)
    removeItem x)) s

/-- R147. -/
def execQpopM (d a b : Reg) (s : State) :=
  run (straight 4 (do
    let x ← takeNext a
    let addr ← rd b
    check (addr.toNat % 16 == 0) cALIGN addr
    let s ← getState
    let g := (s.queue x.1).g
    let ps ← mapRange addr (16 * g) .write
    writeRange ps (bytesOf x.2.item.data (16 * g))
    removeItem x
    wr d (x.2.item.tag.setWidth 64 ||| word (16 * g)))) s

/-- The tag of the next available item, 16 when there is none (R148). -/
def State.tagHere (s : State) (h : Reg) : Word := match s.nextHere h with
  | some x => x.2.item.tag.setWidth 64
  | none => 16

/-- R148. -/
def execQtag (d a : Reg) (s : State) := run (straight 4 (do let s ← getState; wr d (s.tagHere a))) s

/-- R148. -/
def execQdrop (d a : Reg) (s : State) :=
  run (straight 4 (do
    let s ← getState
    match s.nextHere a with
    | some x => removeItem x
    | none => pure ()
    wr d (s.tagHere a))) s

/-- R149 Table 6.9. -/
def State.countWord (s : State) (h : Reg) : Word := match s.keyHere h with
  | some q =>
    let x := s.queue q
    word ((if s.binds s.cur q then 65536 else 0) + 256 * satTo 255 (x.unowned s.cur).length +
      satTo 255 (x.ownedBy s.me.inst.id).length)
  | none => 0

/-- R149. -/
def execQcount (d a : Reg) (s : State) := run (straight 4 (do let s ← getState; wr d (s.countWord a))) s

/-! ## Pushing (R137, R138, R143, R150, R151) -/

/-- An outstanding slot for a request of the running instance, or the wait at issue (15 R324): the slot's number. -/
def takeSlot (o : Outst) : Op Nat := do
  let s ← getState
  if s.me.outst.length ≥ 64 then waitHere
  else
    setState (({ s with nextId := s.nextId + 1 } : State).updCore s.cur (fun x => { x with outst := x.outst ++
      [{ o with serial := s.nextId, inst := x.inst.id, at_ := s.now }] }))
    pure s.nextId

/-- The release of a push at its queue's scope (R143). -/
def releasePush (scope : Nat) : Op Unit := waitPerformed scope

/-- The scope of a queue of this package, from a core (R143): 2 CLU, 3 DIE, 4 PKG. -/
def queueScope (c : CoreId) (q : QKey) : Nat :=
  if qcluster q = clusterOf c then 2 else if qcluster q / 16 = dieOf c then 3 else 4

/-- The key under which a core counts its pushes in flight to a queue of another package (R137). -/
abbrev farFlight (id : BitVec 32) : Nat := 2 ^ 32 + id.toNat

/-- The flow window toward a queue of another package: 1 to 64 (Table 6.2), and else open (log 22). -/
def windowFar (id : BitVec 32) : Nat := Config.farWindow id % 64 + 1

/-- A push to a queue of another package (15 R323, R324), within its flow window (R137, R138): ordered after the instance's
other accesses (R143), earlier pushes to the queue excepted, which go before it in their order. DESIGN CHOICE (log 95): a
break notice takes an outstanding slot as a `.G` push does. -/
def pushFar (id : BitVec 32) (item : Item) (checked notice : Bool) : Op Unit := do
  let s ← getState
  if s.me.flights.get 0 (farFlight id) ≥ windowFar id then waitHere
  else
    waitBut 5 (some id)
    let n ← takeSlot { serial := 0, inst := 0, store := true, read := false, addr := id.setWidth 64, qid := some id, cue := 0, notice := notice, at_ := 0 }
    modMe (fun x => { x with flights := x.flights.upd 0 (farFlight id) (· + 1) })
    modState (fun s => s.send (s.qidPkg id) (.push { qid := id, item := item, domain := s.coreDom s.cur, checked := checked,
                                                     srcPkg := s.pkg, core := s.cur, serial := n, curtain := false, notice := notice }))

/-- A push to a queue of another cluster of this package, within the flow window (R137). -/
def pushOver (id : BitVec 32) (item : Item) (checked notice : Bool) : Op Unit := do
  let s ← getState
  let q := qkeyOf id
  if s.me.flights.get 0 q ≥ (s.queue q).window then waitHere
  else
    releasePush (queueScope s.cur q)
    modState (fun s =>
      let p : Push := { qid := id, item := item, domain := s.coreDom s.cur, checked := checked, srcPkg := s.pkg,
                        core := s.cur, serial := s.nextId, curtain := false, notice := notice }
      (({ s with nextId := s.nextId + 1 } : State).updCore s.cur (fun x => { x with flights := x.flights.upd 0 q (· + 1) })).post 0 (.pushArrival p))

/-- A push to a queue of the core's own cluster, checked at issue (R138). -/
def pushNear (id : BitVec 32) (item : Item) (checked : Bool) : Op Unit := do
  releasePush 2
  let s ← getState
  match s.acceptPush (qkeyOf id) item (s.coreDom s.cur) checked with
  | .ok s => setState s
  | .error code => trap code (id.setWidth 64)

/-- `push_item` (R150); `checked`: through a handle (R128). -/
def pushItem (id : BitVec 32) (item : Item) (checked : Bool) : Op Unit := do
  let s ← getState
  if s.qidPkg id ≠ s.pkg then pushFar id item checked false
  else if qcluster (qkeyOf id) ≠ clusterOf s.cur then pushOver id item checked false
  else pushNear id item checked

/-- The id that a handle names for a push: the fault handle raises ACCESS (22 R436). -/
def pushHandle (h : Reg) : Op (BitVec 32) := do
  let s ← getState
  match s.me.handle h with
  | .queue id => pure id
  | .faultQueue => trap cACCESS s.openDetail
  | .unmapped => trap cQGONE 0

/-- The id that a push names (R150): a handle's, or with `.G` that of `s[d]`; its reserved bits are zero. -/
def pushId (d : Reg) (g : BitVec 1) : Op (BitVec 32) := do
  let id ← if g = 1 then (do let x ← rd d; pure (x.setWidth 32)) else pushHandle d
  check (!qidReserved id) cQGONE (id.setWidth 64)
  pure id

/-- R39: the tags a program may push. -/
def checkTag (t : BitVec 4) : Op Unit := check (!(t == 8 || t.toNat ≥ 10)) cTAGBAD (t.setWidth 64)

/-- An item of 16 bytes from two registers. -/
def pairItem (t : BitVec 4) (lo hi : Word) : Item := { tag := t, data := (hi ++ lo : BitVec 128).setWidth 1024 }

/-- R150. -/
def execQpush (d a b : Reg) (g : BitVec 1) (t : BitVec 4) (s : State) :=
  run (straight 4 (do
    checkTag t
    let id ← pushId d g
    let x ← rd a
    let y ← rd b
    pushItem id (pairItem t x y) (g == 0))) s

/-- Item size of the queue an id names; of a queue in another package, free (log 47). -/
def State.itemSize (s : State) (id : BitVec 32) : Nat :=
  if s.qidPkg id = s.pkg then (s.queue (qkeyOf id)).g else (Config.freeWord s.tick).toNat % 8 + 1

/-- R150. -/
def execQpushM (d a b : Reg) (g : BitVec 1) (t : BitVec 4) (s : State) :=
  run (straight 4 (do
    checkTag t
    let id ← pushId d g
    let n ← if g = 1 then (do let x ← rd b; pure (fieldOf x 2 0 + 1)) else (do let s ← getState; pure (s.itemSize id))
    let addr ← rd a
    check (addr.toNat % 16 == 0) cALIGN addr
    let bs ← loadRange addr (16 * n) 16
    pushItem id { tag := t, data := BitVec.ofNat 1024 (natOfBytes bs) } (g == 0))) s

/-- R151. -/
def execQmark (d a : Reg) (g : BitVec 1) (s : State) :=
  run (straight 4 (do
    let id ← pushId d g
    let x ← rd a
    pushItem id (pairItem tagCURTAIN x 0) (g == 0))) s

/-! ## Status (R152) -/

/-- R152. -/
def execQhandle (d a : Reg) (s : State) :=
  run (straight 4 (do let x ← getMe; wr d ((x.handleId a).setWidth 64))) s

/-- The status word of a queue (Table 6.10). -/
def Queue.word (x : Queue) : Word :=
  match x.st with
  | .free => 2#64 <<< 62
  | st => Machine.word ((if st = .failed then 2 ^ 62 else 0) + (if x.elastic then 2 ^ 61 else 0) +
      (if x.refill.isSome then 2 ^ 60 else 0) + (if x.spilling then 2 ^ 59 else 0) + x.prio.toNat * 2 ^ 56 +
      x.spill.length % 2 ^ 24 * 2 ^ 32 + x.onchip % 512 * 2 ^ 16 + (x.g - 1) * 2 ^ 8 + (x.cap - 1))

/-- R152, and 22 R436 for the fault handle. -/
def State.statWord (s : State) (h : Reg) : Word := match s.me.handle h with
  | .queue id => if s.qidPkg id = s.pkg then (s.queue (qkeyOf id)).word else Config.freeWord s.tick
  | .faultQueue => word ((s.queue (faultKey s.cur)).onchip * 2 ^ 16 + 7)
  | .unmapped => 2#64 <<< 62

/-- R152. -/
def execQstat (d a : Reg) (s : State) := run (straight 4 (do let s ← getState; wr d (s.statWord a))) s

/-! ## Creation and destruction (R132, R133, R153, R154) -/

/-- A queue holds granules [start, start + n) of its cluster's 57,344. -/
def State.storageFree (s : State) (k : ClusterId) (start n : Nat) : Bool :=
  start + n ≤ 57344 && !s.queues.any (fun q => q.1 / 512 == k && q.2.st != .free && q.1 < 16384 &&
    q.2.granule < start + n && start < q.2.granule + q.2.cap * q.2.g)

/-- The lowest room for n contiguous granules in a cluster (R132; which room is the device's, log 48). -/
def State.storageRoom (s : State) (k : ClusterId) (n : Nat) : Option Nat :=
  (0 :: (s.queues.filter (fun q => q.1 / 512 == k && q.1 < 16384)).map (fun q => q.2.granule + q.2.cap * q.2.g)).find? (fun g => s.storageFree k g n)

/-- The lowest FREE index of a cluster; indices from 500 are the services' in the cluster of theirs (20 R412). -/
def State.freeIndex (s : State) (k : ClusterId) : Option Nat :=
  (List.range 512).find? (fun i => (s.queue (k * 512 + i)).st == .free && !(k == 0 && 500 ≤ i && i < 506))

/-- Every page of a range is mapped and pinned in a domain (R133). -/
def State.pinned (s : State) (dom : BitVec 12) (va n : Nat) : Bool :=
  (List.range ((va % 65536 + n + 65535) / 65536)).all (fun i => match s.walk dom (va / 65536 * 65536 + 65536 * i) with
    | .leaf e _ _ => e.getLsbD 5
    | .stopped _ _ => false)

/-- A page of an ACTIVE queue's caldera is gone, or no longer pinned: the queue hardware notices it (R142), at the end of the
step that took it away (log 82). -/
def State.watchCalderas (s : State) : State :=
  (s.queues.filter (fun q => q.2.st == .active && q.2.elastic && !s.pinned q.2.dom q.2.calBase.toNat (16 * q.2.g * q.2.calItems))).foldl
    (fun s q => s.postOnce 0 (.calderaLoss q.1)) s

/-- The limits of Table 6.2 for a queue of a service-level consumer or another. -/
def Queue.inLimits (x : Queue) (svc : Bool) : Bool :=
  1 ≤ x.g && x.g ≤ 8 && 1 ≤ x.window && x.window ≤ 64 && (x.prio != 7 || svc) &&
  (if x.elastic then 16 ≤ x.cap && x.cap ≤ 256 && x.calItems % 8 == 0 && 8 ≤ x.calItems && x.calItems ≤ 16777208 &&
      x.lowmark + 8 ≤ x.cap && x.calBase.toNat % 128 == 0
   else 1 ≤ x.cap && x.cap ≤ 256 && x.calItems == 0 && x.calBase == 0)

/-- Create a queue in a cluster: the status of R153, or the key. `x` has its consumers. -/
def State.createQueue (s : State) (k : ClusterId) (x : Queue) : Except Nat (QKey × State) :=
  match s.freeIndex k with
  | none => .error 2
  | some i => match s.storageRoom k (x.cap * x.g) with
    | none => .error 1
    | some g => .ok (k * 512 + i, s.setQueue (k * 512 + i) { x with st := .active, granule := g })

/-- The queue a descriptor asks for, and whether the descriptor is valid (Table 6.11). -/
def State.fromDescriptor (s : State) (e : BitVec 256) : ClusterId × Queue × Bool :=
  let f := fieldOf e
  let k := f 87 87 * 16 + f 86 83
  let r := f 79 64
  let role := s.role r
  let g := f 23 16
  let mcast := f 31 31 = 1
  let cores := role.cores.filter (fun c => clusterOf c == k)
  let x : Queue :=
    { elastic := f 52 52 = 1, cap := f 63 56 + 1, g := f 55 53 + 1, window := if f 47 40 = 0 then 4 else f 47 40,
      prio := e.extractLsb' 49 3, role := r, mcast := mcast, group := if mcast then g else 0, steer := f 30 30 = 1,
      dom := e.extractLsb' 0 12, openAll := f 48 48 = 1, calBase := e.extractLsb' 128 64, calItems := f 215 192,
      lowmark := f 39 32, consumers := if mcast then (s.group g).cores else cores }
  let zero := f 255 216 = 0 ∧ f 127 88 = 0 ∧ f 82 80 = 0 ∧ f 29 24 = 0 ∧ f 15 12 = 0
  let roleOk := (Tbl.find? s.roles r).isSome ∧ role.dom = x.dom ∧ cores ≠ []
  let groupOk := !mcast || ((s.group g).valid && (s.group g).cores.all (fun c => clusterOf c == k))
  (k, x, x.inLimits role.svc && zero && roleOk && groupOk)

/-- R153: the status when several apply is the first of BADDESC, NOCALDERA, NOENTRY, NOSPACE (log 48). -/
def execQcreate (d a : Reg) (s : State) :=
  run (straight 4 (do
    needService
    let addr ← rd a
    let bs ← loadRange addr 32 16
    let s ← getState
    let (k, x, good) := s.fromDescriptor (BitVec.ofNat 256 (natOfBytes bs))
    let fail := fun (n : Nat) => wr d (0x8000000000000000 ||| word n)
    if !good then fail 3
    else if x.elastic && !s.pinned x.dom x.calBase.toNat (16 * x.g * x.calItems) then fail 4
    else match s.createQueue k x with
      | .error n => fail n
      | .ok (q, t) => do
        setState t
        wr d ((s.qidOf q).setWidth 64))) s

/-- R154. DESIGN CHOICE (log 98): package 0xFFF of the id is the issuing one, and bits 63:32 of the operand are ignored. -/
def execQdestroy (d a : Reg) (f : BitVec 1) (s : State) :=
  run (straight 4 (do
    needService
    let x ← rd a
    let id : BitVec 32 := x.setWidth 32
    let s ← getState
    let q := qkeyOf id
    if s.qidPkg id ≠ s.pkg ∨ qidReserved id ∨ (s.queue q).st = .free then wr d 2
    else if f = 1 then do
      setState (s.post 0 (.qdestroyEffect q true))
      wr d 0
    else if s.destroyable q then do
      setState { s with queues := s.queues.erase q }
      wr d 0
    else wr d 1)) s

/-! ## Events -/

/-- QDESTROY_EFFECT (R140, R141). -/
def execQdestroyEffect (q : QKey) (force : Bool) (s : State) :=
  happen (if force then s.failQueue q else if s.destroyable q then { s with queues := s.queues.erase q } else s)

/-- An item on its way to an elastic queue while one to an elastic queue of higher priority of the same die waits with it,
from another core: the routers' open slots serve that one first (R127, 15 R348). -/
def State.outranked (s : State) (p : Push) : Bool :=
  let x := s.queue (qkeyOf p.qid)
  p.srcPkg == s.pkg && !p.curtain && x.elastic && s.happenings.any (fun h => match h.2 with
    | .pushArrival p' =>
      let y := s.queue (qkeyOf p'.qid)
      decide (h.1 ≤ s.now) && p'.srcPkg == s.pkg && !p'.curtain && p'.core != p.core && y.elastic && decide (y.prio > x.prio) &&
        qcluster (qkeyOf p'.qid) / 16 == qcluster (qkeyOf p.qid) / 16
    | _ => false)

/-- PUSH_ARRIVAL (R138): the core's earlier pushes arrive first (R144). -/
def execPushArrival (p : Push) (s : State) :=
  happen (if s.outranked p then s.post 0 (.pushArrival p)
    else (if p.srcPkg = s.pkg ∧ !p.curtain then s.flushPushes p.core p.serial else s).pushArrives p)

/-- A core has one push less in flight. -/
def Core.landed (x : Core) (k : Nat) : Core :=
  let n := x.flights.get 0 k
  { x with flights := if n ≤ 1 then x.flights.erase k else x.flights.set k (n - 1) }

/-- FLOW_CREDIT_RETURN (R137). -/
def execFlowCreditReturn (c : CoreId) (qid : BitVec 32) (s : State) := happen (s.updCore c (·.landed (qkeyOf qid)))

/-- A refill of the queue is due (R136). -/
def Queue.due (x : Queue) : Bool :=
  x.st == .active && x.spilling && x.onchip ≤ x.lowmark && !x.spill.isEmpty && x.refill.isNone

/-- Start the refill of a queue: its batch is fixed (R136). -/
def State.startRefill (s : State) (q : QKey) : State :=
  let x := s.queue q
  (s.setQueue q { x with refill := some (if x.spill.length < 8 then x.spill.length else 8), refillAt := s.now }).post 0 (.refillLand q)

/-- REFILL_START (R127, R136): a due refill of the same cluster with a higher priority, or the same and a lower index,
starts first. -/
def execRefillStart (q : QKey) (s : State) :=
  happen (
    let x := s.queue q
    if x.due then
      let ahead := (s.queues.filter (fun y => y.1 / 512 == q / 512 && y.2.due && y.1 != q &&
        (y.2.prio > x.prio || (y.2.prio == x.prio && y.1 < q)))).map (·.1)
      (ahead.foldl (fun s y => s.startRefill y) s).startRefill q
    else s)

/-- REFILL_LAND (R136). -/
def execRefillLand (q : QKey) (s : State) := happen (s.landRefill q)

/-- CALDERA_LOSS (R142): the effects of R141; the number of items goes to the pager's report. -/
def execCalderaLoss (q : QKey) (s : State) :=
  happen (
    let x := s.queue q
    if x.elastic ∧ x.st ≠ .free then (s.emit (.control 1 q x.spill.length)).failQueue q else s)

end Sys2Proof.Machine
end

