-- ==== Sys2Proof/Machine/Tasks.lean ====
section
/-!
DEFINITION. The task instructions (04 R99–R103), the lane claim (11 R225), BREAK (05 R120), and the events of a core:
creation, pre-emption, budget (04 R83, R93, R96).
-/
namespace Sys2Proof.Machine

/-! ## Task instructions -/

/-- R103. -/
def execTend (s : State) := run (modState (fun s => s.endInstance s.cur)) s

/-- The row that an instruction names: VALID, and not the FAULT row where `notFault` says so; else ACCESS (R100). -/
def rowFor (r : BitVec 6) (notFault : Bool) : Op Row := do
  let x ← getMe
  let row := x.row r.toNat
  check (row.valid && !(notFault && row.fault)) cACCESS (r.setWidth 64)
  pure row

/-- R100. -/
def execTpost (d : Reg) (r : BitVec 6) (s : State) :=
  run (straight 4 (do
    let row ← rowFor r true
    if row.pend = 255 then wr d 1
    else do
      modMe (fun x => x.setRow r.toNat { row with pend := row.pend + 1 })
      wr d 0)) s

/-- R100. -/
def execTsetarg (a : Reg) (r : BitVec 6) (s : State) :=
  run (straight 4 (do
    let row ← rowFor r false
    let v ← rd a
    modMe (fun x => x.setRow r.toNat { row with arg := v }))) s

/-- R100: set EN, and the old EN. -/
def enableRow (d : Reg) (r : BitVec 6) (on : Bool) : Op Unit := do
  let row ← rowFor r (!on)
  modMe (fun x => x.setRow r.toNat { row with en := on })
  wr d (truth row.en)

def execTenable (d : Reg) (r : BitVec 6) (s : State) := run (straight 4 (enableRow d r true)) s
def execTdisable (d : Reg) (r : BitVec 6) (s : State) := run (straight 4 (enableRow d r false)) s

/-- R101. -/
def execTstate (d : Reg) (s : State) :=
  run (straight 4 (do let s ← getState; wr d (s.tstate s.cur s.me.inst s.me.vl))) s

/-- R102. -/
def execTcycles (d : Reg) (s : State) :=
  run (straight 4 (do let s ← getState; wr d (word (s.charged s.cur)))) s

/-! ## Lanes (11 R224, R225) -/

/-- Free blocks of an ensemble's pool, lowest first. -/
def Ens.freeBlocks (e : Ens) : List Nat := (List.range 16).filter (fun b => !e.taken.getLsbD b)

/-- Blocks of 16 lanes for a request of `n` lanes. -/
def wantBlocks (n : Word) : Nat := let k := (n.toNat + 15) / 16; if k < 8 then k else 8

/-- The first VCLAIM of an instance (R225). -/
def State.claim (s : State) (n : Word) : State :=
  let e := s.ens (ensOf s.cur)
  let bs := e.freeBlocks.take (wantBlocks n)
  let vl := 16 * bs.length
  (s.setEns (ensOf s.cur) { e with taken := bs.foldl (fun t b => t ||| (1#16 <<< b)) e.taken }).updCore s.cur (fun x =>
    { x with vl := vl, blocks := bs, vregs := Vector.replicate 32 (List.replicate vl 0), masks := Vector.replicate 8 0,
             inst := { x.inst with claimed := true } })

/-- R225. -/
def execVclaim (d a : Reg) (s : State) :=
  run (straight 4 (do
    let n ← rd a
    let x ← getMe
    if x.inst.claimed then pure () else modState (fun s => s.claim n)
    let y ← getMe
    wr d (word y.vl))) s

/-! ## BREAK (05 R120) -/

/-- A notice that is not pushed: DBGCTL.LOST is set and execution continues. -/
def breakLost : Op Unit := do
  modMe (fun x => { x with dbgctl := x.dbgctl ||| 2 })
  advance 4

/-- The instance stops after the notice, its pc at the next instruction. -/
def breakStop : Op Unit := do
  advance 4
  modState (fun s => (s.stopCore s.cur).2)

/-- R120. DESIGN CHOICE (log 95): its notice is a push as R143 and R137 have it, which drains earlier stores and may wait at
issue, though R122 has no instruction of the chapter do so. -/
def execBrk (c : BitVec 6) (s : State) :=
  run (do
    let s ← getState
    let x := s.me
    let id : BitVec 32 := x.dbgq.setWidth 32
    let frame := ((s.stopCore s.cur).1).getD inPlace
    let item := pairItem 0 (coordOf s.pkg s.cur ||| c.setWidth 64 ||| word (frame * 256)) x.pc
    if !x.dbgctl.getLsbD 0 then advance 4
    else if x.dbgq = 0 ∨ qidReserved id then breakLost
    else if s.qidPkg id ≠ s.pkg then do pushFar id item false true; breakStop
    else if qcluster (qkeyOf id) ≠ clusterOf s.cur then do pushOver id item false true; breakStop
    else do
      releasePush 2
      let s ← getState
      match s.acceptPush (qkeyOf id) item (s.coreDom s.cur) false with
      | .ok t => do setState t; breakStop
      | .error _ => breakLost) s

/-! ## Events -/

/-- CREATE_INSTANCE (04 R83). -/
def execCreateInstance (c : CoreId) (s : State) := happen ((s.create c).getD s)

/-- PREEMPT_PRIORITY7 (04 R93). -/
def execPreemptPriority7 (c : CoreId) (s : State) := happen (if (s.core c).preemptable then s.preempt c else s)

/-- The running instance of a core is over its budget (04 R96). -/
def State.overBudget (s : State) (c : CoreId) : Bool :=
  let x := s.core c
  let b := (x.row x.inst.row.toNat).budget
  x.cond == .running && b != 0 && s.charged c ≥ b.toNat * 64

/-- BUDGET_OVERRUN (04 R96). -/
def execBudgetOverrun (c : CoreId) (s : State) :=
  happen (if s.overBudget c then s.takeFault c cBUDGET s.openDetail else s)

end Sys2Proof.Machine
end

