-- ==== Sys2Proof/Machine/Loads.lean ====
section
/-!
DEFINITION. Loads and stores, bit-granular access, invalidation, probe and prefetch (08 R165–R186), and the events of
memory: stores applied, waits of 960 cycles, pager requests, migration (08 R162, R167, R174, R177, R181, R183).
-/
namespace Sys2Proof.Machine

/-! ## Loads and stores (R166) -/

/-- Extend the low `n` bytes of a value. -/
def extendTo (sign : Bool) (n : Nat) (v : BitVec 128) : Word :=
  let x : Word := v.setWidth 64 <<< (64 - 8 * n)
  if sign then x.sshiftRight (64 - 8 * n) else x >>> (64 - 8 * n)

/-- A load of up to 8 bytes into `s[d]`. -/
def loadInto (d a : Reg) (imm : Word) (n : Nat) (sign : Bool) : Op Unit := do
  let x ← rd a
  let v ← loadFrom (x + imm) n
  wr d (extendTo sign n v)

/-- LD.Q: a pair. -/
def loadPair (d a : Reg) (imm : Word) : Op Unit := do
  let x ← rd a
  let v ← loadFrom (x + imm) 16
  wr d (dwordAt v 0)
  wr (nextReg d 1) (dwordAt v 1)

/-- A store of the low `n` bytes of `s[d]`; of the pair for 16. -/
def storeVal (d a : Reg) (imm : Word) (n : Nat) : Op Unit := do
  let x ← rd a
  let lo ← rd d
  let hi ← rd (nextReg d 1)
  storeTo (x + imm) n (hi ++ lo)

def execLdB (d a : Reg) (i : BitVec 13) (s : State) := run (straight 4 (loadInto d a (imm13 i) 1 true)) s
def execLdH (d a : Reg) (i : BitVec 13) (s : State) := run (straight 4 (loadInto d a (imm13 i) 2 true)) s
def execLdW (d a : Reg) (i : BitVec 13) (s : State) := run (straight 4 (loadInto d a (imm13 i) 4 true)) s
def execLdD (d a : Reg) (i : BitVec 13) (s : State) := run (straight 4 (loadInto d a (imm13 i) 8 true)) s
def execLdBu (d a : Reg) (i : BitVec 13) (s : State) := run (straight 4 (loadInto d a (imm13 i) 1 false)) s
def execLdHu (d a : Reg) (i : BitVec 13) (s : State) := run (straight 4 (loadInto d a (imm13 i) 2 false)) s
def execLdWu (d a : Reg) (i : BitVec 13) (s : State) := run (straight 4 (loadInto d a (imm13 i) 4 false)) s
def execLdQ (d a : Reg) (i : BitVec 13) (s : State) := run (straight 4 (loadPair d a (imm13 i))) s
def execStB (d a : Reg) (i : BitVec 13) (s : State) := run (straight 4 (storeVal d a (imm13 i) 1)) s
def execStH (d a : Reg) (i : BitVec 13) (s : State) := run (straight 4 (storeVal d a (imm13 i) 2)) s
def execStW (d a : Reg) (i : BitVec 13) (s : State) := run (straight 4 (storeVal d a (imm13 i) 4)) s
def execStD (d a : Reg) (i : BitVec 13) (s : State) := run (straight 4 (storeVal d a (imm13 i) 8)) s
def execStQ (d a : Reg) (i : BitVec 13) (s : State) := run (straight 4 (storeVal d a (imm13 i) 16)) s

/-! ## Bit-granular access (R168, R169) -/

/-- The byte that a base and a bit offset name. -/
def bitByte (base off : Word) : Word := base + (off >>> 3)
/-- The containing aligned doubleword. -/
def bitDword (base off : Word) : Word := bitByte base off &&& ~~~7
/-- The field's lowest bit in its doubleword. -/
def bitLow (base off : Word) : Nat := fieldOf (bitByte base off) 2 0 * 8 + fieldOf off 2 0

/-- A bit-granular load of a field of w bits. -/
def loadBits (d a b : Reg) (w : Nat) (sign : Bool) : Op Unit := do
  let x ← rd a
  let y ← rd b
  let lo := bitLow x y
  check (lo + w ≤ 64) cALIGN (bitByte x y)
  let v ← loadFrom (bitDword x y) 8
  let f : Word := (v.setWidth 64 <<< (64 - lo - w))
  wr d (if sign then f.sshiftRight (64 - w) else f >>> (64 - w))

/-- A bit-granular store: one masked write; in a scratchpad each word's part is one (R169). -/
def storeBits (d a b : Reg) (w : Nat) : Op Unit := do
  let x ← rd a
  let y ← rd b
  let lo := bitLow x y
  check (lo + w ≤ 64) cALIGN (bitByte x y)
  let addr := bitDword x y
  let l ← checkAddress addr
  let pa ← translate l .write addr
  let v ← rd d
  let m : BitVec 128 := (BitVec.allOnes 128 >>> (128 - w)) <<< lo
  let value : BitVec 128 := (v.setWidth 128 <<< lo) &&& m
  if placeSpace pa = 2 ∧ lo < 32 ∧ lo + w > 32 then
    let low : BitVec 128 := BitVec.allOnes 128 >>> 96
    let up : Loc := match l with
      | .virt va => .virt (va + 4)
      | .place p => .place (p + 4)
    bufferStore l pa 4 (value &&& low) (m &&& low)
    bufferStore up (pa + 4) 4 (value >>> 32) (m >>> 32)
  else bufferStore l pa 8 value m

/-- Post-increment of the bit offset. -/
def bumpBits (b : Reg) (w : Nat) : Op Unit := do
  let y ← rd b
  wr b (y + word w)

def execBld (d a b w : Reg) (s : State) := run (straight 4 (loadBits d a b (w.toNat + 1) false)) s
def execBlds (d a b w : Reg) (s : State) := run (straight 4 (loadBits d a b (w.toNat + 1) true)) s
def execBst (d a b w : Reg) (s : State) := run (straight 4 (storeBits d a b (w.toNat + 1))) s
def execBldp (d a b w : Reg) (s : State) :=
  run (straight 4 (do loadBits d a b (w.toNat + 1) false; bumpBits b (w.toNat + 1))) s
def execBstp (d a b w : Reg) (s : State) :=
  run (straight 4 (do storeBits d a b (w.toNat + 1); bumpBits b (w.toNat + 1))) s

/-! ## Completion items of the hardware -/

/-- The hardware pushes an item for a core, whose handle named the queue at issue (R183; 09 R217; 12, 13, 18): a refusal
is reported to the core (06 R138). -/
def State.pushFor (s : State) (c : CoreId) (id : BitVec 32) (item : Item) : State :=
  if s.qidPkg id = s.pkg then
    match s.acceptPush (qkeyOf id) item (s.coreDom c) true with
    | .ok s => s
    | .error code => s.report c code (id.setWidth 64) (id.setWidth 64)
  else
    let (n, s) := s.fresh
    s.send (s.qidPkg id) (.push { qid := id, item := item, domain := s.coreDom c, checked := true, srcPkg := s.pkg, core := c,
                                  serial := n, curtain := false, notice := false })

/-! ## Invalidation (R183) -/

/-- Remove from every TLB of the package the entries that `f` names. -/
def State.dropTlb (s : State) (f : TlbE → Bool) : State :=
  let keep := fun (l : List TlbE) => l.filter (fun e => !f e)
  { s with cores := s.cores.map (fun c => (c.1, { c.2 with itlb := keep c.2.itlb, dtlb := keep c.2.dtlb })),
           l2tlb := s.l2tlb.map (fun t => (t.1, keep t.2)),
           ingressTlb := s.ingressTlb.map (fun t => (t.1, keep t.2)) }

/-- Does a TLB entry translate a page of the domain that holds the address? -/
def TlbE.covers (e : TlbE) (dom : BitVec 12) (va : Nat) : Bool :=
  e.dom == dom && e.page == (if e.large then va / 2 ^ 25 else va / 2 ^ 16)

/-- Does a watch's page hold the virtual address? -/
def watchCovers (w : BitVec 12 × BitVec 48 × Bool) (dom : BitVec 12) (va : Nat) : Bool :=
  w.1 == dom && (if w.2.2 then va / 2 ^ 25 == w.2.1.toNat / 2 ^ 25 else va / 2 ^ 16 == w.2.1.toNat / 2 ^ 16)

/-- Steps 1 and 2, and the completion posted: `page` for TLBIV. A domain without a valid root changes nothing (R184). -/
def invalidate (d : Reg) (dom : BitVec 12) (addr : Word) (page : Option Nat) : Op Unit := do
  let id ← pushHandle d
  let s ← getState
  if s.invals.length ≥ 8 then waitHere
  else
    releasePush 4
    modState (fun s =>
      let valid := (s.devGet (rootReg dom)).getLsbD 0
      let gen := if valid then s.gen dom + 1 else s.gen dom
      let s := if valid then
          let s := s.meetPages (fun w => match page with
            | some va => watchCovers w dom va
            | none => w.1 == dom)
          { s.dropTlb (fun e => match page with
              | some va => e.covers dom va
              | none => e.dom == dom) with gens := s.gens.set dom.toNat gen }
        else s
      let (n, s) := s.fresh
      let what : InvalOf := if !valid then .nothing else match page with
        | some va => .page va
        | none => .domain
      ({ s with invals := s.invals.set n { core := s.cur, q := id, dom := dom, addr := addr, gen := gen, what := what } } : State).post 0 (.tlbiComplete n))

/-- R183, R184. -/
def execTlbiv (d a b : Reg) (s : State) :=
  run (straight 4 (do
    needService
    let addr ← rd a
    let x ← rd b
    let s ← getState
    check (fieldOf addr 51 48 == 0 && s.realPkg (addr.extractLsb' 52 12) == s.pkg) cACCESS addr
    invalidate d (x.setWidth 12) addr (some (fieldOf addr 47 0)))) s

/-- R183, R184. -/
def execTlbid (d a : Reg) (s : State) :=
  run (straight 4 (do
    needService
    let x ← rd a
    invalidate d (x.setWidth 12) 0 none)) s

/-- The redirect entry's page is one that the invalidation names. -/
def InvalOf.frees (x : InvalOf) (large : Bool) (va : Nat) : Bool := match x with
  | .nothing => false
  | .page w => if large then va / 2 ^ 25 == w / 2 ^ 25 else va / 2 ^ 16 == w / 2 ^ 16
  | .domain => true

/-- Buffered stores of a domain's virtual pages that cannot be applied yet, and accesses of it queued at MOVING pages that
were issued before number `n` (remote requests carry no such number and count always). -/
def State.domainBusy (s : State) (dom : BitVec 12) (n : Nat) : Bool :=
  s.cores.any (fun c => c.2.stbuf.any (fun e => e.dom == dom && decide (e.key < spaceSize) && decide (e.id < n) && s.stuck c.1 e)) ||
  s.migrations.any (fun m => m.queued.any (fun q => match q with
    | .store e => e.dom == dom && decide (e.id < n)
    | .atomic _ _ d _ _ _ _ _ => d == dom
    | .request r _ => r.domain == dom))

/-- Every buffered store of a domain's virtual pages is applied. -/
def State.drainDomain (s : State) (dom : BitVec 12) : State :=
  s.cores.foldl (fun s c => s.applyEntries c.1 ((s.core c.1).chains (fun e => e.dom == dom && decide (e.key < spaceSize) && !s.stuck c.1 e))) s

/-- TLBI_COMPLETE (R183 steps 3 and 4): once every access under the older translation is applied, the redirects of the pages
are freed (R181), and the item is pushed. -/
def execTlbiComplete (n : Nat) (s : State) :=
  happen (match Tbl.find? s.invals n with
    | none => s
    | some x =>
      let s := s.drainDomain x.dom
      if s.domainBusy x.dom n then s.post 1 (.tlbiComplete n)
      else
        let s := { s with invals := s.invals.erase n,
                          redirects := s.redirects.filter (fun r => !(r.dom == x.dom && x.what.frees r.large r.va.toNat)) }
        s.pushFor x.core x.q (dataItem (x.gen ++ 0#16 ++ x.dom.setWidth 16 ++ x.addr)))

/-! ## Probe and prefetch (R185, R186) -/

/-- The word of a probe (Table 8.14). -/
def probeWord (e : Word) (lvl : Nat) : Word :=
  let at_ := fun (b : Bool) (k : Nat) => if b then 2 ^ k else 0
  word (2 ^ 63 + at_ (lvl == 2) 62 + lvl * 2 ^ 60 + at_ (pteCow e) 58 + at_ (e.getLsbD 5) 57 + at_ (pteD e) 56 + at_ (pteA e) 55 +
    at_ (pteX e) 54 + at_ (pteW e) 53 + at_ (pteK e) 52 + ptePA e)

/-- R185: a TLB hit, or a walk that sets and fills nothing; whether a walk takes over 960 cycles is open. -/
def State.probe (s : State) (dom : BitVec 12) (va : Nat) : Word :=
  let gen := s.gen dom
  let hit := (s.me.dtlb ++ s.l2tlb.get [] (clusterOf s.cur)).find? (fun e => e.hits dom va gen)
  match hit with
  | some e => probeWord e.leaf (if e.large then 2 else 3)
  | none =>
    if Config.freeChoice s.tick then 1#64 <<< 59
    else match s.walk dom va with
      | .leaf e lvl _ => probeWord e lvl
      | .stopped _ lvl => word (lvl * 2 ^ 60)

/-- R185. -/
def execTlbprb (d a b : Reg) (s : State) :=
  run (straight 4 (do
    let s ← getState
    let svc := s.coreSvc s.cur
    check (b == 0 || svc) cPRIV s.openDetail
    let addr ← rd a
    let y ← rd b
    let dom : BitVec 12 := if b = 0 then s.coreDom s.cur else y.setWidth 12
    wr d (match s.resolve s.cur svc true addr with
      | some (.virt va) => s.probe dom va
      | _ => 0))) s

/-- R186. -/
def State.prefetch (s : State) (addr : Word) (pageIn : Bool) : State :=
  match s.resolve s.cur (s.coreSvc s.cur) true addr with
  | some (.virt va) =>
    match s.translate s.cur (s.coreDom s.cur) va .read addr with
    | .ok (_, t) => t
    | .error (.page p) =>
      let s := s.logBad p
      if p.why = .absent ∧ pageIn then
        s.askPager s.cur 0 (pagerItem s.me.pc inPlace s.pkg s.cur p.dom p.level 4 Kind.read.code addr)
      else s
    | .error _ => s
  | _ => s

/-- R186. -/
def execPref (a : Reg) (p : BitVec 1) (s : State) :=
  run (straight 4 (do let x ← rd a; modState (fun s => s.prefetch x (p == 1)))) s

/-! ## Events -/

/-- STORE_APPLY (R167): an entry that cannot be applied yet waits, and wakes the unit it waits for (22 R445); one that was
applied before its time may have ended an ordering wait. -/
def execStoreApply (c : CoreId) (id : Nat) (s : State) :=
  happen (match (s.core c).stbuf.find? (fun e => e.id == id) with
    | none => s.wakeOrder c
    | some e =>
      if s.stuck c e then
        (((s.core c).chain id).foldl (fun s y => if placeSpace y.pa = 5 then s else s.rouse (s.redirect y.pa) y.n) s).post 1 (.storeApply c id)
      else (s.applyEntries c ((s.core c).chain id)).wakeOrder c)

/-- The displacement of a short memory word, or under IX of the long form (02 R33). -/
def dispOf (p : Option IWord) (w : IWord) : Word := match p with
  | some x => (x.extractLsb' 0 19 ++ w.extractLsb' 0 13 : BitVec 32).signExtend 64
  | none => (w.extractLsb' 0 13).signExtend 64

/-- The kind of a prefix: 0 VX, 1 IX, 2 OX (02 R31). -/
def prefixKind (p : Option IWord) : Option Nat := p.map (fun x => fieldOf x 25 22)

/-- The lanes of a vector word, as far as an address needs them: the element width and the active ones. -/
def Core.wordLanes (x : Core) (w : IWord) : Nat × List Nat :=
  let m := fieldOf w 10 8
  (32 / 2 ^ fieldOf w 7 6, (List.range x.vl).filter (fun i => m == 0 || (x.masks.toList.getD m 0).getLsbD i))

/-- Where a vector access reads or writes (11 R243, R244): the addresses of its elements, for loads or for stores. -/
def Core.vectorAddresses (x : Core) (w : IWord) : List Word × Bool :=
  let base := x.reg (wordA w)
  let stride := x.reg (wordB w)
  let l := x.wordLanes w
  let per := 32 / l.1
  let elems := l.2.flatMap (fun i => (List.range per).map (fun j => i * per + j))
  let at_ := fun (k : Nat) => base + word k * stride
  let index := fun (i : Nat) => base + (((x.vregs[(wordB w).toNat]'(wordB w).isLt).getD i 0).setWidth 64)
  match fieldOf w 3 0 with
  | 0 => (l.2.map (fun i => base + word (4 * i)), false)
  | 1 => (l.2.map (fun i => base + word (4 * i)), true)
  | 2 => (elems.map at_, false)
  | 3 => (elems.map at_, true)
  | 4 => (l.2.map index, false)
  | 5 => (l.2.map index, true)
  | 6 => (((List.range 16).filter (fun r => l.2.contains (r / per))).map at_, false)
  | 7 => (if l.2 = [] then [] else [base], false)
  | _ => ([], false)

/-- The addresses that the next instruction of a core loads from or stores to, as far as its words give them, and whether it
stores (08 R166, R168; 09 R198, R202; 11 R243). -/
def Core.accessOf (x : Core) (p : Option IWord) (w : IWord) : List Word × Bool :=
  let m := wordMajor w
  let ix := prefixKind p = some 1
  if m = 0x18 ∧ (p.isNone ∨ prefixKind p = some 0) then x.vectorAddresses w
  else if m = 0x08 ∧ (p.isNone ∨ ix) then ([x.reg (wordA w) + dispOf p w], false)
  else if m = 0x09 ∧ (p.isNone ∨ ix) then ([x.reg (wordA w) + dispOf p w], true)
  else if p.isSome then ([], false)
  else if m = 0x0A ∧ (wordFunc w = 0 ∨ wordFunc w = 1 ∨ wordFunc w = 3) then ([bitDword (x.reg (wordA w)) (x.reg (wordB w))], false)
  else if m = 0x0A ∧ (wordFunc w = 2 ∨ wordFunc w = 4) then ([bitDword (x.reg (wordA w)) (x.reg (wordB w))], true)
  else if m = 0x0C ∧ wordFunc w = 1 then ([x.reg (wordA w)], false)
  else if m = 0x0B ∨ (m = 0x0C ∧ wordFunc w = 2) then ([x.reg (wordA w)], true)
  else ([], false)

/-- The core's next instruction is a load that is not near (R162): some part of it lies outside the core's TCM. -/
def State.farLoad (s : State) (c : CoreId) : Bool := match s.waiting c with
  | some (p, w) =>
    let a := (s.core c).accessOf p w
    !a.2 && a.1.any (fun x => match s.resolve c (s.coreSvc c) true x with
      | some (.place q) => !(placeSpace q == 3 && placeCore q == c)
      | _ => true)
  | none => false

/-- FAR_LOAD_TIMEOUT (R162): the instance parks; nothing is posted to the pager. -/
def execFarLoadTimeout (c : CoreId) (s : State) :=
  happen (if s.farLoad c then s.parkFor c (.hw .load) (.farLoadReturn c (s.core c).inst.id) else s)

/-- FAR_LOAD_RETURN (R162): the data is discarded, and the load executes again. -/
def execFarLoadReturn (c : CoreId) (inst : Nat) (s : State) :=
  happen (if s.waitOf c inst = some (.hw .load) then s.endWait c inst id else s)

/-- A translation that the core's next step must walk for: of the fetch, of both words of a long form, or of an access that
the instruction makes; a store through an entry with D = 0 walks again (R173). -/
def State.missing (s : State) (c : CoreId) : Option (Nat × Kind) :=
  let x := s.core c
  let dom := s.coreDom c
  let miss := fun (a : Word) (k : Kind) => match s.resolve c (s.coreSvc c) true a with
    | some (.virt va) =>
      match (x.tlb k ++ s.l2tlb.get [] (clusterOf c)).find? (fun e => e.hits dom va (s.gen dom)) with
      | some e => if k = .write ∧ pteW e.leaf ∧ !pteD e.leaf then some (va, k) else none
      | none => some (va, k)
    | _ => none
  if x.cond ≠ .running then none
  else match miss x.pc .fetch with
    | some m => some m
    | none => match s.wordAt c x.pc with
      | none => none
      | some w =>
        let go := fun (p : Option IWord) (w : IWord) =>
          let a := x.accessOf p w
          a.1.findSome? (fun y => miss y (if a.2 then .write else .read))
        if wordMajor w = 0x3F then match miss (x.pc + 4) .fetch with
          | some m => some m
          | none => (s.wordAt c (x.pc + 4)).bind (fun v => go (some w) v)
        else go none w

/-- TRANSLATION_TIMEOUT (R174): the instance parks while the walk runs on. -/
def execTranslationTimeout (c : CoreId) (s : State) :=
  happen (match s.missing c with
    | some (va, k) =>
      s.parkFor c (.hw (.walk (s.coreDom c) (BitVec.ofNat 48 va) (k.code.setWidth 2))) (.walkComplete c (s.core c).inst.id)
    | none => s)

/-- WALK_COMPLETE (R174): a walk that finds its page fills the TLBs; the instance becomes ready. -/
def execWalkComplete (c : CoreId) (inst : Nat) (s : State) :=
  happen (match s.waitOf c inst with
    | some (.hw (.walk dom va k)) =>
      let kind := if k = 2 then Kind.fetch else if k = 1 then Kind.write else Kind.read
      let s := match s.walkFor c dom va.toNat kind 0 with
        | .ok (_, t) => t
        | .error _ => s
      s.endWait c inst id
    | _ => s)

/-- PAGER_REQUEST_RETRY (R177): a kept request is pushed again while its instance stays parked, after the older ones of its
core; that of a prefetch or of a remote-miss slot names no instance. -/
def execPagerRequestRetry (c : CoreId) (inst : Nat) (s : State) :=
  happen (match (s.kept c).find? (fun r => r.1 == inst) with
    | none => s
    | some r =>
      if inst ≠ 0 ∧ s.waitOf c inst ≠ some .pager then s.setKept c (dropFirst (· == r) (s.kept c))
      else match (if (s.kept c).head? = some r then s.pushPager r.2 else none) with
        | some t => t.setKept c ((s.kept c).drop 1)
        | none => s.post 1024 (.pagerRequestRetry c inst))

/-! ## Migration (R181) -/

/-- STATUS of a controller's command register (log 74). -/
abbrev migBUSY : BitVec 2 := 1
abbrev migTAKEN : BitVec 2 := 2
abbrev migDONE : BitVec 2 := 3

/-- Redirect entries of a controller in use, and those that migrations in progress will take. -/
def State.redirectsUsed (s : State) (ctl : Nat) : Nat :=
  (s.redirects.filter (fun r => r.old.toNat / 2 ^ 36 == ctl)).length + (s.migrations.filter (fun m => m.old.toNat / 2 ^ 36 == ctl)).length

/-- MIGRATION_COMMAND (R181): the page that the command's domain and address map is MOVING, unless the controller's
256 redirect entries are in use. -/
def execMigrationCommand (x : MigCmd) (s : State) :=
  happen (match s.walk x.domain x.va.toNat with
    | .leaf e lvl _ =>
      let large := lvl == 2
      let old : BitVec 40 := BitVec.ofNat 40 (if large then ptePA e / 2 ^ 25 * 2 ^ 25 else ptePA e / 2 ^ 16 * 2 ^ 16)
      let ctl := old.toNat / 2 ^ 36
      if s.redirectsUsed ctl ≥ 256 then ({ s with migStat := s.migStat.set ctl migBUSY } : State).emit (.control 2 old.toNat 1)
      else if large ≠ x.large ∨ s.migrations.any (fun m => m.old == old) then s
      else
        let s := s.meetPages (fun w => watchCovers w x.domain x.va.toNat)
        ({ s with migrations := s.migrations ++ [{ cmd := x, old := old, queued := [] }], migStat := s.migStat.set ctl migTAKEN } : State).post 0
          (.migrationComplete old)
    | .stopped _ _ => s)

/-- Copy a frame's bytes to another frame. -/
def Memory.moveFrame (m : Memory) (old new size : Nat) : Memory :=
  let got := m.filter (fun p => old ≤ p.1 && p.1 < old + size)
  got.foldl (fun m p => Memory.set m (new + (p.1 - old)) p.2) (m.filter (fun p => !(new ≤ p.1 && p.1 < new + size)))

/-- A doubleword's place, after its page has moved. -/
def Migr.moved (m : Migr) (dw : Nat) : Nat := if inFrame m.old m.cmd.large dw then m.cmd.frame.toNat + (dw - m.old.toNat) else dw

/-- Value records, and watches on their way to their points, name the new frame (09 R210). -/
def Core.follow (x : Core) (m : Migr) : Core :=
  let inst := fun (i : Inst) => { i with record := i.record.map (fun e => { e with dw := m.moved e.dw }) }
  { x with inst := inst x.inst, held := x.held.map (fun h => { h with inst := inst h.inst }),
           arms := x.arms.map (fun a => (a.1, { a.2 with watches := a.2.watches.map (fun w =>
             if w.stands then w else { w with dw := m.moved w.dw, seen := w.seen.map (fun e => { e with dw := m.moved e.dw }) }) })) }

end Sys2Proof.Machine
end

