-- ==== Sys2Proof/Machine/Atomics.lean ====
section
/-!
DEFINITION. Ordering (09 R197–R200), atomics (R201–R204), ordered reductions (R205–R208), armed continuations
(R209–R212), groups and barriers (R213–R218), with their events.
-/
namespace Sys2Proof.Machine

/-! ## Fences, acquire and release -/

/-- Reads of the running instance that are still on their way: `GETQ` and `AMOQ` (15 R335). -/
def Core.readPending (x : Core) : Bool := x.outst.any (fun o => o.inst == x.inst.id && o.read)

/-- R199, Table 9.2: `.ACQ` waits for reads, which are performed in order but for those that are remote requests. -/
def execFence (k : BitVec 2) (sc : BitVec 3) (s : State) :=
  run (straight 4 (do
    if k = 1 then
      let s ← getState
      if s.pending s.cur s.me.inst.id sc.toNat true none then waitHere else pure ()
    else waitPerformed sc.toNat)) s

/-- Bytes of a width code of LD.ACQ and ST.REL. -/
abbrev widthBytes (x : BitVec 3) : Nat := 2 ^ x.toNat

/-- R198. -/
def execLdAcq (d a : Reg) (_sc x : BitVec 3) (s : State) :=
  run (straight 4 (if x = 4 then loadPair d a 0 else loadInto d a 0 (widthBytes x) false)) s

/-- R198: the checks of a store, the wait, the store. -/
def execStRel (d a : Reg) (sc x : BitVec 3) (s : State) :=
  run (straight 4 (do
    let addr ← rd a
    let n := widthBytes x
    let l ← checkAddress addr
    check (addr.toNat % n == 0) cALIGN addr
    let pa ← translate l .write addr
    waitPerformed sc.toNat
    let lo ← rd d
    let hi ← rd (nextReg d 1)
    bufferPlain l pa n (hi ++ lo))) s

/-! ## Atomics -/

/-- Table 9.8: the new value. -/
def amoValue {n : Nat} (func : Nat) (old op : BitVec n) : BitVec n :=
  match func with
  | 0 => old + op
  | 1 => old &&& op
  | 2 => old ||| op
  | 3 => old ^^^ op
  | 4 => if old.slt op then old else op
  | 5 => if old.slt op then op else old
  | 6 => if old.ult op then old else op
  | 7 => if old.ult op then op else old
  | _ => op

/-- The atomic at its point, on `n` bytes (R203): the old value, and the state; a CAS that fails writes nothing. -/
def State.atomicAt (s : State) (p n func : Nat) (op cmp : Word) : Word × State :=
  if n = 4 then
    let old : BitVec 32 := BitVec.ofNat 32 (s.peek p 4)
    let s := if func = 9 ∧ old ≠ cmp.setWidth 32 then s else s.storeNat p 4 (amoValue func old (op.setWidth 32)).toNat
    (old.signExtend 64, s)
  else
    let old := word (s.peek p 8)
    let s := if func = 9 ∧ old ≠ cmp then s else s.storeNat p 8 (amoValue func old op).toNat
    (old, s)

/-- An atomic on its way to its point: the place, the address as issued, and the operands. -/
structure AmoAt where
  pa   : Nat
  n    : Nat
  addr : Word
  op   : Word
  cmp  : Word
  deriving DecidableEq, Repr

/-- R203 up to the point: the checks, the translation, the release's wait, and program order (09 R192, R193: no atomic is
applied before an earlier read of its instance). `sc` counts when the order has a release. -/
def amoIssue (d a b : Reg) (sc : BitVec 3) (order : BitVec 2) (w : BitVec 1) : Op AmoAt := do
  let n := if w = 1 then 8 else 4
  let addr ← rd a
  let l ← checkAddress addr
  check (fieldOf addr 51 48 != 5) cACCESS addr
  check (addr.toNat % n == 0) cALIGN addr
  let pa ← translate l .write addr
  let _ ← translate l .read addr
  if order.getLsbD 1 then waitPerformed sc.toNat
  let op ← rd b
  let cmp ← rd d
  let x ← getMe
  if x.readPending then waitHere
  inOrder l pa n true
  pure { pa := pa, n := n, addr := addr, op := op, cmp := cmp }

/-- R203: the atomic at its point, and its result. -/
def amo (func : Nat) (d a b : Reg) (sc : BitVec 3) (order : BitVec 2) (w : BitVec 1) : Op Unit := do
  let x ← amoIssue d a b sc order w
  let s ← getState
  let v ← readPlace x.pa x.n x.addr (s.coreDom s.cur)
  recordRead x.pa x.n (BitVec.ofNat 128 v)
  let s ← getState
  let r := s.atomicAt (s.redirect x.pa) x.n func x.op x.cmp
  setState r.2
  wr d r.1

def execAmoAdd (d a b : Reg) (sc : BitVec 3) (p : BitVec 2) (w : BitVec 1) (s : State) := run (straight 4 (amo 0 d a b sc p w)) s
def execAmoAnd (d a b : Reg) (sc : BitVec 3) (p : BitVec 2) (w : BitVec 1) (s : State) := run (straight 4 (amo 1 d a b sc p w)) s
def execAmoOr (d a b : Reg) (sc : BitVec 3) (p : BitVec 2) (w : BitVec 1) (s : State) := run (straight 4 (amo 2 d a b sc p w)) s
def execAmoXor (d a b : Reg) (sc : BitVec 3) (p : BitVec 2) (w : BitVec 1) (s : State) := run (straight 4 (amo 3 d a b sc p w)) s
def execAmoMin (d a b : Reg) (sc : BitVec 3) (p : BitVec 2) (w : BitVec 1) (s : State) := run (straight 4 (amo 4 d a b sc p w)) s
def execAmoMax (d a b : Reg) (sc : BitVec 3) (p : BitVec 2) (w : BitVec 1) (s : State) := run (straight 4 (amo 5 d a b sc p w)) s
def execAmoMinu (d a b : Reg) (sc : BitVec 3) (p : BitVec 2) (w : BitVec 1) (s : State) := run (straight 4 (amo 6 d a b sc p w)) s
def execAmoMaxu (d a b : Reg) (sc : BitVec 3) (p : BitVec 2) (w : BitVec 1) (s : State) := run (straight 4 (amo 7 d a b sc p w)) s
def execAmoSwap (d a b : Reg) (sc : BitVec 3) (p : BitVec 2) (w : BitVec 1) (s : State) := run (straight 4 (amo 8 d a b sc p w)) s
def execAmoCas (d a b : Reg) (sc : BitVec 3) (p : BitVec 2) (w : BitVec 1) (s : State) := run (straight 4 (amo 9 d a b sc p w)) s

/-! ## Waits of 960 cycles (R200, R204) -/

/-- The ordering wait in which the core's next instruction stands (R200): its scope, and whether it waits for reads alone. A
FENCE, an ST.REL, an ordered atomic, a TARM, an arrival (R209, R216), or an atomic behind an earlier read (R193, log 75). -/
def State.orderWaits (s : State) (c : CoreId) : Option (Nat × Bool) := match s.waitingWord c with
  | some w =>
    let wait := fun (scope : Nat) (acq : Bool) =>
      if s.pending c (s.core c).inst.id scope acq none then some (scope, acq) else none
    if wordMajor w = 0x0C ∧ wordFunc w = 0 then wait (fieldOf w 2 0) (fieldOf w 4 3 = 1)
    else if wordMajor w = 0x0C ∧ wordFunc w = 2 then wait (fieldOf w 5 3) false
    else if wordMajor w = 0x0B then (if w.getLsbD 2 then wait (fieldOf w 5 3) false else none) <|> wait 5 true
    else if wordMajor w = 0x0C ∧ wordFunc w = 4 then wait 5 false
    else if wordMajor w = 0x0C ∧ (wordFunc w = 5 ∨ wordFunc w = 6) then wait 4 false
    else none
  | none => none

/-- ORDER_WAIT_TIMEOUT (R200). -/
def execOrderWaitTimeout (c : CoreId) (s : State) :=
  happen (match s.orderWaits c with
    | some w => s.park c (.hw (.order w.1 w.2))
    | none => s)

/-- ORDER_WAIT_END (R200): the wait of its own scope and kind is over. -/
def execOrderWaitEnd (c : CoreId) (inst : Nat) (s : State) :=
  happen (match s.waitOf c inst with
    | some (.hw (.order scope acq)) => if s.pending c inst scope acq none then s else s.endWait c inst id
    | _ => s)

/-- The instance of core `c` is past its atomic, with the registers as they were before it. -/
def Core.passAtomic (x : Core) (d : Reg) (old : Word) : Core := { x.setReg d old with retired := x.retired + 1 }

/-- ATOMIC_RESULT_TIMEOUT (R204): the atomic that the core's next word asks for has left the core. It is performed and its
result held, or it is queued at a page that is MOVING; the instance parks past the instruction. -/
def execAtomicResultTimeout (c : CoreId) (s : State) :=
  happen (match s.waitingWord c with
    | some w =>
      if wordMajor w = 0x0B ∧ wordFunc w ≤ 9 ∧ fieldOf w 5 3 ≤ 5 ∧ !(fieldOf w 2 1 = 0 ∧ fieldOf w 5 3 ≠ 0) then
        let d := wordD w
        let f := wordFunc w
        let old := (s.core c).reg d
        match amoIssue d (wordA w) (wordB w) (w.extractLsb' 3 3) (w.extractLsb' 1 2) (w.extractLsb' 0 1) { s with cur := c } with
        | .ok (x, t) =>
          let p := t.redirect x.pa
          if (t.movingAt p).isSome then
            let t := t.queueAt p (.atomic c (t.core c).inst.id (t.coreDom c) p x.n f x.op x.cmp)
            let t := t.updCore c (fun y => { y.passAtomic d old with pc := y.pc + 4 })
            { t with cur := s.cur }.park c (.atomicOut d)
          else
            match straight 4 (amo f d (wordA w) (wordB w) (w.extractLsb' 3 3) (w.extractLsb' 1 2) (w.extractLsb' 0 1)) { s with cur := c } with
            | .ok (_, t) =>
              let v := (t.core c).reg d
              let t := { t with cur := s.cur }.updCore c (·.passAtomic d old)
              t.parkFor c (.atomic d v) (.atomicResultReturn c (t.core c).inst.id)
            | .error _ => s
        | .error _ => s
      else s
    | none => s)

/-- ATOMIC_RESULT_RETURN (R204): the held result goes with the instance, which becomes ready. -/
def execAtomicResultReturn (c : CoreId) (inst : Nat) (s : State) :=
  happen (match s.waitOf c inst with
    | some (.atomic d v) => s.endWait c inst (fun i => { i with result := some (d, v) })
    | _ => s)

/-! ## Ordered reductions (R205–R208) -/

/-- R206: the contribution waits in a slot until it is acknowledged. -/
def execRedf (d a b : Reg) (s : State) :=
  run (straight 4 (do
    let addr ← rd a
    let l ← checkAddress addr
    let space := fieldOf addr 51 48
    check (space == 1 || space == 2 || space == 7 || space == 8) cACCESS addr
    check (fieldOf addr 2 0 == 0) cALIGN addr
    let i ← rd d
    check (i.toNat ≤ 65534) cACCESS i
    let v ← rd b
    let s ← getState
    if s.me.contribs.length ≥ 8 then waitHere
    else
      let pa ← translate l .write addr
      let s ← getState
      if s.barred l pa 8 true then waitHere
      else
        let s := s.applyBefore l pa 8 true
        let (k, s) := s.fresh
        let x : Contribution := { core := s.cur, addr := pa, index := i.setWidth 16, value := v.setWidth 32, issued := addr,
                                  inst := s.me.inst.id, id := k }
        setState ((s.updCore s.cur (fun y => { y with contribs := y.contribs ++ [x] })).post 0 (.redfArrival x)))) s

/-- A contribution's slot is freed. -/
def State.ackContribution (s : State) (x : Contribution) : State :=
  (s.updCore x.core (fun y => { y with contribs := dropFirst (· == x) y.contribs })).wakeOrder x.core

/-- Discard a contribution with a report (R207). -/
def State.reportContribution (s : State) (x : Contribution) (code : BitVec 8) : State :=
  s.report x.core code (x.index.setWidth 64) x.issued

/-- Room in the reorder buffer of the cell's bank (R208). -/
def State.redRoom (s : State) (p : Nat) : Bool :=
  let cells := s.redCells.filter (fun r => cellBank r.1 == cellBank p)
  (cells.any (fun r => r.1 == p) || cells.length < 64) && (cells.map (fun r => r.2.held.length)).sum < 256

/-- A contribution may not be accepted yet: an earlier read of its instance, or an earlier contribution of it to the cell, is
on its way (R192, R193). -/
def State.early (s : State) (x : Contribution) : Bool :=
  let y := s.core x.core
  y.outst.any (fun o => o.read && o.inst == x.inst && decide (o.serial < x.id)) ||
    y.contribs.any (fun z => z.inst == x.inst && z.addr == x.addr && decide (z.id < x.id))

/-- A contribution at its bank (R207); it waits there for its turn, for a row under test, and for an exit from retention. -/
def State.contribute (s : State) (x : Contribution) : State :=
  let p := x.addr
  if s.early x then s.post 1 (.redfResend x)
  else if s.blocked p 8 then (s.rouse p 8).post 1 (.redfResend x)
  else
    let cell := word (s.peek p 8)
    let next := fieldOf cell 47 32
    if cell.getLsbD 63 then (s.ackContribution x).reportContribution x cTIMEOUT
    else if x.index.toNat < next then (s.ackContribution x).reportContribution x cACCESS
    else if x.index.toNat = next then
      let s := s.redApply x
      let s := if (Tbl.find? s.redCells p).isSome then { s with redCells := s.redCells.upd {} p (fun r => { r with since := s.now }) } else s
      (s.redDrain ((s.redCells.get {} p).held.length + 1) p).ackContribution x
    else if s.redRoom p then
      let new := (Tbl.find? s.redCells p).isNone
      let s := { s with redCells := s.redCells.upd { held := [], since := s.now } p (fun r => { r with held := r.held ++ [x] }) }
      let s := if new then s.postOnce 65536 (.redfCellTimeout p) else s
      s.ackContribution x
    else s.post 256 (.redfResend x)

/-- REDF_ARRIVAL (R207). -/
def execRedfArrival (x : Contribution) (s : State) := happen (s.contribute x)

/-- REDF_RESEND (R207). -/
def execRedfResend (x : Contribution) (s : State) := happen (s.contribute x)

/-- REDF_CELL_TIMEOUT (R208): after 65,536 cycles without progress, FAIL is set in one write and the held contributions
are reported. -/
def execRedfCellTimeout (p : Nat) (s : State) :=
  happen (match Tbl.find? s.redCells p with
    | none => s
    | some r =>
      if s.now < r.since + 65536 then s.postOnce (r.since + 65536 - s.now) (.redfCellTimeout p)
      else
        let cell := word (s.peek p 8) ||| (1#64 <<< 63)
        let s := { s with redCells := s.redCells.erase p }.writeAt p (bytesOf cell 8)
        r.held.foldl (fun s x => s.reportContribution x cTIMEOUT) s)

/-! ## Armed continuations (R209–R211) -/

/-- One watch of a TARM, checked and translated: its place, and its page when it is virtual. -/
def watchOf (addr : Word) : Op Watch := do
  let l ← checkAddress addr
  check (fieldOf addr 51 48 != 5) cACCESS addr
  let base := addr &&& ~~~7
  let s ← getState
  match l with
  | .place p => pure { dw := p - p % 8, seen := none, page := none, stands := false }
  | .virt va =>
    let pa ← translateIn (s.coreDom s.cur) (.virt (va - va % 8)) .read base
    let t ← getState
    let large := match t.walk (t.coreDom t.cur) va with
      | .leaf _ 2 _ => true
      | _ => false
    pure { dw := t.redirect pa, seen := none, page := some (s.coreDom s.cur, BitVec.ofNat 48 va, large), stands := false }

/-- The lowest free armament slot of 16. -/
def Core.freeArm (x : Core) : Option Nat := (List.range 16).find? (fun k => (Tbl.find? x.arms k).isNone)

/-- R209. -/
def execTarm (a c : Reg) (r : BitVec 6) (s : State) :=
  run (do
    let _ ← rowFor r true
    let ws ← (List.range c.toNat).mapM (fun j => do
      let addr ← rd (nextReg a j)
      watchOf addr)
    waitPerformed 5
    modState (fun s =>
      let x := s.me
      let ws := ws.map (fun w => { w with seen := x.inst.record.find? (fun e => e.dw == w.dw) })
      match x.freeArm with
      | none =>
        let (k, s) := s.fresh
        (s.updCore s.cur (fun y => { y with refused := y.refused ++ [(r, k)] })).endInstance s.cur
      | some slot =>
        let s := s.updCore s.cur (fun y => { y with arms := y.arms.set slot { row := r, watches := ws, hit := none, fired := none } })
        let s := (List.range c.toNat).foldl (fun s j => s.post 0 (.armamentRegister s.cur slot j)) s
        s.endInstance s.cur)) s

/-- ARMAMENT_REGISTER (R210): at the point, which a page that is MOVING has not yet (08 R181), a recorded byte that differs
fires at once; else the watch stands. -/
def execArmamentRegister (c : CoreId) (slot j : Nat) (s : State) :=
  happen (match Tbl.find? (s.core c).arms slot with
    | none => s
    | some a => match a.watches[j]? with
      | none => s
      | some w =>
        let dw := s.redirect w.dw
        if a.hit.isSome ∨ a.fired.isSome then s
        else if (s.movingAt dw).isSome || s.blocked dw 8 then (s.rouse dw 8).post 1 (.armamentRegister c slot j)
        else
          let now := word (s.peek dw 8)
          let differs := match w.seen with
            | some e => (now ^^^ e.value) &&& spread e.mask != 0
            | none => false
          if differs then
            let (k, s) := s.fresh
            s.updCore c (fun x => { x with arms := x.arms.set slot { a with fired := some (j, k), watches := a.watches.map (fun y => { y with stands := false }) } })
          else s.updCore c (fun x => { x with arms := x.arms.set slot { a with watches := a.watches.set j { w with dw := dw, stands := true } } }))

/-- ARMAMENT_FIRE (R211): the armaments hit at this doubleword have fired. -/
def execArmamentFire (dw : Nat) (s : State) :=
  happen { s with cores := s.cores.map (fun c => (c.1, { c.2 with arms := c.2.arms.map (fun a => (a.1, match a.2.hit, a.2.fired with
    | some h, none => if (a.2.watches[h.1]?).any (fun w => w.dw == dw) then { a.2 with fired := some h } else a.2
    | _, _ => a.2)) })) }

/-! ## Groups and barriers (R213–R218) -/

/-- R216: an arrival with a value. -/
def arriveAt (d a : Reg) (value : BitVec 32) : Op Unit := do
  let x ← rd a
  let id : BitVec 32 := x.setWidth 32
  let detail := id.setWidth 64
  let s ← getState
  let c := s.cur
  let g := fieldOf id 7 0
  check (fieldOf id 19 8 == 0 && s.realPkg (id.extractLsb' 20 12) == s.pkg) cACCESS detail
  match s.me.members.find? (fun m => m.group == g) with
  | none => trap cACCESS detail
  | some m => do
    check (s.group g).valid cACCESS detail
    check (!m.pending) cACCESS detail
    let qd : Word := d.setWidth 64
    let q ← match s.me.handle d with
      | .queue id => if s.qidPkg id = s.pkg then pure (qkeyOf id) else trap cACCESS qd
      | .faultQueue => trap cACCESS qd
      | .unmapped => trap cQGONE qd
    check ((s.queue q).st == .active) cQGONE qd
    check ((s.queue q).consumers.contains c) cACCESS qd
    waitPerformed 4
    modState (fun s =>
      let s := s.updCore c (fun x => { x with members := x.members.map (fun y => if y.group = g then { y with pending := true } else y) })
      s.post 0 (.barrierArrival { core := c, group := g, rank := m.rank, value := value, queue := q }))

/-- BARRIER (R215, R216). -/
def execBarrier (d a : Reg) (s : State) := run (straight 4 (arriveAt d a 0)) s
/-- BARQ (R215, R216). -/
def execBarq (d a b : Reg) (s : State) := run (straight 4 (do let v ← rd b; arriveAt d a (v.setWidth 32))) s

/-- A release item (Table 9.13). -/
def releaseItem (g : Nat) (rank : BitVec 16) (episode orv sum : BitVec 32) : BitVec 128 :=
  sum ++ orv ++ 0#8 ++ BitVec.ofNat 8 g ++ rank ++ episode

/-- BARRIER_ARRIVAL (R217): the last arrival of an episode completes it and starts the releases. -/
def execBarrierArrival (x : Arrival) (s : State) :=
  happen (
    let g := s.group x.group
    let g := { g with arrived := g.arrived + 1, orv := g.orv ||| x.value, sum := g.sum + x.value, arrivals := g.arrivals ++ [x] }
    if g.arrived = g.members then
      let s := s.setGroup x.group { g with arrived := 0, orv := 0, sum := 0, episode := g.episode + 1, arrivals := [] }
      g.arrivals.foldl (fun s y => s.post (y.rank.toNat * g.stagger)
        (.barrierRelease { core := y.core, group := x.group, queue := y.queue, data := releaseItem x.group y.rank g.episode g.orv g.sum })) s
    else s.setGroup x.group g)

/-- BARRIER_RELEASE (R217): the item is reserved to the core; a refusal is reported; PENDING clears. -/
def execBarrierRelease (x : Release) (s : State) :=
  happen (
    let s := s.updCore x.core (fun y => { y with members := y.members.map (fun m => if m.group = x.group then { m with pending := false } else m) })
    match s.acceptRelease x.queue x.core (dataItem x.data) with
    | .ok s => s
    | .error code => let id := (s.qidOf x.queue).setWidth 64; s.report x.core code id id)

end Sys2Proof.Machine
end

