-- ==== Sys2Proof/Machine/Tensor.lean ====
section
/-!
DEFINITION. Tensor ids, entries and elements (12 R260–R266; 03 R55–R57), and how a unit that is no core reads and writes
memory for a command (12 R279, R284; 13).
-/
namespace Sys2Proof.Machine

/-! ## Entries (R262) -/

abbrev Entry.base (e : Entry) : Word := e.extractLsb' 0 64
abbrev Entry.scale (e : Entry) : BitVec 52 := e.extractLsb' 64 52
abbrev Entry.sparse (e : Entry) : BitVec 52 := e.extractLsb' 116 52
abbrev Entry.ragged (e : Entry) : BitVec 52 := e.extractLsb' 168 52
abbrev Entry.fmt (e : Entry) : Nat := fieldOf e 223 220
abbrev Entry.rank (e : Entry) : Nat := fieldOf e 226 224
abbrev Entry.layout (e : Entry) : Bool := e.getLsbD 227
/-- The scale block size. -/
abbrev Entry.bsize (e : Entry) : Nat := 16 * 2 ^ fieldOf e 229 228
abbrev Entry.spn (e : Entry) : Nat := fieldOf e 232 230
abbrev Entry.rdim (e : Entry) : Nat := fieldOf e 235 233
abbrev Entry.valid (e : Entry) : Bool := e.getLsbD 236
/-- The true extent of dimension d. -/
def Entry.ext (e : Entry) (d : Nat) : Nat := fieldOf e (261 + 20 * d) (242 + 20 * d) + 1
/-- The stride of dimension d ≥ 1, sign-extended. -/
def Entry.stride (e : Entry) (d : Nat) : Word := (e.extractLsb' (362 + 30 * (d - 1)) 30).signExtend 64

/-- The formats that block scales and sparsity take (R263). -/
def narrowFmt (f : Nat) : Bool := 3 ≤ f && f ≤ 7

/-- A space that an entry's address may have (R263). -/
def entrySpace (svc : Bool) (sp : Nat) : Bool := sp ≤ 3 || (6 ≤ sp && sp ≤ 8) || (sp == 5 && svc)

/-- R263. -/
def Entry.wellFormed (svc : Bool) (e : Entry) : Bool :=
  e.valid && e.fmt ≤ 9 && 1 ≤ e.rank && e.rank ≤ 6 &&
  (List.range 6).all (fun d => d < e.rank || (e.ext d == 1 && (d == 0 || e.stride d == 0))) &&
  (e.scale == 0 || narrowFmt e.fmt) &&
  ((e.spn == 0) == (e.sparse == 0)) && (e.spn == 0 || (narrowFmt e.fmt && 2 ≤ e.rank)) &&
  ((e.rdim == 0) == (e.ragged == 0)) && e.rdim ≤ e.rank - 1 &&
  entrySpace svc (fieldOf e.base 51 48) &&
  [e.scale, e.sparse, e.ragged].all (fun a => a == 0 || entrySpace svc (fieldOf a 51 48)) &&
  fieldOf e 241 237 == 0

/-! ## Ids and the table (R260, R261, R266) -/

/-- The table key of an id for a core: cluster × 1024 + index. `engine`: an id of any cluster of the package (13 R300). -/
def State.tensorKey (s : State) (c : CoreId) (engine : Bool) (id : BitVec 32) : Option Nat :=
  let k := fieldOf id 19 15
  if s.realPkg (id.extractLsb' 20 12) ≠ s.pkg ∨ fieldOf id 13 10 ≠ 0 then none
  else if id.getLsbD 14 then (if k = 0 then some (clusterOf c * 1024 + fieldOf id 9 0) else none)
  else if k = clusterOf c ∨ engine then some (k * 1024 + fieldOf id 9 0)
  else none

/-- A short-form address field made full for a core (R266); one with a reserved bit stays as it is, and is refused when it is
used (01 R15). -/
def fullAddr (c : CoreId) (a : BitVec 52) : BitVec 52 :=
  let off := fieldOf a 47 0
  let space := fieldOf a 51 48
  if 6 ≤ space && space ≤ 8 && !unnamedBits space off then BitVec.ofNat 52 (placeIn c space off) else a

/-- The entry as captured by a command of core `c` (R266): its address fields full, the package of a short BASE the
issuing one. -/
def State.captured (s : State) (c : CoreId) (e : Entry) : Entry :=
  let short := 6 ≤ fieldOf e.base 51 48 && fieldOf e.base 51 48 ≤ 8
  let pkg : BitVec 12 := if short then s.pkg else s.realPkg (e.base.extractLsb' 52 12)
  let opt := fun (a : BitVec 52) => if a = 0 then 0 else fullAddr c a
  (e.extractLsb' 220 292 ++ opt e.ragged ++ opt e.sparse ++ opt e.scale ++ (pkg ++ fullAddr c (e.base.extractLsb' 0 52)) : BitVec 512)

/-- The entry that an id names, owned by the caller's domain and valid; TENSOR otherwise (R261). -/
def useTensor (engine : Bool) (id : BitVec 32) : Op Entry := do
  let s ← getState
  match s.tensorKey s.cur engine id with
  | some k =>
    let t := s.tensor k
    check (t.taken && t.owner == s.coreDom s.cur && Entry.valid t.entry) cTENSOR (id.setWidth 64)
    pure t.entry
  | none => trap cTENSOR (id.setWidth 64)

/-! ## Memory for a command (R278, R279, R284) -/

/-- Translation for a unit: a walk with the core's domain; A and D are set, no TLB is used (log 54). -/
def State.walkUnit (s : State) (dom : BitVec 12) (va : Nat) (kind : Kind) (addr : Word) : Except Stop (Nat × State) :=
  let p : PageFault := { va := addr, dom := dom, why := .absent, level := 0, kind := kind }
  match s.walk dom va with
  | .stopped why lvl => .error (.page { p with why := why, level := lvl, bad := s.walkBad dom va })
  | .leaf e lvl ea =>
    match denied e kind lvl p with
    | some st => .error st
    | none =>
      let e' := e ||| (if kind = .write then 0xC0 else 0x40)
      let s := s.walkScrub dom va
      .ok (leafPA e (lvl == 2) va, if e' = e then s else s.storeAt (s.redirect ea) (bytesOf e' 8))

/-- For whom a unit acts: the issuing core, its domain and its level at issue. -/
structure Actor where
  core : CoreId
  dom  : BitVec 12
  svc  : Bool
  deriving DecidableEq, Repr

/-- An address that a computation formed from a base: a carry out of the 48-bit offset refuses the access (R264). -/
def noCarry (base addr : Word) (n : Nat) : Op Unit :=
  check (base.extractLsb' 48 16 == addr.extractLsb' 48 16 && base.extractLsb' 48 16 == (addr + word (n - 1)).extractLsb' 48 16) cACCESS addr

/-- The place of an address for a unit's access. -/
def unitPlace (a : Actor) (addr : Word) (kind : Kind) : Op Nat := fun s =>
  match s.resolve a.core a.svc true addr with
  | none => .error (.trap cACCESS addr)
  | some (.place p) => .ok (p, s)
  | some (.virt va) => s.walkUnit a.dom va kind addr

/-- A unit's read of `n` bytes. -/
def unitRead (a : Actor) (addr : Word) (n : Nat) : Op Nat := do
  let bs ← (partsOf addr.toNat n).mapM (fun p => do
    let at_ := addr + word p.1
    let pa ← unitPlace a at_ .read
    let v ← readPlace pa p.2 at_ a.dom
    pure (bytesOf (BitVec.ofNat 128 v) p.2))
  pure (natOfBytes bs.flatten)

/-- A place that a unit's write must wait for: a page that is MOVING (08 R181), a row under test, or a unit's exit from
retention (22 R445, R446). -/
def unitReady (p n : Nat) : Op Unit := do
  let s ← getState
  if (s.movingAt p).isSome || s.underTest p n then waitHere
  else match s.sleeping p n with
    | some u => throw (.asleep u.1 u.2)
    | none => pure ()

/-- A unit's write of the bits `bits` of `n` bytes; a masked write that meets an uncorrectable word is ECC. -/
def unitWrite (a : Actor) (addr : Word) (n value bits : Nat) : Op Unit :=
  (partsOf addr.toNat n).forM (fun p => do
    let at_ := addr + word p.1
    let pa ← unitPlace a at_ .write
    let m : BitVec 128 := BitVec.allOnes 128 >>> (128 - 8 * p.2)
    let e : StEntry := { src := a.core, id := 0, inst := 0, dom := a.dom, key := at_.toNat, pa := pa, n := p.2,
                         value := BitVec.ofNat 128 (value / 2 ^ (8 * p.1)) &&& m, bits := BitVec.ofNat 128 (bits / 2 ^ (8 * p.1)) &&& m }
    let s ← getState
    unitReady (s.redirect pa) p.2
    match (if e.plain then none else s.badWord (s.redirect pa) p.2) with
    | some b => throw (.ecc (s.eccAt b at_ a.dom .scrub))
    | none => setState (s.arrive e))

/-- How a unit's access ended a command: the code and the address, with the log and the page request as R279 says. -/
def State.unitStop (s : State) (a : Actor) (st : Stop) : BitVec 8 × Word × State :=
  match st with
  | .trap code d => (code, d, s)
  | .page p => (cPAGE, p.va, (s.logBad p).askPager a.core 0 (pagerItem 0 inPlace s.pkg a.core p.dom p.level 4 p.kind.code p.va))
  | .ecc e => (cECC, e.addr, s.logMet e)
  | .wait | .asleep _ _ => (0, 0, s)

/-- A unit that must wait tries again in a cycle, and starts the exit from retention that it waits for (22 R445); none: it was
stopped. -/
def State.waitAgain (s : State) (st : Stop) (again : Instr) : Option State := match st with
  | .wait => some (s.postOnce 1 again)
  | .asleep kind n => some ((s.setRetention kind n false).postOnce 1 again)
  | _ => none

/-- Do an access for the device's own units, for which a sleeping unit is awake at once (22 R445, log 41); `n` bounds the
units. -/
def State.awake {α : Type} (s : State) (m : Op α) : Nat → Except Stop (α × State)
  | 0 => m s
  | n + 1 => match m s with
    | .error (.asleep kind k) => State.awake (s.wake kind k) m n
    | r => r

/-- Do a list of writes in order until one stops: how many are done, what stopped, and the state with those done. -/
def State.doAll (s : State) : List (Op Unit) → Nat → Nat × Option Stop × State
  | [], k => (k, none, s)
  | m :: t, k => match m s with
    | .ok (_, s') => State.doAll s' t (k + 1)
    | .error st => (k, some st, s)

/-! ## Elements (R264, R265) -/

/-- An index of six coordinates. -/
abbrev Idx := List Nat

/-- Coordinate d of an index. -/
abbrev coord (i : Idx) (d : Nat) : Nat := i.getD d 0

/-- Bits of an element of a format code. -/
def widthOf (f : Nat) : Nat := match fmtOf f with
  | some f => f.bits
  | none => 64

/-- The byte and the bit of an element. -/
def Entry.place (e : Entry) (i : Idx) : Word × Nat :=
  let off := (List.range 5).foldl (fun w d => w + word (coord i (d + 1)) * e.stride (d + 1)) 0
  let bits := if e.fmt = 4 then 24 * (coord i 0 / 4) + 6 * (coord i 0 % 4) else coord i 0 * widthOf e.fmt
  (e.base + off + word (bits / 8), bits % 8)

/-- An address field with the package of BASE. -/
def Entry.withPkg (e : Entry) (a : BitVec 52) : Word := e.base.extractLsb' 52 12 ++ a

/-- The block of an element, and the address of its scale byte. -/
def Entry.scaleAt (e : Entry) (i : Idx) : Word :=
  let nb0 := (e.ext 0 + e.bsize - 1) / e.bsize
  let hi := [4, 3, 2, 1].foldl (fun t d => coord i d + e.ext d * t) (coord i 5)
  e.withPkg e.scale + word (coord i 0 / e.bsize + nb0 * hi)

/-- Is the index outside? The length of a ragged slot is read now. -/
def outside (a : Actor) (e : Entry) (i : Idx) : Op Bool := do
  if (List.range 6).any (fun d => coord i d ≥ e.ext d) then pure true
  else if e.rdim = 0 then pure false
  else
    let at_ := e.withPkg e.ragged + word (2 * coord i e.rdim)
    noCarry (e.withPkg e.ragged) at_ 2
    let len ← unitRead a at_ 2
    pure (coord i (e.rdim - 1) ≥ (if len < e.ext (e.rdim - 1) then len else e.ext (e.rdim - 1)))

/-- The code of an element that is not outside. -/
def readCode (a : Actor) (e : Entry) (i : Idx) : Op Nat := do
  let (addr, bit) := e.place i
  let w := widthOf e.fmt
  noCarry e.base addr ((bit + w + 7) / 8)
  let v ← unitRead a addr ((bit + w + 7) / 8)
  pure (v / 2 ^ bit % 2 ^ w)

/-- The value of a decoded element under its block's scale byte (03 R56). DESIGN CHOICE (log 76): the NaN of scale byte 0xFF,
of which the spec gives no sign, is positive. -/
def scaledBy (x : Num × Flags) (b : Nat) : Num × Flags :=
  if b = 0xFF then (.nan false, x.2 ||| flagINV) else (x.1.scale ((b : Int) - 127), x.2)

/-- A block's scale byte. -/
def readScale (a : Actor) (e : Entry) (i : Idx) : Op Nat := do
  noCarry (e.withPkg e.scale) (e.scaleAt i) 1
  unitRead a (e.scaleAt i) 1

/-- The exact value of an element with its block factor, and the flags of decoding it; zero outside (03 R56, R67). An
integer keeps its factor as the exponent, for R71. -/
def readElem (a : Actor) (md : Modes) (e : Entry) (i : Idx) : Op (Num × Flags) := do
  let out ← outside a e i
  if out then pure (Num.zero false, 0)
  else
    let c ← readCode a e i
    match fmtOf e.fmt with
    | none => pure (Num.zero false, 0)
    | some f =>
      let (v, fl) := decodeNum { md with flush32 := false } f c
      if e.scale = 0 then pure (v, fl)
      else
        let b ← readScale a e i
        pure (scaledBy (v, fl) b)

/-- Write the code of an element. -/
def writeCode (a : Actor) (e : Entry) (i : Idx) (code : Nat) : Op Unit := do
  let (addr, bit) := e.place i
  let w := widthOf e.fmt
  noCarry e.base addr ((bit + w + 7) / 8)
  unitWrite a addr ((bit + w + 7) / 8) (code % 2 ^ w * 2 ^ bit) ((2 ^ w - 1) * 2 ^ bit)

/-- Write a block's scale byte. -/
def writeScale (a : Actor) (e : Entry) (i : Idx) (c : Nat) : Op Unit := do
  noCarry (e.withPkg e.scale) (e.scaleAt i) 1
  unitWrite a (e.scaleAt i) 1 c 0xFF

/-- emax_fmt of 03 R57. -/
def emaxFmt (f : Nat) : Int := match f with
  | 3 => 8 | 4 => 4 | 5 => 1 | 6 => 6 | _ => 2

/-- floor(log2 |x|) of the largest finite nonzero value, if there is one. -/
def maxExp (xs : List Num) : Option Int := xs.foldl (fun best x => match x with
  | .fin _ m e =>
    if m = 0 then best else
      let k := Num.exp m e
      match best with
      | some b => some (if b < k then k else b)
      | none => some k
  | _ => best) none

/-- The scale byte of a block, from its values as they are read: FLUSH32 has made an FP32 subnormal zero (03 R57, R69; log
78). -/
def scaleByte (f : Nat) (xs : List Num) : Nat := match maxExp xs with
  | none => 127
  | some k => let c := k - emaxFmt f + 127
    if c < 0 then 0 else if c > 254 then 254 else c.toNat

/-! ## The tensor instructions (R289–R291) -/

/-- An entry whose owner is the caller's domain; the caller's table key. -/
def ownTensor (id : BitVec 32) : Op (Nat × Tensor) := do
  let s ← getState
  match s.tensorKey s.cur false id with
  | some k =>
    let t := s.tensor k
    check (t.taken && t.owner == s.coreDom s.cur) cTENSOR (id.setWidth 64)
    pure (k, t)
  | none => trap cTENSOR (id.setWidth 64)

/-- R289. -/
def execTdset (a b : Reg) (s : State) :=
  run (straight 4 (do
    let id ← rd a
    let addr ← rd b
    let (k, t) ← ownTensor (id.setWidth 32)
    let bs ← loadRange addr 64 16
    let e : Entry := BitVec.ofNat 512 (natOfBytes bs)
    let s ← getState
    check (e.wellFormed (s.coreSvc s.cur)) cTENSOR ((id.setWidth 32 : BitVec 32).setWidth 64)
    modState (fun s => s.setTensor k { t with entry := e }))) s

/-- R289. -/
def execTdget (a b : Reg) (s : State) :=
  run (straight 4 (do
    let id ← rd a
    let addr ← rd b
    let (_, t) ← ownTensor (id.setWidth 32)
    check (Entry.valid t.entry) cTENSOR ((id.setWidth 32 : BitVec 32).setWidth 64)
    let _ ← checkAddress addr
    check (addr.toNat % 16 == 0) cALIGN addr
    let ps ← mapRange addr 64 .write
    writeRange ps (bytesOf t.entry 64))) s

/-- The lowest free entry of a cluster. -/
def State.freeTensor (s : State) (k : ClusterId) : Option Nat := (List.range 1024).find? (fun i => !(s.tensor (k * 1024 + i)).taken)

/-- R290. -/
def execTdalloc (d : Reg) (s : State) :=
  run (straight 4 (do
    let s ← getState
    let k := clusterOf s.cur
    match s.freeTensor k with
    | some i =>
      modState (fun s => s.setTensor (k * 1024 + i) { taken := true, owner := s.coreDom s.cur, role := none, entry := 0 })
      wr d ((s.pkg ++ BitVec.ofNat 5 k ++ 0#5 ++ BitVec.ofNat 10 i : BitVec 32).setWidth 64)
    | none => wr d 0x8000000000000002)) s

/-- R290. -/
def execTdfree (d a : Reg) (s : State) :=
  run (straight 4 (do
    let x ← rd a
    let id : BitVec 32 := x.setWidth 32
    let s ← getState
    match s.tensorKey s.cur false id with
    | none => trap cTENSOR (id.setWidth 64)
    | some k =>
      let t := s.tensor k
      if !t.taken then wr d 2
      else
        check (t.owner == s.coreDom s.cur) cTENSOR (id.setWidth 64)
        setState { s with tensors := s.tensors.erase k }
        wr d 0)) s

/-- R291. -/
def execTdrag (a b : Reg) (s : State) :=
  run (straight 4 (do
    let x ← rd a
    let r ← rd b
    let id : BitVec 32 := x.setWidth 32
    let (k, t) ← ownTensor id
    let s ← getState
    check (Entry.valid t.entry && s.realPkg (r.extractLsb' 52 12) == s.pkg && r.extractLsb' 0 52 != 0 &&
      entrySpace (s.coreSvc s.cur) (fieldOf r 51 48) && Entry.rdim t.entry != 0) cTENSOR (id.setWidth 64)
    let e : Entry := t.entry.extractLsb' 220 292 ++ r.extractLsb' 0 52 ++ t.entry.extractLsb' 0 168
    modState (fun s => s.setTensor k { t with entry := e }))) s

end Sys2Proof.Machine
end

