-- ==== Sys2Proof/Machine/Matrix.lean ====
section
/-!
DEFINITION. The matrix unit (12 R268–R293; 03 R70–R75): the pass, banks, commands, the arbiter, and the commands'
execution.
-/
namespace Sys2Proof.Machine

/-! ## The aligned-block rule (03 R70–R73) -/

/-- Aligned width of a format code (Table 3.9); none: no operand of a pass. -/
def alignedWidth (f : Nat) : Option Nat := match f with
  | 3 | 4 | 6 => some 8
  | 5 | 7 => some 4
  | 1 => some 12
  | _ => none

/-- The formats a bank holds. -/
def bankFmt (f : Nat) : Bool := narrowFmt f

/-- A 4-bit format. -/
def fourBit (f : Nat) : Bool := f == 5 || f == 7

/-- Is the format an integer? -/
def intFmt (f : Nat) : Bool := f ≥ 6

/-- elem_exp (R71); none: a zero. -/
def elemExp (f w : Nat) (x : Num) : Option Int := match x with
  | .fin _ m e => if m = 0 then none else some (if intFmt f then e + w - 2 else Num.exp m e)
  | _ => none

/-- The largest exponent of a group. -/
def groupExp (f w : Nat) (xs : List Num) : Option Int := xs.foldl (fun best x => match best, elemExp f w x with
  | some b, some k => some (if b < k then k else b)
  | none, k => k
  | b, none => b) none

/-- align(x, e, w) (R71). -/
def alignNum (x : Num) (e : Int) (w : Nat) : Int := roundToGrid x (e - ((w : Int) - 2))

/-- One group's sum × 2^shift (R72); zero when every A or every B of it is zero. -/
def groupTerm (fa fb wa wb : Nat) (A B : List Num) : Num :=
  match groupExp fa wa A, groupExp fb wb B with
  | some ea, some eb =>
    Num.ofInt ((A.zip B).foldl (fun t p => t + alignNum p.1 ea wa * alignNum p.2 eb wb) 0)
      ((ea - ((wa : Int) - 2)) + (eb - ((wb : Int) - 2)))
  | _, _ => Num.zero false

/-- The 32-position groups of a list. -/
def groupsOf (xs : List Num) : List (List Num) := (List.range ((xs.length + 31) / 32)).map (fun g => (xs.drop (32 * g)).take 32)

/-- `pass` before rounding, with the special values of R73 first. -/
def passValue (fa fb : Nat) (A B : List Num) : Num × Flags :=
  let ps := A.zip B
  if ps.any (fun p => p.1.isNan || p.2.isNan) then (.nan false, 0)
  else
    let infs := ps.filter (fun p => p.1.isInf)
    if infs.any (fun p => p.2.isZero) then (.nan false, flagINV)
    else if infs = [] then
      let wa := (alignedWidth fa).getD 8
      let wb := (alignedWidth fb).getD 8
      exactSum (((groupsOf A).zip (groupsOf B)).map (fun g => groupTerm fa fb wa wb g.1 g.2))
    else
      let signs := infs.map (fun p => p.1.isNeg != p.2.isNeg)
      if signs.any (fun b => b) && signs.any (fun b => !b) then (.nan false, flagINV)
      else (.inf (signs.headD false), 0)

/-- A pass and its accumulator add (R72, R75): the new code, and OVF or INV. -/
def passAdd (p : Num × Flags) (acc : Nat) : Nat × Flags :=
  let (c, f1) := encodeNum .fp32 plainModes p.1
  let (r, f2) := addFp32Rne acc c
  (r, p.2 ||| ((f1 ||| f2) &&& (flagOVF ||| flagINV)))

/-! ## Banks and tiles (R268–R270, R276) -/

/-- The other name of a physical bank. -/
abbrev otherName (n : Nat) : Nat := (n + 32) % 64

def Ens.bank (e : Ens) (n : Nat) : Bank := e.banks.get {} n
def Ens.setBank (e : Ens) (n : Nat) (b : Bank) : Ens := { e with banks := e.banks.set n b }
def Ens.isFour (e : Ens) (n : Nat) : Bool := e.four.getLsbD (n % 32)
def Ens.setFour (e : Ens) (n : Nat) (on : Bool) : Ens :=
  { e with four := if on then e.four ||| (1#32 <<< (n % 32)) else e.four &&& ~~~(1#32 <<< (n % 32)) }
def Ens.invalid (e : Ens) (n : Nat) : Ens := e.setBank n { e.bank n with valid := false }

/-- A load of a name begins: it is invalid, and the 4-bit mode follows the format (R268, R278). -/
def Ens.beginLoad (e : Ens) (n f : Nat) : Ens :=
  let e := e.invalid n
  if fourBit f then
    let o := e.bank (otherName n)
    let e := if o.valid && !fourBit o.fmt.toNat then e.invalid (otherName n) else e
    e.setFour n true
  else if e.isFour n then (e.invalid (otherName n)).setFour n false
  else e

/-- The logical span of a bank (Table 12.4). -/
def spanOf (spn : Nat) : Nat := if spn = 0 then 128 else 32 * (32 / spn)

/-- The element (x, y, i2) of a plane (R265 Table 12.3). -/
def planeIdx (e : Entry) (x y i2 : Nat) : Idx := if e.layout then [y, x, i2, 0, 0, 0] else [x, y, i2, 0, 0, 0]

/-- A metadata word's positions; none when the group is illegal (R277). -/
def metaPos (spn w : Nat) : Option (List Nat) :=
  let ps := (List.range spn).map (fun j => w / 2 ^ (3 * j) % 8)
  if w / 2 ^ (3 * spn) = 0 ∧ (ps.zip (ps.drop 1)).all (fun p => p.1 < p.2) then some ps else none

/-- The positions of every group and column of a sparse load, group by group (R278): empty for a column outside. -/
def readMeta (a : Actor) (mbase : Word) (nc spn k0 n0 : Nat) : Op (List (List (List Nat))) :=
  (List.range (spanOf spn / 8)).mapM (fun g => (List.range 128).mapM (fun n =>
    if n0 + n < nc then do
      let at_ := mbase + word (4 * ((k0 / 8 + g) * nc + n0 + n))
      noCarry mbase at_ 4
      let w ← unitRead a at_ 4
      match metaPos spn w with
      | some ps => pure ps
      | none => trap cSPARSE (word ((k0 + 8 * g) * 2 ^ 32 + n0 + n))
    else pure []))

/-- Eight logical positions of a group, from its stored elements. -/
def placeGroup (ps : List Nat) (vs : List Num) : List Num :=
  (List.range 8).map (fun k => ((ps.zip vs).lookup k).getD (Num.zero false))

/-- The columns of a bank load (R278), with the flags of decoding. -/
def loadCols (a : Actor) (md : Modes) (e : Entry) (mbase : Word) (i2 k0 n0 : Nat) : Op (List (List Num) × Flags) := do
  let elem := fun (n s : Nat) => readElem a md e (planeIdx e (n0 + n) s i2)
  let cols ← if e.spn = 0 then
      (List.range 128).mapM (fun n => (List.range 128).mapM (fun s => do
        let x ← elem n (k0 + s)
        pure ([x.1], x.2)))
    else do
      let ms ← readMeta a mbase (e.ext (if e.layout then 1 else 0)) e.spn k0 n0
      (List.range 128).mapM (fun n => (List.range (spanOf e.spn / 8)).mapM (fun g => do
        let ps := (ms.getD g []).getD n []
        let vs ← (List.range ps.length).mapM (fun j => elem n ((k0 / 8 + g) * e.spn + j))
        pure (placeGroup ps (vs.map (·.1)), vs.foldl (fun f v => f ||| v.2) 0)))
  pure (cols.map (fun c => c.flatMap (·.1)), cols.foldl (fun f c => c.foldl (fun f v => f ||| v.2) f) 0)

/-- A loaded name; `bad`: its storage holds an uncorrectable error, logged already (22 R442, log 70). -/
def Ens.loaded (e : Ens) (n : Nat) (ent : Entry) (cols : List (List Num)) (bad : Bool) : Ens :=
  e.setBank n { valid := true, bad := bad, fmt := BitVec.ofNat 4 ent.fmt, spn := BitVec.ofNat 3 ent.spn, span := spanOf ent.spn,
                err := 0, cols := cols }

/-- Row r of a tile, as 128 codes. -/
def tileRow (t : List (List (BitVec 32))) (r : Nat) : List (BitVec 32) :=
  (List.range 128).map (fun n => (t.getD r []).getD n 0)

/-- A tile of 32 rows with row r replaced. -/
def setRow (t : List (List (BitVec 32))) (r : Nat) (row : List (BitVec 32)) : List (List (BitVec 32)) :=
  (List.range 32).map (fun k => if k = r then row else tileRow t k)

/-! ## Issue (R271, R275, R280, R283, R285, R286, R292) -/

/-- The queue that a completion handle names, ACTIVE (R292 step 2). -/
def completionQueue (h : Reg) : Op (BitVec 32) := do
  let s ← getState
  check (s.handleActive h) cQGONE (h.setWidth 64)
  pushHandle h

/-- The entry that a command captures, of a well-formed tensor with a format it takes and a BASE, as the table holds it, in a
space it takes of the issuing package (R275, R280, R283). -/
def captureFor (id : BitVec 32) (fmtOk : Nat → Bool) (spaces : List Nat) (dense : Bool) : Op Entry := do
  let e ← useTensor false id
  let s ← getState
  check (e.wellFormed (s.coreSvc s.cur) && fmtOk e.fmt && (!dense || e.spn == 0) && spaces.contains (fieldOf e.base 51 48) &&
    s.realPkg (e.base.extractLsb' 52 12) == s.pkg) cTENSOR (id.setWidth 64)
  pure (s.captured s.cur e)

/-- The physical tile of an accumulator name (R270). -/
def tileOf (acc : Nat) : Op Nat := do
  let x ← getMe
  match Tbl.find? x.accs acc with
  | some t => pure t
  | none => trap cACCESS (word acc)

/-- A MATQ check (R275, R280, R283). -/
def checkMatq (b : Bool) : Op Unit := do
  let s ← getState
  check b cMATQ s.openDetail

/-- Put a command into the core's queue of 16 entries: a release of the instance's accesses (R271, R293). -/
def issueMatrix (q : BitVec 32) (op : MOp) : Op Unit := do
  waitPerformed 5
  let s ← getState
  if s.me.mq.length ≥ 16 then waitHere
  else
    let c : MCmd := { id := s.nextId, core := s.cur, q := q, dom := s.coreDom s.cur, svc := s.coreSvc s.cur, nmode := s.me.nmode,
                      role := (s.me.role).getD 0, op := op, at_ := 0 }
    setState ((({ s with nextId := s.nextId + 1 } : State).updCore s.cur (fun x => { x with mq := x.mq ++ [c] })).postOnce 1
      (.matrixAccept (ensOf s.cur)))

/-- R275. -/
def execMloadb (d a b : Reg) (n : BitVec 6) (s : State) :=
  run (straight 4 (do
    let q ← completionQueue d
    let x ← rd a
    let y ← rd b
    let e ← captureFor (x.setWidth 32) bankFmt [0, 1, 2, 7, 8] false
    let k0 := fieldOf y 19 0
    checkMatq (fieldOf x 63 52 == 0 && fieldOf y 63 40 == 0 && (e.spn == 0 || k0 % 8 == 0) && (n.toNat < 32 || fourBit e.fmt))
    issueMatrix q (.loadb n e (fieldOf x 51 32) k0 (fieldOf y 39 20)))) s

/-- R280. -/
def execMma (d a b : Reg) (n : BitVec 6) (s : State) :=
  run (straight 4 (do
    let x ← rd a
    let y ← rd b
    let e ← captureFor (x.setWidth 32) (fun f => (alignedWidth f).isSome) [1, 2, 7, 8] true
    let nb := fieldOf y 50 45 + 1
    let s ← getState
    let banks := (s.role (s.me.role.getD 0)).banks
    match ((List.range nb).drop 1).find? (fun j => n.toNat + j < 64 && !banks.getLsbD ((n.toNat + j) % 32)) with
    | some j => trap cACCESS (word (n.toNat + j))
    | none => pure ()
    let t ← tileOf d.toNat
    checkMatq (fieldOf x 63 52 == 0 && fieldOf y 63 51 == 0 && n.toNat + nb ≤ 64)
    issueMatrix 0 (.mma d.toNat t n nb e (fieldOf x 51 32) (fieldOf y 19 0) (fieldOf y 39 20) (fieldOf y 44 40 + 1)))) s

/-- R283. -/
def execMdrain (d a b : Reg) (z : BitVec 1) (n : BitVec 3) (s : State) :=
  run (straight 4 (do
    let q ← completionQueue d
    let x ← rd a
    let y ← rd b
    let e ← captureFor (x.setWidth 32) (fun _ => true) [0, 1, 2, 7, 8] true
    let t ← tileOf n.toNat
    let col0 := fieldOf y 39 20
    checkMatq (fieldOf x 63 52 == 0 && fieldOf y 63 55 == 0 && (e.scale == 0 || (!e.layout && col0 % e.bsize == 0)))
    issueMatrix q (.drain n.toNat t (z == 1) e (fieldOf x 51 32) (fieldOf y 19 0) col0 (fieldOf y 44 40 + 1)
      (y.extractLsb' 45 10).toInt))) s

/-- R285. -/
def execMzero (d : Reg) (s : State) := run (straight 4 (do let t ← tileOf d.toNat; issueMatrix 0 (.zero t))) s

/-- R285. -/
def execMbinv (n : BitVec 6) (s : State) := run (straight 4 (issueMatrix 0 (.inval n))) s

/-- R286. -/
def execMnote (d a : Reg) (s : State) :=
  run (straight 4 (do
    let q ← completionQueue d
    let x ← rd a
    issueMatrix q (.note x))) s

/-! ## Acceptance and readiness (R272, R273) -/

/-- The bank names (by physical bank) and tiles that a command reads and writes. -/
def MOp.reads : MOp → List Nat
  | .mma _ t n nb _ _ _ _ _ => (100 + t) :: (List.range nb).map (fun j => (n.toNat + j) % 32)
  | .drain _ t _ _ _ _ _ _ _ => [100 + t]
  | _ => []
def MOp.writes : MOp → List Nat
  | .loadb n _ _ _ _ => [n.toNat % 32]
  | .inval n => [n.toNat % 32]
  | .mma _ t _ _ _ _ _ _ _ => [100 + t]
  | .zero t => [100 + t]
  | .drain _ t z _ _ _ _ _ _ => if z then [100 + t] else []
  | .note _ => []

/-- The path of a command: load, pass, drain; a note has none. -/
def MOp.path : MOp → Nat
  | .loadb _ _ _ _ _ | .inval _ => 0
  | .mma _ _ _ _ _ _ _ _ _ | .zero _ => 1
  | .drain _ _ _ _ _ _ _ _ _ => 2
  | .note _ => 3

/-- Does an earlier-accepted command keep a later one from starting? -/
def MCmd.holdsBack (x c : MCmd) : Bool :=
  match c.op with
  | .note _ => x.core == c.core
  | _ => (x.op.path == c.op.path) || c.op.writes.any (fun l => x.op.reads.contains l || x.op.writes.contains l) ||
      c.op.reads.any (fun l => x.op.writes.contains l)

/-- A command accepted and free to start. -/
def Ens.ready (e : Ens) (id : Nat) : Option MCmd :=
  match e.accepted.find? (fun c => c.id == id) with
  | some c => if (e.accepted.takeWhile (fun x => x.id ≠ id)).any (fun x => x.holdsBack c) then none else some c
  | none => none

/-- A command that has finished leaves the unit; its time is sampled (22 R449). -/
def State.finishCmd (s : State) (e : EnsId) (id : Nat) : State :=
  let gone := (s.ens e).accepted.filter (fun c => c.id == id)
  gone.foldl (fun s c => s.samples 5 (e % 32) (some (e / 32)) (s.now - c.at_))
    (s.updEns e (fun x => { x with accepted := x.accepted.filter (fun c => c.id ≠ id) }))

/-- The execution of a command, by its kind. -/
def MCmd.event (e : EnsId) (c : MCmd) : Instr := match c.op with
  | .loadb _ _ _ _ _ => .mloadbExecute e c.id
  | .mma _ _ _ _ _ _ _ _ _ => .mmaExecute e c.id
  | .drain _ _ _ _ _ _ _ _ _ => .mdrainExecute e c.id
  | .zero _ => .mzeroExecute e c.id
  | .inval _ => .mbinvExecute e c.id
  | .note _ => .mnotePush e c.id

/-- The core that the arbiter takes from (R272), and how many commands it has taken there. -/
def State.arbiter (s : State) (e : EnsId) : Option (Nat × Nat) :=
  let x := s.ens e
  let q := fun (k : Nat) => !(s.core (8 * e + k)).mq.isEmpty
  let w := (s.core (8 * e + x.arbCore)).weight
  if q x.arbCore ∧ x.arbTaken < (if w = 0 then 1 else w) then some (x.arbCore, x.arbTaken)
  else (((List.range 8).map (fun k => (x.arbCore + 1 + k) % 8)).find? q).map (fun k => (k, 0))

/-- MATRIX_ACCEPT (R272): a core whose queue empties has had its turn. -/
def execMatrixAccept (e : EnsId) (s : State) :=
  happen (match s.arbiter e with
    | none => s
    | some (k, n) =>
      match (s.core (8 * e + k)).mq with
      | c :: _ =>
        let rest := (s.core (8 * e + k)).mq.drop 1
        let s := s.updCore (8 * e + k) (fun x => { x with mq := rest })
        let s := s.updEns e (fun x => { x with arbCore := k, arbTaken := if rest.isEmpty then 15 else n + 1,
                                               accepted := x.accepted ++ [{ c with at_ := s.now }] })
        let s := s.post 0 (c.event e)
        if (s.arbiter e).isSome then s.postOnce 1 (.matrixAccept e) else s
      | [] => s)

/-- Run a command when it can start; a command that cannot yet is tried again, and so is one whose arrays are asleep, which
starts their exit from retention (22 R445). A note uses none. -/
def State.withCmd (s : State) (e : EnsId) (id : Nat) (again : Instr) (f : MCmd → State) : State :=
  match (s.ens e).ready id with
  | some c => if s.asleep 4 e && c.op.path ≠ 3 then (s.setRetention 4 e false).postOnce 1 again else f c
  | none => if (s.ens e).accepted.any (fun c => c.id == id) then s.postOnce 1 again else s

/-! ## Execution (R278–R287) -/

/-- A completion item (Table 12.6). -/
def matrixItem (detail : Word) (status : BitVec 8) (f : Flags) (func unit index : Nat) : Item :=
  dataItem (detail ++ status ++ f ++ 0#1 ++ BitVec.ofNat 5 func ++ BitVec.ofNat 6 unit ++ 0#5 ++ BitVec.ofNat 32 index)

def MCmd.actor (c : MCmd) : Actor := { core := c.core, dom := c.dom, svc := c.svc }
def MCmd.modes (c : MCmd) : Modes := modesOf c.nmode

/-- What the core's next MNOTE reports (R286). -/
def State.holdNote (s : State) (c : CoreId) (status : BitVec 8) (f : Flags) : State :=
  s.updCore c (fun x => { x with note := { status := if x.note.status = 0 then status else x.note.status, flags := x.note.flags ||| f,
                                           count := x.note.count + (if status = 0 then 0 else 1) } })

/-- MLOADB_EXECUTE (R278, R279). -/
def execMloadbExecute (e : EnsId) (id : Nat) (s : State) :=
  happen (s.withCmd e id (.mloadbExecute e id) (fun c => match c.op with
    | .loadb n ent i2 k0 n0 =>
      match loadCols c.actor c.modes ent (ent.withPkg ent.sparse) i2 k0 n0 s with
      | .ok ((cols, f), s) =>
        let r := s.storeItem 4 e (Config.arrayOffset 4 n.toNat) 2048 c.dom
        let s := (r.2.updEns e (fun x => (x.beginLoad n.toNat ent.fmt).loaded n.toNat ent cols r.1)).finishCmd e id
        s.pushFor c.core c.q (matrixItem 0 0 f 0 n.toNat 0)
      | .error st => match s.waitAgain st (.mloadbExecute e id) with
        | some t => t
        | none =>
          let (code, d, s) := s.unitStop c.actor st
          let s := (s.updEns e (fun x => let y := x.beginLoad n.toNat ent.fmt
            y.setBank n.toNat { y.bank n.toNat with err := code.setWidth 6 })).finishCmd e id
          s.pushFor c.core c.q (matrixItem d code 0 0 n.toNat 0)
    | _ => s))

/-- The values of one row of A for each bank, all read before its first pass; a failure names the bank. -/
def readRow (a : Actor) (md : Modes) (ent : Entry) (y i2 : Nat) :
    List (Nat × Bank) → Nat → State → Except (Stop × Nat) (List (List Num) × Flags × State)
  | [], _, s => .ok ([], 0, s)
  | (n, b) :: t, kb, s =>
    match ((List.range b.span).mapM (fun k => readElem a md ent (planeIdx ent (kb + k) y i2))) s with
    | .error st => .error (st, n)
    | .ok (vs, s) => match readRow a md ent y i2 t (kb + b.span) s with
      | .error x => .error x
      | .ok (rest, f, s) => .ok (vs.map (·.1) :: rest, vs.foldl (fun f v => f ||| v.2) f, s)

/-- The passes of one row over the banks, in order (R281); a bad bank gives NaN (R282). -/
def passRow (fa : Nat) (bs : List Bank) (As : List (List Num)) (row : List (BitVec 32)) : List (BitVec 32) × Flags :=
  (bs.zip As).foldl (fun acc p =>
    let rs := (List.range 128).map (fun n =>
      let v := if p.1.bad then ((.nan false : Num), (0 : Flags)) else passValue fa p.1.fmt.toNat p.2 (p.1.cols.getD n [])
      passAdd v (acc.1.getD n 0).toNat)
    (rs.map (fun r => BitVec.ofNat 32 r.1), rs.foldl (fun f r => f ||| r.2) acc.2)) (row, 0)

/-- The progress of an MMA: the state, the tile, the flags, whether a row has been passed, and what stopped it at which
bank. -/
structure MmaRun where
  s    : State
  tile : List (List (BitVec 32))
  f    : Flags
  met  : Bool
  stop : Option (Stop × Nat)

/-- One row of an MMA. DESIGN CHOICE (log 77): of the flags of decoding A, INV alone reaches the note: a UNF that FLUSHN sets
(03 R67) does not, since a pass raises only INV and OVF (03 R75). -/
def mmaRow (a : Actor) (md : Modes) (ent : Entry) (i2 row0 k0 first : Nat) (bs : List (Nat × Bank)) (m : MmaRun) (r : Nat) : MmaRun :=
  if m.stop.isSome then m
  else match outside a ent (planeIdx ent 0 (row0 + r) i2) m.s with
    | .error st => { m with stop := some (st, first) }
    | .ok (true, s) => { m with s := s }
    | .ok (false, s) => match readRow a md ent (row0 + r) i2 bs k0 s with
      | .error x => { m with s := s, stop := some x }
      | .ok (As, f, s) =>
        let (row, g) := passRow ent.fmt (bs.map (·.2)) As (tileRow m.tile r)
        { s := s, tile := setRow m.tile r row, f := m.f ||| (f &&& flagINV) ||| g, met := true, stop := none }

/-- The DETAIL of an MMA's report (R282). -/
def mmaDetail (bank acc : Nat) : Word := word (bank + 256 * acc)

/-- MMA_EXECUTE (R281, R282). An uncorrectable error of a bank was logged when it was met. -/
def execMmaExecute (e : EnsId) (id : Nat) (s : State) :=
  happen (s.withCmd e id (.mmaExecute e id) (fun c => match c.op with
    | .mma acc t n nb ent i2 row0 k0 rows =>
      let x := s.ens e
      let names := (List.range nb).map (fun j => n.toNat + j)
      match names.find? (fun k => !(x.bank k).valid) with
      | some k =>
        let s := (s.finishCmd e id).holdNote c.core cMATQ 0
        s.report c.core cMATQ (mmaDetail k acc) 0
      | none =>
        let bs := names.map (fun k => (k, x.bank k))
        let m := (List.range rows).foldl (mmaRow c.actor c.modes ent i2 row0 k0 n.toNat bs) { s := s, tile := x.tiles.get [] t, f := 0, met := false, stop := none }
        match m.stop.bind (fun x => s.waitAgain x.1 (.mmaExecute e id)) with
        | some t => t
        | none =>
          let bad := if m.met then (bs.filter (fun b => b.2.bad)).map (·.1) else []
          let s := m.s.updEns e (fun y => bad.foldl (fun y k => y.setBank k { y.bank k with valid := false, bad := false, err := cECC.setWidth 6 })
            { y with tiles := y.tiles.set t m.tile })
          let s := s.finishCmd e id
          let s := bad.foldl (fun s k => s.report c.core cECC (mmaDetail k acc) 0) s
          let first : BitVec 8 := if bad = [] then 0 else cECC
          match m.stop with
          | some (.page p, k) => ((s.logBad p).holdNote c.core (if first = 0 then cPAGE else first) m.f).report c.core cPAGE (mmaDetail k acc) p.va
          | some (st, k) =>
            let (code, d, s) := s.unitStop c.actor st
            (s.holdNote c.core (if first = 0 then code else first) m.f).report c.core code (mmaDetail k acc) d
          | none => s.holdNote c.core first m.f
    | _ => s))

/-- The source of a drained element for a destination format: FLUSH32 reads an FP32 subnormal as zero for any format but
FP32 (R284; 03 R66, R68). -/
def drainValue (md : Modes) (fmt : Fmt) (code : BitVec 32) (e : Int) : Num × Flags :=
  let (v, f) := if fmt = .fp32 then (decodeFloat .fp32 code.toNat, 0) else decodeNum md .fp32 code.toNat
  (v.scale e, f)

/-- The writes of a drain, position by position (R284): of each position its writes, with the flags of its encoding. -/
def drainWrites (a : Actor) (md : Modes) (ent : Entry) (i2 row0 col0 rows : Nat) (ex : Int) (tile : List (List (BitVec 32))) :
    List (Op Flags) :=
  match fmtOf ent.fmt with
  | none => []
  | some fmt =>
    (List.range rows).flatMap (fun r =>
      let row := tileRow tile r
      (List.range 128).map (fun n => do
        let i := planeIdx ent (col0 + n) (row0 + r) i2
        let out ← outside a ent i
        if out then pure 0
        else
          -- the block of a block-scaled destination: its inside columns, its scale byte written at the first of them
          let b0 := n / ent.bsize * ent.bsize
          let ins ← if ent.scale = 0 then pure [] else
            (List.range ent.bsize).filterM (fun k => do
              let o ← outside a ent (planeIdx ent (col0 + b0 + k) (row0 + r) i2)
              pure (!o))
          let c : Nat := if ent.scale = 0 then 127 else
            scaleByte ent.fmt (ins.map (fun k => (drainValue md fmt (row.getD (b0 + k) 0) ex).1))
          if ent.scale ≠ 0 ∧ ins.head? = some (n - b0) then writeScale a ent i c
          let (v, f1) := drainValue md fmt (row.getD n 0) ex
          let (code, f2) := encodeFmt fmt md (v.scale (127 - (c : Int)))
          writeCode a ent i code
          pure (f1 ||| f2)))

/-- Do the writes in order until one stops. -/
def State.drainAll (s : State) : List (Op Flags) → Nat → Flags → Nat × Flags × Option Stop × State
  | [], k, f => (k, f, none, s)
  | m :: t, k, f => match m s with
    | .ok (g, s') => State.drainAll s' t (k + 1) (f ||| g)
    | .error st => (k, f, some st, s)

/-- MDRAIN_EXECUTE (R284). -/
def execMdrainExecute (e : EnsId) (id : Nat) (s : State) :=
  happen (s.withCmd e id (.mdrainExecute e id) (fun c => match c.op with
    | .drain acc t z ent i2 row0 col0 rows ex =>
      let r := s.drainAll (drainWrites c.actor c.modes ent i2 row0 col0 rows ex ((s.ens e).tiles.get [] t)) 0 0
      match r.2.2.1 with
      | some st => match s.waitAgain st (.mdrainExecute e id) with
        | some t => t
        | none =>
          let (code, d, s) := r.2.2.2.unitStop c.actor st
          (s.finishCmd e id).pushFor c.core c.q (matrixItem d code r.2.1 2 acc r.1)
      | none =>
        let s := (r.2.2.2.updEns e (fun x => if z then { x with tiles := x.tiles.erase t } else x)).finishCmd e id
        s.pushFor c.core c.q (matrixItem 0 0 r.2.1 2 acc (rows * 128))
    | _ => s))

/-- MZERO_EXECUTE (R285). -/
def execMzeroExecute (e : EnsId) (id : Nat) (s : State) :=
  happen (s.withCmd e id (.mzeroExecute e id) (fun c => match c.op with
    | .zero t => ((s.updEns e (fun x => { x with tiles := x.tiles.erase t })).finishCmd e id).holdNote c.core 0 0
    | _ => s))

/-- MBINV_EXECUTE (R285). -/
def execMbinvExecute (e : EnsId) (id : Nat) (s : State) :=
  happen (s.withCmd e id (.mbinvExecute e id) (fun c => match c.op with
    | .inval n =>
      ((s.updEns e (fun x => if n.toNat ≥ 32 then x.invalid n.toNat
        else ((x.invalid n.toNat).invalid (n.toNat + 32)).setFour n.toNat false)).finishCmd e id).holdNote c.core 0 0
    | _ => s))

/-- MNOTE_PUSH (R286, R287). -/
def execMnotePush (e : EnsId) (id : Nat) (s : State) :=
  happen (s.withCmd e id (.mnotePush e id) (fun c => match c.op with
    | .note v =>
      let n := (s.core c.core).note
      let s := (s.updCore c.core (fun x => { x with note := {} })).finishCmd e id
      s.pushFor c.core c.q (matrixItem v n.status n.flags 6 0 n.count)
    | _ => s))

/-- The word of a bank name (R288 Table 12.7): a load that has been accepted and can start is running. -/
def State.bankWord (s : State) (e : EnsId) (n : Nat) : Word :=
  let x := s.ens e
  let b := x.bank n
  let loads := x.accepted.filter (fun c => match c.op with
    | .loadb k _ _ _ _ => k.toNat == n
    | _ => false)
  let running := loads.any (fun c => (x.ready c.id).isSome)
  word ((if b.valid && !running then 2 ^ 63 else 0) + (if loads.isEmpty then 0 else 2 ^ 62) + (if x.isFour n then 2 ^ 61 else 0) +
    b.spn.toNat * 2 ^ 58 + b.fmt.toNat * 2 ^ 54 + b.err.toNat * 2 ^ 48)

/-- R288. -/
def execMbstat (d : Reg) (n : BitVec 6) (s : State) :=
  run (straight 4 (do let s ← getState; wr d (s.bankWord (ensOf s.cur) n.toNat))) s

end Sys2Proof.Machine
end

