-- ==== Sys2Proof/Machine/Remote.lean ====
section
/-!
DEFINITION. Remote access and cues (15 R323–R339; 13 R306), the end of a migration (08 R181), and the link instructions and
events (15 R340–R352).
-/
namespace Sys2Proof.Machine

/-! ## Cues (R327–R332) -/

/-- The parts of a cue (Table 15.1). -/
abbrev cueOrigin (c : BitVec 32) : BitVec 12 := c.extractLsb' 20 12
abbrev cueSlot (c : BitVec 32) : Nat := fieldOf c 19 8
abbrev cueGen (c : BitVec 32) : BitVec 8 := c.extractLsb' 0 8
/-- The null cue (R327). -/
abbrev cueNull (c : BitVec 32) : Bool := cueGen c == 0

/-- The cue lifetime of a domain in cycles (R328). -/
def State.life (s : State) (dom : BitVec 12) : Nat := (s.devGet (lifeReg dom)).toNat * 2000

/-- A cue of this package names nothing live (R328). -/
def State.staleCue (s : State) (c : BitVec 32) : Bool :=
  let e := s.cue (cueSlot c)
  e.st == .free || e.gen != cueGen c || s.now ≥ e.issuedAt + s.life e.dom

/-- The lowest-numbered FREE cue-table entry. -/
def State.freeCue (s : State) : Option Nat := (List.range 4096).find? (fun k => (s.cue k).st == .free)

/-- Where an item of the package tables stands among the code words of array (5, 0) (22 Table 22.4, log 70): cue entries, hold
entries, and so on, by table and index. -/
def tableWord (table k : Nat) : Nat := Config.arrayOffset 5 (table * 2 ^ 20 + k)

/-- Issue a cue in an entry (R328, R329 step 1). An entry that is lost to an injected error fails its cue (22 Table 22.5). -/
def State.issueCue (s : State) (k : Nat) (target dom : BitVec 12) : BitVec 32 × State :=
  let g : BitVec 8 := if (s.cue k).gen = 255 then 1 else (s.cue k).gen + 1
  let e : Cue := { target := target, dom := dom, issue := BitVec.ofNat 24 (s.time / 64), issuedAt := s.now, st := .pending, gen := g }
  let x := s.storeItem 5 0 (tableWord 0 k) 4 dom
  (s.pkg ++ BitVec.ofNat 12 k ++ g, (x.2.setCue k { e with st := if x.1 then .failed else .pending }).post (s.life dom) (.cueEntryFree (BitVec.ofNat 12 k)))

/-- Answer the CUEQs that wait for a cue, and drop their timers (R338). -/
def State.answerQueries (s : State) (cue : BitVec 32) (status : BitVec 8) : State :=
  let e := s.cue (cueSlot cue)
  let s := s.setCue (cueSlot cue) { e with queries := [] }
  e.queries.foldl (fun s w =>
    let s := { s with happenings := s.happenings.filter (fun h => h.2 != Instr.watch cue w) }
    match w with
    | .core p c serial q => s.send p (.cueq { core := c, serial := serial, q := q, cue := cue, status := status })
    | .package _ => s) s

/-- The fate of a cue of this package is known (R329 step 5, R330). -/
def State.settleCue (s : State) (cue : BitVec 32) (landed : Bool) : State :=
  let k := cueSlot cue
  let e := s.cue k
  if e.st = .pending ∧ e.gen = cueGen cue then
    let s := s.setCue k { e with st := if landed then .landed else .failed }
    let s := e.dest.foldl (fun s p => s.send p (if landed then .landing cue else .failure cue cCUEBAD)) s
    (s.answerQueries cue (if landed then 0 else cCUEBAD)).postOnce 0 (.cueEntryFree (BitVec.ofNat 12 k))
  else s

/-- The cue that a request carries. -/
def carriedCue (r : RemoteReq) : BitVec 32 := match r.kind with
  | .store _ _ c _ _ => c
  | _ => 0

def isStore (r : RemoteReq) : Bool := match r.kind with
  | .store _ _ _ _ _ => true
  | _ => false

/-- A store not marked landed. -/
def mustHold (r : RemoteReq) : Bool := match r.kind with
  | .store _ _ _ mark _ => mark != .landed
  | _ => false

/-- A cue-fault item at the destination end (R332); a refusal is counted in the network service's log. -/
def State.cueFault (s : State) (r : RemoteReq) (code : BitVec 8) : State :=
  let reg := s.devGet (cueFaultReg r.domain)
  let id : BitVec 32 := if reg = 0 then s.qidOf (serviceKey 3) else reg.setWidth 32
  let item := dataItem (r.addr ++ 0#24 ++ code ++ carriedCue r)
  if s.qidPkg id = s.pkg then
    match s.acceptNote (qkeyOf id) item r.domain with
    | .ok s => s
    | .error _ => s.pushRefused byNetwork false false id 0
  else s.send (s.qidPkg id) (.push { qid := id, item := item, domain := r.domain, checked := true, srcPkg := s.pkg, core := byNetwork,
                                     serial := 0, curtain := false, notice := false })

/-- A held store is discarded: both ends hear, and a cue it would have returned fails (R330, R331). -/
def State.discardHeld (s : State) (r : RemoteReq) (code : BitVec 8) : State :=
  let s := s.cueFault r code
  let s := s.send r.origin (.ack { core := r.core, serial := r.serial, code := code, where_ := (carriedCue r).setWidth 64, data := [], at_ := 0 })
  match r.kind with
  | .store _ _ _ _ ret => if ret = 0 then s else s.send (cueOrigin ret) (.failed ret cCUEBAD)
  | _ => s

/-- Hold-queue entries leave it: their times are sampled (22 R449), and withheld credit goes back (R333, R343). -/
def State.unhold (s : State) (go : HoldE → Bool) : State :=
  ((s.hold.filter go).foldl (fun s h => s.samples 7 0 none ((s.now - h.at_) / 2)) ({ s with hold := s.hold.filter (fun h => !go h) } : State)).giveCredit

/-- A cue enters the landed-cue cache for at most its lifetime (R329); the least recently entered one gives way. -/
def State.cacheCue (s : State) (cue : BitVec 32) (life : Nat) : State :=
  let l := s.landed.filter (fun e => e.1 ≠ cue) ++ [(cue, s.now)]
  { s with landed := l.drop (l.length - 1024) }.postOnce life (.landedCueCacheExpiry cue)

/-- A request marked landed, to be applied as it stands. -/
def markLanded (r : RemoteReq) : RemoteReq := match r.kind with
  | .store n v c _ ret => { r with kind := .store n v c .landed ret }
  | _ => r

/-- Release every held store that carries the cue, in the order they were held; those whose timer has ended are left
to expire (R329 steps 5 and 7, R353). -/
def State.releaseHeld (s : State) (cue : BitVec 32) : State :=
  let go := fun (h : HoldE) => h.cue == cue && s.now < h.at_ + s.life h.req.domain
  let out := s.hold.filter go
  out.foldl (fun s h => s.post 0 (.remoteRequestArrival (markLanded h.req))) (s.unhold go)

/-! ## Applying a request at its target (R323–R326, R339) -/

/-- Translation of an address by the ingress, with the target's checks (08 R180, R17): the place, or why not. -/
def State.ingress (s : State) (die : Nat) (dom : BitVec 12) (va : Nat) (kind : Kind) (addr : Word) : Except Stop (Nat × State) :=
  let p : PageFault := { va := addr, dom := dom, why := .absent, level := 0, kind := kind }
  match s.walk dom va with
  | .stopped why lvl => .error (.page { p with why := why, level := lvl, bad := s.walkBad dom va })
  | .leaf e lvl ea =>
    match denied e kind lvl p with
    | some st => .error st
    | none =>
      let e' := e ||| (if kind = .write then 0xC0 else 0x40)
      let s := s.walkScrub dom va
      let s := if e' = e then s else s.storeAt (s.redirect ea) (bytesOf e' 8)
      let large := lvl == 2
      let entry : TlbE := { dom := dom, page := if large then va / 2 ^ 25 else va / 2 ^ 16, large := large, leaf := e, gen := s.gen dom }
      .ok (leafPA e large va, { s with ingressTlb := s.ingressTlb.set die (tlbFill (s.ingressTlb.get [] die) 4096 entry) })

/-- The core that issued a request, or an engine's command. -/
def requestCore (r : RemoteReq) : CoreId := if r.core < 8192 then r.core else r.inst

/-- The die whose ingress takes a request (log 50). -/
def State.ingressDie (s : State) (r : RemoteReq) : Nat :=
  if r.origin = s.pkg then dieOf (requestCore r) else match s.route r.origin with
    | some t => t / 32
    | none => 0

/-- The bytes that a request of a core reaches. -/
def requestBytes (r : RemoteReq) : Nat := match r.kind with
  | .store n _ _ _ _ | .read n _ _ | .atomic _ n _ _ _ => n
  | .packet _ _ _ | .fetch _ _ _ => 0

/-- The place of an address that a request reaches here, at the home where it stands. -/
def State.placeFor (s : State) (r : RemoteReq) (kind : Kind) (addr : Word) : Except Stop (Nat × State) :=
  match s.resolve 0 r.svc false addr with
  | none => .error (.trap cACCESS addr)
  | some (.place p) => .ok (p, s)
  | some (.virt va) => (s.ingress (s.ingressDie r) r.domain va kind addr).map (fun x => (x.2.redirect x.1, x.2))

/-- The place that a request of a core reaches here. -/
def State.requestPlace (s : State) (r : RemoteReq) : Except Stop (Nat × State) := match r.kind with
  | .read _ _ _ | .fetch _ _ _ => s.placeFor r .read r.addr
  | .store _ _ _ _ _ | .packet _ _ _ => s.placeFor r .write r.addr
  | .atomic _ _ _ _ _ => match s.placeFor r .write r.addr with
    | .ok (_, t) => t.placeFor r .read r.addr
    | .error e => .error e

/-- The request is applied at its point: its answer leaves (R324, R329 step 5, R339). -/
def State.applyRequest (s : State) (r : RemoteReq) (p : Nat) : State :=
  let result := fun (s : State) (q : BitVec 32) (lo hi : Word) =>
    s.send r.origin (.result { core := r.core, serial := r.serial, q := q, item := pairItem 0 lo hi })
  let read := fun (n : Nat) (go : State → State) => match s.badWord p n with
    | some b =>
      let e := s.eccAt b r.addr r.domain .scrub
      (s.logMet e).failRequest r cECC
    | none => go (s.scrub p n r.addr r.domain)
  match r.kind with
  | .store n value _ _ ret =>
    let v : BitVec 128 := value.setWidth 128
    let m := BitVec.allOnes 128 >>> (128 - 8 * n)
    let s := s.arriveHome { src := 8192, id := 0, inst := 0, dom := r.domain, key := p, pa := p, n := n, value := v &&& m, bits := m }
    let s := if ret = 0 then s else ((s.cacheCue ret (s.life r.domain)).releaseHeld ret).send (cueOrigin ret) (.landed ret)
    s.send r.origin (.ack { core := r.core, serial := r.serial, code := 0, where_ := r.addr, data := [], at_ := 0 })
  | .read n q cookie => read n (fun s => result s q (word (s.peek p n)) cookie)
  | .atomic op n operand cmp q => read n (fun s =>
      let x := s.atomicAt p n op.toNat operand cmp
      result x.2 q x.1 r.addr)
  | .packet _ _ _ | .fetch _ _ _ => s

/-- An earlier access of the request's core to its page is queued at another home: this one waits (08 R182). -/
def State.pageBehind (s : State) (r : RemoteReq) (p : Nat) : Bool :=
  let same := fun (x y : Word) => fieldOf x 51 48 == 0 && fieldOf y 51 48 == 0 && fieldOf x 47 16 == fieldOf y 47 16
  s.migrations.any (fun m => !inFrame m.old m.cmd.large p && m.queued.any (fun q => match q with
    | .request x _ => x.origin == r.origin && x.core == r.core && x.domain == r.domain && same x.addr r.addr
    | _ => false))

/-- Try a request at its point (R325): applied, queued at a page that is MOVING, failed, or in a remote-miss slot with a pager
request; it stays pending while no slot is free, its row is under test, or its unit leaves retention. -/
def State.tryRequest (s : State) (r : RemoteReq) : State :=
  let again := fun (s : State) => s.post 1 (.remoteRequestArrival (markLanded r))
  match s.requestPlace r with
  | .ok (p, t) =>
    if (t.movingAt p).isSome then t.queueAt p (.request (markLanded r) p)
    else if t.pageBehind r p || t.blocked p (requestBytes r) then again (t.rouse p (requestBytes r))
    else t.applyRequest r p
  | .error (.page f) =>
    let die := s.ingressDie r
    if (s.misses.filter (fun m => m.die == die)).length ≥ 64 then again s
    else
      let s := { s.logBad f with misses := s.misses ++ [({ die := die, dom := r.domain, page := fieldOf r.addr 47 16, req := r } : Miss)] }
      s.askPager (ingressOf die) 0 (pagerItem r.pc inPlace r.origin r.core r.domain f.level 5 f.kind.code r.addr)
  | .error (.trap code _) => s.failRequest r code
  | .error _ => s.failRequest r cACCESS

/-! ## Packets of another package's engine (13 R304, R306) -/

/-- Where a range of a packet lies, part by part (09 R196): its place, where it begins in the range, and its bytes; or what
stops it. -/
def State.packetParts (s : State) (r : RemoteReq) (addr : Word) (n : Nat) (kind : Kind) : Except Stop (List (Nat × Nat × Nat) × State) :=
  (partsOf addr.toNat n).foldlM (fun (x : List (Nat × Nat × Nat) × State) q =>
    (x.2.placeFor r kind (addr + word q.1)).map (fun y => (x.1 ++ [(y.1, q.1, q.2)], y.2))) ([], s)

/-- Some part of a range must be waited for: a page that is MOVING, a row under test, a unit in retention. -/
def State.partsBlocked (s : State) (ps : List (Nat × Nat × Nat)) : Bool := ps.any (fun q => (s.movingAt q.1).isSome || s.blocked q.1 q.2.2)

/-- A packet's part is written; a masked one may find its word bad. -/
def State.writePart (s : State) (r : RemoteReq) (w : PacketWrite) (q : Nat × Nat × Nat) : Except Stop State :=
  let m := BitVec.allOnes 128 >>> (128 - 8 * q.2.2)
  let e : StEntry := { src := 8192, id := 0, inst := 0, dom := r.domain, key := q.1, pa := q.1, n := q.2.2,
                       value := BitVec.ofNat 128 (w.value / 2 ^ (8 * q.2.1)) &&& m, bits := BitVec.ofNat 128 (w.bits / 2 ^ (8 * q.2.1)) &&& m }
  match (if e.plain then none else s.badWord q.1 q.2.2) with
  | some b => .error (.ecc (s.eccAt b (w.addr + word q.2.1) r.domain .scrub))
  | none => .ok (s.arriveHome e)

/-- One write of a packet. -/
def State.packetWrite (s : State) (r : RemoteReq) (w : PacketWrite) : Except Stop State :=
  match s.packetParts r w.addr w.n .write with
  | .error st => .error st
  | .ok (ps, t) => if t.partsBlocked ps then .error .wait else ps.foldlM (fun t q => t.writePart r w q) t

/-- One read of a packet: its bytes as a number. -/
def State.packetRead (s : State) (r : RemoteReq) (x : PacketRead) : Except Stop (Nat × State) :=
  match s.packetParts r x.addr x.n .read with
  | .error st => .error st
  | .ok (ps, t) =>
    if t.partsBlocked ps then .error .wait
    else match ps.findSome? (fun q => (t.badWord q.1 q.2.2).map (fun b => (b, q.2.1))) with
      | some b => .error (.ecc (t.eccAt b.1 (x.addr + word b.2) r.domain .scrub))
      | none =>
        let t := ps.foldl (fun t q => t.scrub q.1 q.2.2 x.addr r.domain) t
        .ok (natOfBytes (ps.flatMap (fun q => t.bytesAt q.1 q.2.2)), t)

/-- The units that a waiting packet reaches leave retention. -/
def State.rouseParts (s : State) (r : RemoteReq) (addr : Word) (n : Nat) (kind : Kind) : State :=
  match s.packetParts r addr n kind with
  | .ok (ps, _) => ps.foldl (fun s q => s.rouse q.1 q.2.2) s
  | .error _ => s

/-- A packet fails at an element: the engine hears of it, with what was read before, and no later packet of the copy is
applied; an absent page is asked for (R304). -/
def State.breakPacket (s : State) (r : RemoteReq) (got : List Nat) (index : Nat) (addr : Word) (st : Stop) : State :=
  let fail := fun (s : State) (code : BitVec 8) (addr : Word) =>
    State.send { s with brokenCopies := s.brokenCopies ++ [(r.origin, r.core, r.serial)] } r.origin
      (.ack { core := r.core, serial := r.serial, code := code, where_ := addr, data := got, at_ := index })
  match st with
  | .page f => fail ((s.logBad f).askPager (ingressOf (s.ingressDie r)) 0
      (pagerItem r.pc inPlace r.origin (requestCore r) r.domain f.level 4 f.kind.code f.va)) cPAGE f.va
  | .ecc e => fail (s.logMet e) cECC e.addr
  | .trap code detail => fail s code detail
  | _ => fail s cACCESS addr

/-- The writes of a packet, in order, those of one block together (R304); one that must wait keeps the rest of the packet
waiting with it. -/
def State.packetWrites (s : State) (r : RemoteReq) (lo hi : Nat) (ws : List PacketWrite) : Nat → State
  | 0 => s
  | fuel + 1 => match ws with
    | [] => s.send r.origin (.ack { core := r.core, serial := r.serial, code := 0, where_ := r.addr, data := [], at_ := hi })
    | w :: _ =>
      let unit := ws.takeWhile (fun x => x.index == w.index)
      match unit.foldlM (fun t x => t.packetWrite r x) s with
      | .ok t => State.packetWrites t r lo hi (ws.drop unit.length) fuel
      | .error .wait => (unit.foldl (fun s x => s.rouseParts r x.addr x.n .write) s).post 1
          (.remoteRequestArrival { r with kind := .packet lo hi ws })
      | .error st => s.breakPacket r [] w.index w.addr st

/-- The reads of a packet that asks for elements. -/
def State.packetReads (s : State) (r : RemoteReq) (hi : Nat) (got : List Nat) : List PacketRead → State
  | [] => s.send r.origin (.ack { core := r.core, serial := r.serial, code := 0, where_ := r.addr, data := got, at_ := hi })
  | x :: t => match s.packetRead r x with
    | .ok (v, s) => State.packetReads s r hi (got ++ [v]) t
    | .error .wait => (s.rouseParts r x.addr x.n .read).post 1 (.remoteRequestArrival r)
    | .error st => s.breakPacket r got x.index x.addr st

/-! ## Arrival (R325, R329) -/

/-- An earlier request of the same source that this one is applied after is still on its way here: of the same instance to
common bytes (R335); of the same copy, the packet before it (13 R306). -/
def State.behind (s : State) (r : RemoteReq) : Bool :=
  let earlier := fun (x : RemoteReq) => x.origin == r.origin && x.core == r.core && x.inst == r.inst &&
    (if r.core ≥ 8192 then x.serial == r.serial && packetFirst x < packetFirst r
     else x.serial < r.serial && fieldOf x.addr 51 0 < fieldOf r.addr 51 0 + requestBytes r && fieldOf r.addr 51 0 < fieldOf x.addr 51 0 + requestBytes x)
  s.readsFirst (.request r) || s.hold.any (fun h => earlier h.req) || s.misses.any (fun m => earlier m.req) ||
    s.happenings.any (fun h => match h.2 with
      | .remoteRequestArrival x => earlier x
      | _ => false)

/-- A store takes a hold-queue entry (R329 step 4, R331), or is lost to an injected error of it (22 Table 22.5). -/
def State.holdStore (s : State) (r : RemoteReq) (cue : BitVec 32) (watch : Bool) : State :=
  let x := s.storeItem 5 0 (tableWord 1 s.hold.length) 8 r.domain
  if x.1 then x.2.discardHeld r cCUEBAD
  else
    let (id, s) := x.2.fresh
    let s := ({ s with hold := s.hold ++ [({ id := id, req := r, cue := cue, at_ := s.now } : HoldE)] } : State).post (s.life r.domain) (.heldStoreExpiry id)
    if watch then s.send (cueOrigin cue) (.watch cue (.package s.pkg)) else s

/-- REMOTE_REQUEST_ARRIVAL (R325, R329 step 4; 13 R306). A store that arrives in the cycle of its cue's failure notice is
discarded with it (R353). -/
def execRemoteRequestArrival (r : RemoteReq) (s : State) :=
  happen (
    if s.behind r then s.post 1 (.remoteRequestArrival r)
    else match r.kind with
      | .store _ _ cue mark _ =>
        if cueNull cue ∨ mark = .landed ∨ s.landed.any (fun e => e.1 == cue) then s.tryRequest r
        else if s.failedCues.contains (cue, s.now) then s.discardHeld r cCUEBAD
        else if s.hold.length ≥ 1024 then s.post 1 (.remoteRequestArrival r)
        else s.holdStore r cue (mark == .watch)
      | .packet lo hi ws => if s.brokenCopies.contains (r.origin, r.core, r.serial) then s else s.packetWrites r lo hi ws (ws.length + 1)
      | .fetch _ hi xs => s.packetReads r hi [] xs
      | _ => s.tryRequest r)

/-! ## The end of a migration (08 R181) -/

/-- What an instance waits for changes, wherever it stands. -/
def State.setWait (s : State) (c : CoreId) (inst : Nat) (w : Wait) (f : Inst → Inst) : State :=
  s.updCore c (fun x =>
    let x := { x with held := x.held.map (fun h => if h.inst.id = inst then match h.st with
        | .parked _ => { h with st := .parked w, inst := f h.inst }
        | .preempted (some _) => { h with st := .preempted (some w), inst := f h.inst }
        | _ => h
      else h) }
    if x.inst.id = inst then match x.cond with
      | .parked _ => { x with cond := .parked w, inst := f x.inst }
      | .stopped (some _) => { x with cond := .stopped (some w), inst := f x.inst }
      | _ => x
    else x)

/-- An instance that waits is terminated with a fault. -/
def State.failWaiting (s : State) (c : CoreId) (inst : Nat) (code : BitVec 8) (detail : Word) : State :=
  match (s.core c).held.find? (fun h => h.inst.id == inst) with
  | some h => s.faultHeld c h code detail
  | none => if (s.core c).inst.id = inst then s.takeFault c code detail else s

/-- An atomic that was queued is applied (09 R204): its result goes to the instance that waits for it, if it still does. -/
def State.queuedAtomic (s : State) (c : CoreId) (inst : Nat) (dom : BitVec 12) (p n func : Nat) (op cmp : Word) : State :=
  let waits : Option Reg := match s.waitOf c inst with
    | some (.atomicOut d) => some d
    | _ => none
  match s.badWord p n with
  | some b =>
    let e := s.eccAt b (s.globalOf p) dom (.access c)
    let s := s.logMet e
    if waits.isSome then s.failWaiting c inst cECC e.addr else s
  | none =>
    let s := s.scrub p n (s.globalOf p) dom
    let v := s.peek p n
    let r := s.atomicAt p n func op cmp
    match waits with
    | some d => (r.2.setWait c inst (.atomic d r.1) (fun i => { i with record := noteRead i.record p n (BitVec.ofNat 128 v) })).post 0
        (.atomicResultReturn c inst)
    | none => r.2

/-- A queued access is applied at the new home. -/
def State.applyQueued (s : State) (m : Migr) : Queued → State
  | .store e => s.arriveHome { e with pa := m.moved e.pa }
  | .atomic c inst dom p n func op cmp => s.queuedAtomic c inst dom (m.moved p) n func op cmp
  | .request r p => s.applyRequest r (m.moved p)

/-- MIGRATION_COMPLETE (08 R181): the frame is at the new home, the queued accesses are applied there in their order, a
redirect entry stays, and completion is reported to the pager. -/
def execMigrationComplete (frame : BitVec 40) (s : State) :=
  happen (match s.migrations.find? (fun m => m.old == frame) with
    | none => s
    | some m =>
      let size := if m.cmd.large then 2 ^ 25 else 2 ^ 16
      let s : State := { s with mem := Memory.moveFrame s.mem m.old.toNat m.cmd.frame.toNat size,
                                migrations := s.migrations.filter (fun y => y.old ≠ frame),
                                redirects := s.redirects ++ [({ dom := m.cmd.domain, va := m.cmd.va, large := m.cmd.large, old := m.old, new := m.cmd.frame } : Redirect)],
                                migStat := s.migStat.set (m.old.toNat / 2 ^ 36) migDONE,
                                cores := s.cores.map (fun c => (c.1, c.2.follow m)) }
      let s := (m.queued.foldl (fun s q => s.applyQueued m q) s).emit (.control 2 m.old.toNat 0)
      s.cores.foldl (fun s c => s.wakeOrder c.1) s)

/-! ## Notices, watches and timers (R328–R331, R338) -/

/-- LANDING_ACK_AT_ORIGIN (R329 step 5). -/
def execLandingAckAtOrigin (cue : BitVec 32) (s : State) := happen (s.settleCue cue true)

/-- CUE_FAILURE (R330). -/
def execCueFailure (cue : BitVec 32) (s : State) := happen (s.settleCue cue false)

/-- LANDING_NOTICE (R329 step 7). -/
def execLandingNotice (cue : BitVec 32) (s : State) :=
  happen (
    let life := match s.hold.find? (fun h => h.cue == cue) with
      | some h => s.life h.req.domain
      | none => 20000
    (s.releaseHeld cue).cacheCue cue life)

/-- FAILURE_NOTICE (R330, R353): the held stores that carry the cue are discarded, and those that arrive in its cycle. -/
def execFailureNotice (cue : BitVec 32) (s : State) :=
  happen (
    let out := (s.hold.filter (fun h => h.cue == cue)).map (·.req)
    let arriving := fun (i : Instr) => match i with
      | .remoteRequestArrival r => if carriedCue r == cue && !cueNull cue && mustHold r then some r else none
      | _ => none
    let out := out ++ s.happenings.filterMap (fun h => arriving h.2)
    let s : State := { s with happenings := s.happenings.filter (fun h => (arriving h.2).isNone),
                              failedCues := s.failedCues.filter (fun e => e.2 == s.now) ++ [(cue, s.now)] }
    out.foldl (fun s r => s.discardHeld r cCUEBAD) (s.unhold (fun h => h.cue == cue)))

/-- WATCH (R329 step 6, R338): a package's watch, or a CUEQ; a CUEQ that still waits after its lifetime is answered
CUEEXP. -/
def execWatch (cue : BitVec 32) (w : Watcher) (s : State) :=
  happen (
    let k := cueSlot cue
    let e := s.cue k
    let answer := fun (s : State) (status : BitVec 8) => match w with
      | .package p => s.send p (if status = 0 then .landing cue else .failure cue cCUEBAD)
      | .core p c serial q => s.send p (.cueq { core := c, serial := serial, q := q, cue := cue, status := status })
    if e.queries.contains w then
      (answer (s.setCue k { e with queries := dropFirst (· == w) e.queries }) cCUEEXP).postOnce 0 (.cueEntryFree (BitVec.ofNat 12 k))
    else if cueOrigin cue ≠ s.pkg ∨ s.staleCue cue ∨ e.st = .failed then answer s cCUEBAD
    else if e.st = .landed then answer s 0
    else match w with
      | .package p =>
        if e.dest.contains p then s
        else if e.dest.length < 16 then s.setCue k { e with dest := e.dest ++ [p] }
        else s.send p (.notYet cue)
      | .core _ _ _ _ => (s.setCue k { e with queries := e.queries ++ [w] }).post (s.life e.dom) (.watch cue w))

/-- WATCH_RESEND (R329 step 6). -/
def execWatchResend (cue : BitVec 32) (s : State) :=
  happen (if s.hold.any (fun h => h.cue == cue) then s.send (cueOrigin cue) (.watch cue (.package s.pkg)) else s)

/-- HELD_STORE_EXPIRY (R331). -/
def execHeldStoreExpiry (id : Nat) (s : State) :=
  happen (match s.hold.find? (fun h => h.id == id) with
    | none => s
    | some h =>
      if s.now < h.at_ + s.life h.req.domain then s.post (h.at_ + s.life h.req.domain - s.now) (.heldStoreExpiry id)
      else (s.unhold (fun y => y.id == id)).discardHeld h.req cCUEEXP)

/-- CUE_ENTRY_FREE (R328): at the later of the lifetime's end and the last notice. -/
def execCueEntryFree (slot : BitVec 12) (s : State) :=
  happen (
    let e := s.cue slot.toNat
    let cue : BitVec 32 := s.pkg ++ slot ++ e.gen
    let sending := s.egress.any (fun o => o.waiting && (o.msg == .landing cue || o.msg == .failure cue cCUEBAD))
    if e.st = .free then s
    else if s.now < e.issuedAt + s.life e.dom then s.postOnce (e.issuedAt + s.life e.dom - s.now) (.cueEntryFree slot)
    else if e.st = .pending ∧ (e.dest ≠ [] ∨ e.queries ≠ []) then s
    else if sending then s.postOnce 1024 (.cueEntryFree slot)
    else
      let s := s.setCue slot.toNat { gen := e.gen }
      s.cores.foldl (fun s c => s.wakeSlots c.1) s)

/-- CUEQ_ANSWER (R338): the item is pushed, and the slot is freed. -/
def execCueqAnswer (x : CueqRes) (s : State) :=
  happen (if s.stillOut x.core x.serial then
      (s.pushFor x.core x.q (dataItem (0#64 ++ 0#24 ++ x.status ++ x.cue))).freeSlot x.core x.serial
    else s)

/-- REMOTE_RESULT (R339). -/
def execRemoteResult (r : RemoteRes) (s : State) :=
  happen (if s.stillOut r.core r.serial then (s.pushFor r.core r.q r.item).freeSlot r.core r.serial else s)

/-- LANDED_CUE_CACHE_EXPIRY (R329). -/
def execLandedCueCacheExpiry (cue : BitVec 32) (s : State) :=
  happen { s with landed := s.landed.filter (fun e => e.1 ≠ cue) }

/-! ## Remote instructions (R337–R339) -/

/-- R323: the checks of R15 at issue, without translation, and the spaces that a request may name. -/
def State.remoteFields (s : State) (addr : Word) : Bool := farFields (s.coreSvc s.cur) addr

/-- The package an address names. -/
def State.addrPkg (s : State) (addr : Word) : BitVec 12 := s.realPkg (addr.extractLsb' 52 12)

/-- Program order at a remote request of the running instance to bytes of this package (09 R192, R335): it waits for buffered
stores that share bytes with it and are held back, and for contributions to them; the others are applied first. -/
def ownBefore (addr : Word) (n : Nat) : Op Unit := do
  let s ← getState
  match (if s.addrPkg addr = s.pkg then s.resolve s.cur true false addr else none) with
  | none => pure ()
  | some l =>
    let mine := fun (e : StEntry) => e.meets (s.coreDom s.cur) l.key n
    if s.me.stbuf.any (fun e => mine e && s.stuck s.cur e) || s.me.contribMeets l.key n then waitHere
    else setState (s.applyEntries s.cur (s.me.chains mine))

/-- Send a request of the running instance. -/
def sendRequest (serial : Nat) (addr : Word) (kind : RemoteKind) : Op Unit := modState (fun s =>
  s.sendRequest (s.addrPkg addr) { serial := serial, origin := s.pkg, core := s.cur, domain := s.coreDom s.cur,
                                   svc := s.coreSvc s.cur, inst := s.me.inst.id, pc := s.me.pc, addr := addr, kind := kind })

/-- How a carried cue is marked, with the destination recorded at the origin (R329 steps 2 and 3). -/
def State.markCue (s : State) (cue : BitVec 32) (dst : BitVec 12) : CueMark × State :=
  if cueNull cue then (.plain, s)
  else if cueOrigin cue ≠ s.pkg then (.watch, s)
  else
    let k := cueSlot cue
    let e := s.cue k
    if e.st = .landed then (.landed, s)
    else if e.dest.contains dst then (.plain, s)
    else if e.dest.length < 16 then (.plain, s.setCue k { e with dest := e.dest ++ [dst] })
    else (.watch, s.setCue k { e with overrun := true })

/-- A remote store (R337): `carry` names the register of the carried cue, `ret` that of the new one. -/
def remoteStore (a b : Reg) (w : BitVec 2) (carry ret : Option Reg) : Op Unit := do
  let addr ← rd a
  let v ← rd b
  let n := 2 ^ w.toNat
  let s ← getState
  check (s.remoteFields addr) cACCESS addr
  check (addr.toNat % n == 0) cALIGN addr
  let cue : BitVec 32 ← match carry with
    | some r => (do let x ← rd r; pure (x.setWidth 32))
    | none => pure 0
  check (cueNull cue || (cueOrigin cue != 0xFFF && !(cueOrigin cue == s.pkg && (s.staleCue cue || (s.cue (cueSlot cue)).st == .failed))))
    cCUEBAD (cue.setWidth 64)
  let dst := s.addrPkg addr
  ownBefore addr n
  let n0 ← takeSlot { serial := 0, inst := 0, store := true, read := false, addr := addr, qid := none, cue := 0, notice := false, at_ := 0 }
  let new ← match ret with
    | none => pure 0
    | some _ => do
      let s ← getState
      match s.freeCue with
      | none => waitHere
      | some k => do
        let x := s.issueCue k dst (s.coreDom s.cur)
        setState x.2
        pure x.1
  let s ← getState
  let m := s.markCue cue dst
  setState m.2
  sendRequest n0 addr (.store n (v &&& (0xFFFFFFFFFFFFFFFF >>> (64 - 8 * n))) cue m.1 new)
  match ret with
  | some r => wr r (new.setWidth 64)
  | none => pure ()

def execStx (d a b : Reg) (w : BitVec 2) (s : State) := run (straight 4 (remoteStore a b w none (some d))) s
def execStCue (d a b : Reg) (w : BitVec 2) (s : State) := run (straight 4 (remoteStore a b w (some d) none)) s
def execStxCue (d a b c : Reg) (w : BitVec 2) (s : State) := run (straight 8 (remoteStore a b w (some c) (some d))) s

/-- A result queue that is ACTIVE (R338, R339): QGONE is the one fault, so the fault handle, which no push may name (22 R436),
raises it too. -/
def resultQueue (d : Reg) : Op (BitVec 32) := do
  let s ← getState
  check (s.handleActive d) cQGONE (d.setWidth 64)
  match s.me.handle d with
  | .queue id => pure id
  | _ => trap cQGONE (d.setWidth 64)

/-- R338. -/
def execCueq (d a : Reg) (s : State) :=
  run (straight 4 (do
    let x ← rd a
    let cue : BitVec 32 := x.setWidth 32
    let q ← resultQueue d
    let n ← takeSlot { serial := 0, inst := 0, store := false, read := false, addr := x, qid := none, cue := cue, notice := false, at_ := 0 }
    modState (fun s =>
      let at_ := fun (st : BitVec 8) => s.post 0 (.cueqAnswer { core := s.cur, serial := n, q := q, cue := cue, status := st })
      if cueNull cue then at_ 0
      else if cueOrigin cue = 0xFFF then at_ cCUEBAD
      else s.send (cueOrigin cue) (.watch cue (.core s.pkg s.cur n q))))) s

/-- R339: what GETQ and AMOQ share. -/
def remoteRead (d a : Reg) (n : Nat) (kind : Word → BitVec 32 → RemoteKind) : Op Unit := do
  let addr ← rd a
  let s ← getState
  check (s.remoteFields addr) cACCESS addr
  let q ← resultQueue d
  check (addr.toNat % n == 0) cALIGN addr
  ownBefore addr n
  let serial ← takeSlot { serial := 0, inst := 0, store := true, read := true, addr := addr, qid := none, cue := 0, notice := false, at_ := 0 }
  sendRequest serial addr (kind addr q)

def execGetq (d a b : Reg) (w : BitVec 2) (s : State) :=
  run (straight 4 (do
    let cookie ← rd b
    remoteRead d a (2 ^ w.toNat) (fun _ q => .read (2 ^ w.toNat) q cookie))) s

def execAmoq (d a b : Reg) (x : BitVec 1) (o : BitVec 4) (s : State) :=
  run (straight 4 (do
    let n := if x = 1 then 8 else 4
    let op ← rd b
    let cmp ← if o = 9 then rd (nextReg b 1) else pure 0
    remoteRead d a n (fun _ q => .atomic o n op cmp q))) s

/-- The next instruction is a remote request, a push or a BREAK notice out of the package, or a cue-returning store, and finds
no slot or no entry (R324). -/
def State.slotWaits (s : State) (c : CoreId) : Bool := match s.waiting c with
  | some (p, w) =>
    let x := s.core c
    let full := x.outst.length ≥ 64
    let far := fun (id : BitVec 32) => s.qidPkg id != s.pkg
    let handle := fun (h : Reg) => match x.handle h with
      | .queue id => far id
      | _ => false
    let m := wordMajor w
    let f := wordFunc w
    match p with
    | none =>
      if m = 0x0E then (f ≤ 5 && full) || (f == 0 && s.freeCue.isNone)
      else if m = 0x0D ∧ (f = 5 ∨ f = 6 ∨ f = 7) then full && (if w.getLsbD 5 then far ((x.reg (wordD w)).setWidth 32) else handle (wordD w))
      else if m = 0x07 ∧ f = 13 then full && x.dbgctl.getLsbD 0 && x.dbgq ≠ 0 && far (x.dbgq.setWidth 32)
      else false
    | some pre =>
      if prefixKind p = some 2 then m == 0x0E && f == 2 && (full || s.freeCue.isNone)
      else prefixKind p = some 0 && pre.getLsbD 4 && full && handle (wordD w)
  | none => false

/-- ISSUE_WAIT_TIMEOUT (R324). -/
def execIssueWaitTimeout (c : CoreId) (s : State) :=
  happen (if s.slotWaits c then s.park c (.hw .slot) else s)

/-! ## Links (R341–R346, R351, R352) -/

/-- Replay from ACK + 1 (R342): what is sent again is intact. -/
def Trunk.replayed (t : Trunk) : Trunk :=
  { t with replays := BitVec.ofNat 8 (satTo 255 (t.replays.toNat + 1)), recent := t.recent + 1, replay := t.replay.map (fun f => { f with crc := flitCode f }) }

/-- What a flit's header tells a trunk (R342, R343): an acknowledgement frees the replay buffer, a NAK replays, and credits
come back. -/
def Trunk.heard (t : Trunk) (f : Flit) : Trunk :=
  let t := if f.ackv then { t with replay := t.replay.filter (fun g => (f.ack - g.seq).toNat ≥ 2 ^ 23) } else t
  let t := if f.nak then t.replayed else t
  { t with credits := t.credits.upd 0 f.ccls.toNat (fun u => u - f.cred.toNat) }

/-- A flit is discarded (R341, R342): the sender is told the last intact SEQ. -/
def State.nak (s : State) (n : Nat) : State := s.emit (.link n (s.trunk n).rxSeq true 0 0)

/-- A packet that a trunk delivers: to this package, or onward on the route of its destination (R346). -/
def State.deliverPacket (s : State) (p : BitVec 12 × Msg) : State :=
  if p.1 = s.pkg then s.postMsg p.2 else s.sendOut { dst := p.1, msg := p.2, waiting := true, transit := true }

/-- FLIT_RECEIVE (R341–R343, R346): flits are delivered in SEQ order, once; what is discarded tells nothing else. Link-control
flits stand outside the sequence (log 8). A class's buffer drains as its flits are delivered, and their credits go back. -/
def execFlitReceive (trunk : BitVec 6) (f : Flit) (s : State) :=
  happen (
    let n := trunk.toNat
    let t := s.trunk n
    if t.ports = 0 ∨ t.st = .down then s
    else if !flitIntact f then s.nak n
    else if f.cls = 3 then (s.setTrunk n (t.heard f)).releaseEgress
    else if f.seq ≠ t.rxSeq + 1 then s.nak n
    else
      let t := { t.heard f with rxSeq := f.seq, owed := t.owed.upd 0 f.cls.toNat (· + 1) }
      (f.packets.foldl (fun s p => s.deliverPacket p) (s.setTrunk n t)).releaseEgress.giveCredit)

/-- ACK_TIMEOUT (R342). -/
def execAckTimeout (trunk : BitVec 6) (s : State) :=
  happen (
    let t := s.trunk trunk.toNat
    if t.ports ≠ 0 ∧ t.st = .up ∧ t.replay ≠ [] then s.setTrunk trunk.toNat t.replayed else s)

/-- LANE_FAULT (R344, R345). -/
def execLaneFault (trunk : BitVec 6) (lane : Nat) (s : State) := happen (s.faultLane trunk.toNat lane false).releaseEgress

/-- RETRAIN_COMPLETE (R344): the trunk is UP at its new width, windows and ack timeout follow, senders replay. -/
def execRetrainComplete (trunk : BitVec 6) (s : State) :=
  happen (
    let n := trunk.toNat
    let t := s.trunk n
    if t.st = .retraining then
      let t' := { t with st := .up, step := t.target.1, inuse := t.target.2, ackTime := 4000 * 2 ^ t.target.1, restoring := false }
      let t' := if t.restoring then t' else { t'.replayed with retrains := BitVec.ofNat 8 (satTo 255 (t.retrains.toNat + 1)) }
      (s.setTrunk n t').releaseEgress
    else s)

/-- The status word of a trunk (Table 15.12). -/
def Trunk.word (t : Trunk) : Word :=
  let st := match t.st with
    | .up => 0
    | .retraining => 1
    | .down => 2
  Machine.word (st * 2 ^ 62 + t.step * 2 ^ 60 + laneCount t.inuse * 2 ^ 55 + t.inuse.toNat * 2 ^ 32 + t.faulted.toNat * 2 ^ 16 +
    t.retrains.toNat * 2 ^ 8 + t.replays.toNat)

/-- R351. -/
def execLnkstat (d a : Reg) (s : State) :=
  run (straight 4 (do
    let x ← rd a
    let s ← getState
    let t := s.trunk (fieldOf x 5 0)
    wr d (if fieldOf x 63 6 ≠ 0 ∨ t.ports = 0 then 3#64 <<< 62 else t.word))) s

/-- R352: the status, and the state. -/
def State.linkDiag (s : State) (x y : Word) : Nat × State :=
  let n := fieldOf x 5 0
  let op := fieldOf x 9 8
  let lane := fieldOf y 3 0
  let t := s.trunk n
  if fieldOf x 63 10 ≠ 0 ∨ fieldOf x 7 6 ≠ 0 ∨ fieldOf y 63 40 ≠ 0 ∨ fieldOf y 15 4 ≠ 0 then (4, s)
  else if t.ports = 0 then (1, s)
  else if lane ≥ 4 * t.ports ∨ (op ≤ 1 ∧ !t.inuse.getLsbD lane) then (2, s)
  else if t.st = .retraining ∨ (op = 1 ∧ t.armed.isSome) then (3, s)
  else match op with
    | 0 => (0, (s.faultLane n lane true).releaseEgress)
    | 1 => (0, s.setTrunk n { t with armed := some (lane, fieldOf y 39 16) })
    | 2 => (0, (s.setTrunk n { t with injected := 0, retrains := 0, replays := 0, armed := none }).retrain n (Trunk.widest t.ports t.failed 0) true)
    | _ => (0, s.setTrunk n { t with corrupt := true })

/-- R352. -/
def execLnkdiag (d a b : Reg) (s : State) :=
  run (straight 4 (do
    needService
    let x ← rd a
    let y ← rd b
    let s ← getState
    let r := s.linkDiag x y
    setState r.2
    wr d (word r.1))) s

end Sys2Proof.Machine
end

