-- ==== Sys2Proof/Machine/Engines.lean ====
section
/-!
DEFINITION. The copy and reduction engines (13 R297–R320; 03 R57, R67, R77): commands and their queues, copies, fills,
exact reductions, completions; and the acknowledgement of a remote request or of an engine's packet (15 R324).
-/
namespace Sys2Proof.Machine

/-! ## Commands and completions (R297, R299, R301, R313) -/

/-- The elements of a tensor (R301). -/
def Entry.count (e : Entry) : Nat := (List.range 6).foldl (fun n d => n * e.ext d) 1

/-- The coordinates of element `k` in canonical order (R301). -/
def Entry.idx (e : Entry) (k : Nat) : Idx :=
  ((List.range 6).foldl (fun (p : List Nat × Nat) d => (p.1 ++ [p.2 % e.ext d], p.2 / e.ext d)) ([], k)).1

/-- The package of an entry's BASE, as captured. -/
abbrev Entry.basePkg (e : Entry) : BitVec 12 := e.base.extractLsb' 52 12

def XCmd.actor (c : XCmd) : Actor := { core := c.core, dom := c.dom, svc := c.svc }
def XCmd.modes (c : XCmd) : Modes := modesOf c.nmode

/-- FUNC of Table 13.3. -/
def XCmd.func (c : XCmd) : Nat := match c.op with
  | .copy _ _ => 0
  | .red _ _ _ _ _ => 1
  | .fill _ _ => 2

/-- The elements that a command covers. -/
def XCmd.count (c : XCmd) : Nat := match c.op with
  | .copy _ d | .fill d _ => d.count
  | .red e _ _ _ _ => e.count

/-- The source, or for a fill the destination: where a LINK ending's DETAIL points when the source is remote. -/
def XCmd.src (c : XCmd) : Entry := match c.op with
  | .copy e _ | .fill e _ | .red e _ _ _ _ => e

/-- The destination; a rank that receives nothing has none. -/
def XCmd.dst (c : XCmd) : Option Entry := match c.op with
  | .copy _ d | .fill d _ => some d
  | .red _ d _ _ _ => d

/-- The completion item (Table 13.3). -/
def engineItem (detail : Word) (status : BitVec 8) (f : Flags) (func eng index : Nat) : Item :=
  dataItem (detail ++ status ++ f ++ BitVec.ofNat 3 func ++ BitVec.ofNat 6 eng ++ BitVec.ofNat 40 index)

/-- A running command of an engine. -/
def State.xcmd (s : State) (eng id : Nat) : Option XCmd := (s.engine eng).running.find? (fun c => c.id == id)

/-- Replace a running command. -/
def State.setXcmd (s : State) (eng : Nat) (c : XCmd) : State :=
  let g := s.engine eng
  s.setEngine eng { g with running := g.running.map (fun x => if x.id = c.id then c else x) }

/-- The execution of a command that an engine starts: an element loop, or the rank's arrival at its root, here or in
another package (R310). -/
def State.startCmd (s : State) (eng : Nat) (c : XCmd) : State :=
  match c.op with
  | .copy _ _ => s.post 1 (.xcopyExecute (BitVec.ofNat 6 eng) c.id c.count)
  | .fill _ _ => s.post 1 (.xfillExecute (BitVec.ofNat 6 eng) c.id c.count)
  | .red _ _ r root reng =>
    if root = s.pkg then s.post 1 (.xredRootArrival reng r) else s.send root (.rank reng r)

/-- Start queued commands in order while fewer than four run (R297); a rank that starts at its count completes at once
(R309). -/
def State.kick (s : State) (eng : Nat) : Nat → State
  | 0 => s
  | n + 1 =>
    let g := s.engine eng
    match g.queue with
    | [] => s
    | c :: t =>
      if g.running.length ≥ 4 then s
      else if c.func = 1 ∧ c.start = c.count then
        State.kick ((s.setEngine eng { g with queue := t }).pushFor c.core c.q (engineItem 0 0 0 1 eng c.count)) eng n
      else State.kick ((s.setEngine eng { g with queue := t, running := g.running ++ [c] }).startCmd eng c) eng n

/-- A command ends: its completion is pushed, and the engine goes on (R313). -/
def State.endXcmd (s : State) (eng : Nat) (c : XCmd) (status : BitVec 8) (detail : Word) (index : Nat) : State :=
  let g := s.engine eng
  if (g.running ++ g.queue).any (fun x => x.id == c.id) then
    let s := s.setEngine eng { g with queue := g.queue.filter (fun x => x.id ≠ c.id), running := g.running.filter (fun x => x.id ≠ c.id) }
    (s.pushFor c.core c.q (engineItem detail status c.flags c.func eng index)).kick eng 40
  else s

/-! ## Elements (R302, R307; 03 R57, R66–R68) -/

/-- Where a unit that holds element `k` ends: one element, or one scale block of a block-scaled destination. -/
def unitEnd (d : Entry) (count k : Nat) : Nat :=
  if d.scale = 0 then k + 1
  else
    let i0 := k % d.ext 0
    let e := if i0 - i0 % d.bsize + d.bsize < d.ext 0 then k - i0 % d.bsize + d.bsize else k - i0 + d.ext 0
    if e < count then e else count

/-- The first element of the unit that holds element `k`. -/
def unitBegin (d : Entry) (k : Nat) : Nat := if d.scale = 0 then k else k - (k % d.ext 0) % d.bsize

/-- A truth value nothing constrains. -/
def freshBool : Op Bool := fun s => .ok (Config.freeChoice s.tick, { s with tick := s.tick + 1 })

/-- Is an element outside? What another package's length array says is open (log 99). -/
def outsideAt (a : Actor) (far : Bool) (e : Entry) (i : Idx) : Op Bool :=
  if far then
    if (List.range 6).any (fun d => coord i d ≥ e.ext d) then pure true
    else if e.rdim = 0 then pure false else freshBool
  else outside a e i

/-- What a remote source has sent of a range. -/
def fromInbox (box : List (PacketRead × Nat)) (addr : Word) (n : Nat) : Nat :=
  ((box.find? (fun x => x.1.addr == addr && x.1.n == n)).map (·.2)).getD 0

/-- Where the engine reads a source: here, or from what another package has sent. -/
structure Source where
  far : Bool
  box : List (PacketRead × Nat)

/-- The bytes that an element's code takes from its address. -/
def codeBytes (e : Entry) (bit : Nat) : Nat := (bit + widthOf e.fmt + 7) / 8

/-- The code of a source element, zero outside. -/
def sourceCode (a : Actor) (x : Source) (e : Entry) (i : Idx) : Op Nat := do
  let out ← outsideAt a x.far e i
  if out then pure 0
  else if x.far then
    let p := e.place i
    pure (fromInbox x.box p.1 (codeBytes e p.2) / 2 ^ p.2 % 2 ^ widthOf e.fmt)
  else readCode a e i

/-- The value of a source element, exact with its block factor (R302; 03 R67): FLUSH32 reads an FP32 subnormal as
zero. -/
def sourceValue (a : Actor) (md : Modes) (x : Source) (e : Entry) (i : Idx) : Op (Num × Flags) := do
  match fmtOf e.fmt with
  | none => pure (Num.zero false, 0)
  | some f =>
    if f = .fp32 then
      let c ← sourceCode a x e i
      pure (decodeNum md f c)
    else if x.far then
      let c ← sourceCode a x e i
      let v := decodeNum { md with flush32 := false } f c
      pure (if e.scale = 0 then v else scaledBy v (fromInbox x.box (e.scaleAt i) 1))
    else readElem a md e i

/-- A write for element `k` of the bits `bits` of `n` bytes: here, or in a packet for another package, whose address passes the
checks of 01 R15 and R16 as it is sent. -/
def writeBits (far : Bool) (a : Actor) (k : Nat) (base addr : Word) (n value bits : Nat) : Op (List PacketWrite) := do
  noCarry base addr n
  if far then
    check (farFields a.svc addr && farFields a.svc (addr + word (n - 1))) cACCESS addr
    pure [{ addr := addr, n := n, value := value, bits := bits, index := k }]
  else
    unitWrite a addr n value bits
    pure []

/-- Write an element's code. -/
def sendCode (far : Bool) (a : Actor) (k : Nat) (d : Entry) (i : Idx) (code : Nat) : Op (List PacketWrite) :=
  let p := d.place i
  let w := widthOf d.fmt
  writeBits far a k d.base p.1 (codeBytes d p.2) (code % 2 ^ w * 2 ^ p.2) ((2 ^ w - 1) * 2 ^ p.2)

/-- Encode a unit's values, by element, and write those from element `lo` on that are inside, a block's scale byte first (03
R57): the flags, and the writes for another package, which all count as the unit's first when it is a block (R304). -/
def storeUnit (a : Actor) (md : Modes) (far : Bool) (d : Entry) (lo : Nat) (vs : List (Nat × Num)) : Op (Flags × List PacketWrite) := do
  match fmtOf d.fmt with
  | none => pure (0, [])
  | some f =>
    let ins ← vs.filterM (fun v => do
      let o ← outsideAt a far d (d.idx v.1)
      pure (!o))
    let c : Nat := if d.scale = 0 then 127 else scaleByte d.fmt (ins.map (·.2))
    let first ← match ins with
      | v :: _ => if d.scale ≠ 0 then writeBits far a lo (d.withPkg d.scale) (d.scaleAt (d.idx v.1)) 1 c 0xFF else pure []
      | [] => pure []
    (ins.filter (fun v => lo ≤ v.1)).foldlM (fun (acc : Flags × List PacketWrite) v => do
      let (code, g) := encodeFmt f md (v.2.scale (127 - (c : Int)))
      let w ← sendCode far a (if d.scale = 0 then v.1 else lo) d (d.idx v.1) code
      pure (acc.1 ||| g, acc.2 ++ w)) (0, first)

/-- What a write of element `i` overwrites, as it stands, and the bits that it writes; nothing outside. -/
def oldBytes (a : Actor) (d : Entry) (i : Idx) : Op (List Host.Cell × List (Nat × Nat)) := do
  let out ← outside a d i
  if out then pure ([], [])
  else
    let (addr, bit) := d.place i
    let ps ← (partsOf addr.toNat (codeBytes d bit)).mapM (fun p => do
      let pa ← unitPlace a (addr + word p.1) .write
      let s ← getState
      pure (s.redirect pa, p.2))
    let s ← getState
    pure (ps.flatMap (fun q => (s.bytesAt q.1 q.2).zipIdx.map (fun b => ((q.1 + b.2, b.1) : Host.Cell))),
      ((ps.head?).map (fun q => (8 * q.1 + bit, widthOf d.fmt))).toList)

/-- How an element's place meets what the copy has written: not at all, exactly one write of it, or a part. -/
inductive Overlap where
  | none | exact | part
  deriving DecidableEq, Repr

/-- How source element `i` meets the writes of its copy (R303). -/
def overlapAt (a : Actor) (written : List (Nat × Nat)) (e : Entry) (i : Idx) : Op Overlap := do
  if written = [] then pure .none
  else
    let out ← outside a e i
    if out then pure .none
    else
      let (addr, bit) := e.place i
      let pa ← unitPlace a addr .read
      let s ← getState
      let at_ := 8 * s.redirect pa + bit
      let hits := written.filter (fun w => w.1 < at_ + widthOf e.fmt && at_ < w.1 + w.2)
      pure (if hits = [] then .none else if hits.all (fun w => w == (at_, widthOf e.fmt)) then .exact else .part)

/-- Do a read as the memory stood before this copy's writes. -/
def readBefore {α : Type} (saved : List Host.Cell) (m : Op α) : Op α := fun t =>
  match m { t with mem := saved.foldl (fun mem c => Memory.setBytes mem c.1 [c.2]) t.mem } with
  | .ok (x, u) => .ok (x, { t with tick := u.tick })
  | .error e => .error e

/-- Read source element `i` of a copy that overlaps itself (R303): as it stood when the command was accepted, or what the
command has written there, where it has written just that; which is open. -/
def eitherRead {α : Type} (a : Actor) (c : XCmd) (e : Entry) (i : Idx) (m : Op α) : Op α := do
  match ← overlapAt a c.written e i with
  | .none => m
  | .exact => do
    let old ← freshBool
    if old then readBefore c.saved m else m
  | .part => readBefore c.saved m

/-- What one unit of a copy or a fill did. -/
structure UnitDone where
  flags   : Flags
  saved   : List Host.Cell
  written : List (Nat × Nat)
  sent    : List PacketWrite

/-- One unit of a copy or a fill, elements `lo` up to `hi` (R302, R307). -/
def copyUnit (c : XCmd) (here : BitVec 12) (lo hi : Nat) : Op UnitDone := do
  let a := c.actor
  let md := c.modes
  match c.op with
  | .red _ _ _ _ _ => pure ⟨0, [], [], []⟩
  | .fill d value =>
    let f := (fmtOf d.fmt).getD .fp32
    let v := if f.isInt then (Num.ofInt value.toInt 0, (0 : Flags)) else if f = .fp32 then (decodeFloat .fp32 value.toNat, 0)
      else decodeNum md .fp32 value.toNat
    let is := (List.range (hi - unitBegin d lo)).map (fun j => unitBegin d lo + j)
    let (fl, ws) ← storeUnit a md (d.basePkg != here) d lo (is.map (fun k => (k, v.1)))
    pure ⟨fl ||| v.2, [], [], ws⟩
  | .copy e d =>
    let src : Source := { far := e.basePkg != here, box := c.inbox }
    let farD := d.basePkg != here
    let is := (List.range (hi - unitBegin d lo)).map (fun j => unitBegin d lo + j)
    let track := !src.far && !farD && fieldOf e.base 51 48 == fieldOf d.base 51 48
    let old ← if track then (is.filter (lo ≤ ·)).mapM (fun k => oldBytes a d (d.idx k)) else pure []
    let done := fun (f : Flags) (ws : List PacketWrite) => UnitDone.mk f (old.flatMap (·.1)) (old.flatMap (·.2)) ws
    if e.fmt = d.fmt ∧ e.scale = 0 ∧ d.scale = 0 then
      let ws ← is.mapM (fun k => do
        let code ← eitherRead a c e (e.idx k) (sourceCode a src e (e.idx k))
        let o ← outsideAt a farD d (d.idx k)
        if o then pure [] else sendCode farD a k d (d.idx k) code)
      pure (done 0 ws.flatten)
    else
      let vs ← is.mapM (fun k => do
        let v ← eitherRead a c e (e.idx k) (sourceValue a md src e (e.idx k))
        pure (k, v.1, v.2))
      let (fl, ws) ← storeUnit a md farD d lo (vs.map (fun v => (v.1, v.2.1)))
      pure (done (vs.foldl (fun f v => f ||| v.2.2) fl) ws)

/-- Run the units of a command from element `k` up to `top`: where it came to, what stopped it, the command with its
flags and bytes, the writes for another package, and the state. -/
def State.runUnits (s : State) (c : XCmd) (k top : Nat) (ws : List PacketWrite) : Nat → Nat × Option Stop × XCmd × List PacketWrite × State
  | 0 => (k, none, c, ws, s)
  | n + 1 =>
    if k ≥ top then (k, none, c, ws, s)
    else
      let hi := match c.dst with
        | some d => unitEnd d c.count k
        | none => k + 1
      if hi > top then (k, none, c, ws, s)
      else match copyUnit c s.pkg k hi s with
      | .ok (r, t) =>
        let fresh := r.saved.filter (fun b => !c.saved.any (fun x => x.1 == b.1))
        State.runUnits t { c with flags := c.flags ||| r.flags, saved := c.saved ++ fresh, written := c.written ++ r.written } hi top (ws ++ r.sent) n
      | .error st => (k, some st, c, ws, s)

/-! ## Copies and fills (R302–R307) -/

/-- Elements of a packet of up to 512 bytes (R306). -/
def packetSize (d : Entry) : Nat := if 4096 / widthOf d.fmt < 1 then 1 else 4096 / widthOf d.fmt

/-- The end of a packet that begins at element `k`: whole units, no more than 512 bytes. -/
def packetEnd (d : Entry) (count : Nat) (k : Nat) : Nat → Nat → Nat
  | 0, e => e
  | n + 1, e =>
    let u := unitEnd d count e
    if e ≥ count ∨ (e > k ∧ u - k > packetSize d) then e else packetEnd d count k n u

/-- Is the side in another package? -/
def State.farSource (s : State) (c : XCmd) : Bool := match c.op with
  | .copy e _ => e.basePkg != s.pkg
  | _ => false
def State.farDest (s : State) (c : XCmd) : Bool := match c.dst with
  | some d => d.basePkg != s.pkg
  | none => false

/-- An engine's packet, as a remote request (R306). -/
def State.packetFor (s : State) (eng : Nat) (c : XCmd) (addr : Word) (kind : RemoteKind) : RemoteReq :=
  { serial := c.id, origin := s.pkg, core := 8192 + eng, domain := c.dom, svc := c.svc, inst := c.core, pc := 0, addr := addr, kind := kind }

/-- A command ends early: its packets that wait to leave are not sent (R306). -/
def State.endCopy (s : State) (eng : Nat) (c : XCmd) (status : BitVec 8) (detail : Word) (index : Nat) : State :=
  let mine := fun (o : Out) => o.waiting && (match o.msg with
    | .request r => r.origin == s.pkg && r.core == 8192 + eng && r.serial == c.id
    | _ => false)
  State.endXcmd { s with egress := s.egress.filter (fun o => !mine o) } eng c status detail index

/-- The ranges that element `k` of a remote source needs, with the element they are for. -/
def readsOf (e : Entry) (k : Nat) : List PacketRead :=
  let i := e.idx k
  let p := e.place i
  (if e.scale = 0 then [] else [{ addr := e.scaleAt i, n := 1, index := k }]) ++ [{ addr := p.1, n := codeBytes e p.2, index := k }]

/-- A range that no request may name: it leaves its offset, or its address fails a check (01 R15, R16; R264). -/
def readRefused (svc : Bool) (e : Entry) (x : PacketRead) : Bool :=
  let ok := fun (base : Word) => base.extractLsb' 48 16 == x.addr.extractLsb' 48 16 &&
    base.extractLsb' 48 16 == (x.addr + word (x.n - 1)).extractLsb' 48 16
  !((ok e.base || (e.scale != 0 && ok (e.withPkg e.scale))) && farFields svc x.addr && farFields svc (x.addr + word (x.n - 1)))

/-- Ask for the next packet of a remote source, up to 512 bytes of elements; an element that no request may name ends the
copy, once those before it are written. -/
def State.askPacket (s : State) (eng : Nat) (c : XCmd) : State :=
  let e := c.src
  let from_ := if c.fetched = 0 then (match c.dst with
    | some d => unitBegin d c.pos
    | none => c.pos) else c.fetched
  let top := if from_ + packetSize e < c.count then from_ + packetSize e else c.count
  let ks := (List.range (top - from_)).map (fun j => from_ + j)
  match (ks.flatMap (readsOf e)).find? (readRefused c.svc e) with
  | some x =>
    if x.index = from_ then s.endCopy eng c cACCESS x.addr c.pos
    else
      let rs := (ks.filter (· < x.index)).flatMap (readsOf e)
      let c := { c with sent := [x.index] }
      (s.setXcmd eng c).send e.basePkg (.request (s.packetFor eng c (e.place (e.idx from_)).1 (.fetch from_ x.index rs)))
  | none =>
    let c := { c with sent := [top] }
    (s.setXcmd eng c).send e.basePkg (.request (s.packetFor eng c (e.place (e.idx from_)).1 (.fetch from_ top (ks.flatMap (readsOf e)))))

/-- Send the packets of a remote destination from the last one sent, up to element `top` (R306): at most 64 wait for
their acknowledgement. What stops the reading stops the command once they are acknowledged. -/
def State.sendPackets (s : State) (eng : Nat) (c : XCmd) (top : Nat) : Nat → State
  | 0 => s.setXcmd eng c
  | n + 1 =>
    let k := c.sent.getLastD c.pos
    match c.dst with
    | none => s
    | some d =>
      if k ≥ top ∨ c.sent.length ≥ 64 ∨ c.stop.isSome then s.setXcmd eng c
      else
        let (j, st, c, ws, s) := s.runUnits c k (packetEnd d c.count k c.count k) [] c.count
        let (c, s) := match st with
          | none | some .wait => (c, s)
          | some (.asleep kind m) => (c, s.setRetention kind m false)
          | some st =>
            let (code, detail, s) := s.unitStop c.actor st
            ({ c with stop := some (code, detail) }, s)
        if j = k then s.setXcmd eng c
        else
          let c := { c with sent := c.sent ++ [j] }
          State.sendPackets ((s.setXcmd eng c).send d.basePkg
            (.request (s.packetFor eng c (d.place (d.idx k)).1 (.packet k j ws)))) eng c top n

/-- A command that is to stop ends when no packet of it is on its way. -/
def State.endIfStopped (s : State) (eng id : Nat) : State := match s.xcmd eng id with
  | some c => match c.stop with
    | some (code, detail) => if c.sent = [] then s.endXcmd eng c code detail c.pos else s
    | none => s
  | none => s

/-- A copy or a fill goes on by up to `n` elements; `again` is its event. -/
def State.runCommand (s : State) (eng id n : Nat) (again : Instr) : State := match s.xcmd eng id with
  | none => s
  | some c =>
    if c.pos ≥ c.count then s.endXcmd eng c 0 0 c.count
    else if s.farDest c then
      let s := s.sendPackets eng c (if c.sent.getLastD c.pos + n < c.count then c.sent.getLastD c.pos + n else c.count) 64
      let s := s.endIfStopped eng id
      match s.xcmd eng id with
      | some c => if c.sent = [] then s.postOnce 1 again else s
      | none => s
    else if s.farSource c ∧ c.sent ≠ [] then s
    else
      -- what a remote source has sent bounds the elements, and units of which a part has not come wait for it
      let top := if s.farSource c then c.fetched else if c.pos + n < c.count then c.pos + n else c.count
      let top := match c.dst with
        | some d => if s.farSource c ∨ top ≤ c.pos then top else unitEnd d c.count (top - 1)
        | none => top
      let (k, st, c, _, s) := s.runUnits c c.pos top [] (top - c.pos)
      let c := { c with pos := k }
      match st with
      | some st => match (s.setXcmd eng c).waitAgain st again with
        | some t => t
        | none =>
          let (code, detail, s) := s.unitStop c.actor st
          (s.setXcmd eng c).endXcmd eng c code detail k
      | none =>
        if k ≥ c.count then (s.setXcmd eng c).endXcmd eng c 0 0 c.count
        else match c.stop with
          | some (code, detail) => (s.setXcmd eng c).endXcmd eng c code detail k
          | none =>
            if s.farSource c then
              let keep := match c.dst with
                | some d => unitBegin d k
                | none => k
              s.askPacket eng { c with inbox := c.inbox.filter (fun x => keep ≤ x.1.index) }
            else (s.setXcmd eng c).postOnce 1 again

/-- XCOPY_EXECUTE (R302–R306): `n` elements more. -/
def execXcopyExecute (eng : BitVec 6) (id n : Nat) (s : State) :=
  happen (s.runCommand eng.toNat id n (.xcopyExecute eng id n))

/-- XFILL_EXECUTE (R307). -/
def execXfillExecute (eng : BitVec 6) (id n : Nat) (s : State) :=
  happen (s.runCommand eng.toNat id n (.xfillExecute eng id n))

/-- The event by which a copy or a fill goes on. -/
def XCmd.next (c : XCmd) (eng : Nat) : Instr :=
  if c.func = 2 then .xfillExecute (BitVec.ofNat 6 eng) c.id c.count else .xcopyExecute (BitVec.ofNat 6 eng) c.id c.count

/-- A packet of a command that did not succeed: the copy ends at the element (R304), a LINK ending at the oldest packet not
acknowledged (R306), an aborted one as its abort says (R318). -/
def State.packetFailed (s : State) (eng : Nat) (c : XCmd) (code : BitVec 8) (addr : Word) (index : Nat) : State :=
  let e := if s.farSource c then c.src else c.dst.getD c.src
  let ends := if code = cLINK then (cLINK, (e.place (e.idx c.pos)).1, c.pos) else (code, addr, if index < c.pos then c.pos else index)
  match c.stop with
  | some (stop, detail) => s.endCopy eng c stop detail ends.2.2
  | none => s.endCopy eng c ends.1 ends.2.1 ends.2.2

/-- A packet of a command is acknowledged, or failed at the target (R304, R306): packets count in the order in which they were
sent. What came from a remote source before the failure is written first. -/
def State.packetDone (s : State) (eng : Nat) (a : RemoteAck) : State := match s.xcmd eng a.serial with
  | none => s
  | some c => match c.sent with
    | [] => s
    | hi :: rest =>
      if s.farSource c then
        let from_ := if c.fetched = 0 then (match c.dst with
          | some d => unitBegin d c.pos
          | none => c.pos) else c.fetched
        let top := if a.code = 0 then hi else a.at_
        let got := ((List.range (hi - from_)).flatMap (fun j => readsOf c.src (from_ + j))).zip a.data
        let c := { c with inbox := c.inbox ++ got, fetched := top, sent := [] }
        if a.code = cLINK then (s.setXcmd eng c).packetFailed eng c a.code a.where_ a.at_
        else if a.code = 0 then (s.setXcmd eng c).postOnce 1 (c.next eng)
        else
          let c := { c with stop := some (c.stop.getD (a.code, a.where_)) }
          (s.setXcmd eng c).runCommand eng c.id c.count (c.next eng)
      else if a.code = 0 ∧ a.at_ ≠ hi ∨ a.code ≠ 0 ∧ a.code ≠ cLINK ∧ a.at_ ≥ hi then
        if rest = [] then s else s.post 1 (.remoteAcknowledge a)
      else if a.code ≠ 0 then s.packetFailed eng c a.code a.where_ a.at_
      else
        let c := { c with pos := hi, sent := rest }
        let s := (s.setXcmd eng c).endIfStopped eng c.id
        if (s.xcmd eng c.id).isSome then s.postOnce 1 (c.next eng) else s

/-- REMOTE_ACKNOWLEDGE (R324, R326; 06 R137, R138): the slot is freed, and a push's credit returns; a failure is reported to the
core; an engine's packet is acknowledged (13 R306); the device's own pushes are answered (15 R332; 20 R412, R416). -/
def execRemoteAcknowledge (a : RemoteAck) (s : State) :=
  happen (
    let id : BitVec 32 := a.where_.setWidth 32
    if a.core ≥ byNetwork then (if a.code = 0 then s else s.pushRefused a.core false false id a.code)
    else if a.serial = 0 then s.pushRefused a.core true false id a.code
    else if a.core ≥ 8192 then s.packetDone (a.core - 8192) a
    else match (s.core a.core).outst.find? (fun o => o.serial == a.serial) with
      | none => if a.code = 0 then s else s.report a.core a.code a.where_ a.where_
      | some o =>
        let s := s.freeSlot a.core a.serial
        match o.qid with
        | some id =>
          let s := s.updCore a.core (·.landed (farFlight id))
          if a.code = 0 then s else s.pushRefused a.core false o.notice id a.code
        | none => if a.code = 0 then s else s.report a.core a.code a.where_ a.where_)

/-! ## Exact reductions (R308–R312; 03 R77) -/

/-- Elements of the chunk that begins at `pos`. -/
def chunkSize (pos count : Nat) : Nat := if pos + 1024 < count then 1024 else count - pos

/-- Block b of 32 of a row. -/
def blockOf (b : Nat) (row : List Num) : List Num := (row.drop (32 * b)).take 32

/-- The maxima of a row's blocks (R310 step 1). -/
def maxima (row : List Num) : List (Option Int) := (List.range ((row.length + 31) / 32)).map (fun b => maxExp (blockOf b row))

/-- The larger of two maxima. -/
def maxOf : Option Int → Option Int → Option Int
  | some a, some b => some (if a < b then b else a)
  | none, b => b
  | a, none => a

/-- emax of each block over the ranks (R310 step 2). -/
def emaxOf (n : Nat) (ms : List (List (Option Int))) : List (Option Int) :=
  (List.range ((n + 31) / 32)).map (fun b => ms.foldl (fun e m => maxOf e (m.getD b none)) none)

/-- A row's aligned integers (R310 step 3; 03 R77), special values as they are. -/
def alignedRow (es : List (Option Int)) (row : List Num) : List Num :=
  row.zipIdx.map (fun x => match x.1, es.getD (x.2 / 32) none with
    | .fin _ _ _, some e => Num.ofInt (roundToGrid x.1 (e - 46)) (e - 46)
    | .fin _ _ _, none => Num.zero false
    | v, _ => v)

/-- The exact sum of one element's aligned terms, special values first, with the flags of summing (R310 step 4; 03 R77). -/
def sumTerms (emax : Option Int) (xs : List Num) : Num × Flags :=
  if xs.any Num.isNan then (.nan false, 0)
  else
    let infs := xs.filter Num.isInf
    if infs.any Num.isNeg && infs.any (fun x => !x.isNeg) then (.nan false, flagINV)
    else match infs with
      | x :: _ => (.inf x.isNeg, 0)
      | [] => match emax with
        | none => (Num.zero false, 0)
        | some e => (Num.ofInt (xs.foldl (fun t x => t + roundToGrid x (e - 46)) 0) (e - 46), 0)

/-- The sums of a chunk's elements over the ranks' aligned rows. -/
def redChunk (es : List (Option Int)) (rows : List (List Num)) (n : Nat) : List (Num × Flags) :=
  (List.range n).map (fun j => sumTerms (es.getD (j / 32) none) (rows.map (fun r => r.getD j (Num.zero false))))

/-- The modes of the final rounding: the SAT and FLUSH32 of rank 0's NMODE, RNE (R308). -/
def redModes (nmode : Word) : Modes := { modesOf nmode with rm := 0, flushN := false }

/-- rank 0's NMODE. -/
def Coll.nmode (c : Coll) : Word := ((c.arrived.find? (fun r => r.rank == 0)).map (·.nmode)).getD 0

/-- The flags of rounding sums to FP32, for a rank that has no destination (R308). -/
def fp32Flags (md : Modes) (sums : List Num) : Flags := sums.foldl (fun fl x => fl ||| (encodeFmt .fp32 md x).2) 0

/-- The sums of elements [k, hi) written to a rank's destination, unit by unit: how far, the flags of whole units, those of a
block that `hi` cuts, and what stopped it. -/
def State.writeSums (s : State) (a : Actor) (md : Modes) (d : Entry) (count from_ hi : Nat) (sums : List Num) (fl : Flags) :
    Nat → Nat → Flags × Flags × Option Stop × State
  | 0, _ => (fl, 0, none, s)
  | n + 1, k =>
    if k ≥ hi then (fl, 0, none, s)
    else
      let e := unitEnd d count k
      let top := if e ≤ hi then e else hi
      match storeUnit a md false d k ((List.range (top - k)).map (fun j => (k + j, sums.getD (k + j - from_) (Num.zero false)))) s with
      | .error st => (fl, 0, some st, s)
      | .ok ((g, _), t) =>
        if e ≤ hi then State.writeSums t a md d count from_ hi sums (fl ||| g) n e else (fl, g, none, t)

/-- A rank takes the sums of the chunk at `lo` (R310 step 5): it rounds them once into its destination, and a block that the
chunk's end cuts is written again, whole, with the next chunk (03 R57, log 79). -/
def State.takeSums (s : State) (eng : Nat) (c : XCmd) (nmode : Word) (lo : Nat) (sums : List Num) (fl : Flags) : Option Stop × State :=
  let md := redModes nmode
  match c.dst with
  | none => (none, s.setXcmd eng { c with flags := c.flags ||| fl ||| fp32Flags md sums })
  | some d =>
    let all := c.tail ++ sums
    let from_ := lo - c.tail.length
    let hi := lo + sums.length
    let r := s.writeSums c.actor md d c.count from_ hi all 0 (all.length + 1) from_
    let keep := if hi < c.count ∧ unitBegin d hi < hi then (if unitBegin d hi < from_ then all.length else hi - unitBegin d hi) else 0
    match r.2.2.1 with
    | some st => (some st, r.2.2.2)
    | none => (none, r.2.2.2.setXcmd eng { c with flags := c.flags ||| fl ||| r.1, tail := all.drop (all.length - keep), tailFlags := r.2.1 })

/-- The command of a rank of this package. -/
def State.rankCmd (s : State) (r : RankArrival) : Option XCmd :=
  if r.pkg = s.pkg then s.xcmd r.eng.toNat r.id else none

/-- A rank's command ends: with the fault it met itself, if it met one (R312). -/
def State.endRankCmd (s : State) (eng : Nat) (c : XCmd) (status : BitVec 8) (detail : Word) (index : Nat) : State :=
  let c := { c with flags := c.flags ||| c.tailFlags }
  match c.stop with
  | some (code, d) => s.endXcmd eng c code d index
  | none => s.endXcmd eng c status detail index

/-- How a collective ends: well or at every rank with one status; or by a fault or an abort of one rank (R312). -/
inductive CollEnd where
  | all (status : BitVec 8)
  | rank (n : Nat) (code : BitVec 8) (detail : Word)

/-- The status and DETAIL of a rank (R312, R313). -/
def CollEnd.at_ : CollEnd → Nat → BitVec 8 × Word
  | .all st, _ => (st, 0)
  | .rank n code detail, k => if k = n then (code, detail) else (cCOPY, word (n % 2 ^ 16))

/-- A rank's collective ends at its command, here or in the rank's own package. -/
def State.endRank (s : State) (eng : Nat) (key : BitVec 32) (r : RankArrival) (how : CollEnd) (index : Nat) : State :=
  if r.pkg = s.pkg then match s.rankCmd r with
    | some c => s.endRankCmd r.eng.toNat c (how.at_ r.rank).1 (how.at_ r.rank).2 index
    | none => s
  else
    let by_ := match how with
      | .all _ => 65536
      | .rank n _ _ => n
    s.send r.pkg (.chunk r.eng (BitVec.ofNat 6 eng) key (.ended r.rank (how.at_ r.rank).1 by_ index))

/-- A collective ends at every rank; the first arrival that waits at the root is taken up (R310). -/
def State.endColl (s : State) (eng : Nat) (c : Coll) (index : Nat) (how : CollEnd) : State :=
  let g := s.engine eng
  let s := s.setEngine eng { g with roots := g.roots.filter (fun x => x.key ≠ c.key) }
  let s := c.arrived.foldl (fun s r => s.endRank eng c.key r how index) s
  match g.waiting with
  | w :: _ => s.post 0 (.xredRootArrival (BitVec.ofNat 6 eng) w.1)
  | [] => s

/-- Does an arrival agree with a collective (R311)? -/
def Coll.agrees (c : Coll) (r : RankArrival) : Bool :=
  c.arrived.all (fun x => x.rank != r.rank && x.ranks == r.ranks && x.start == r.start && x.count == r.count) &&
  r.dcount == r.count && r.fmt.toNat ≤ 5 && (match r.dst with
    | some f => f.toNat ≤ 5
    | none => true)

/-- A rank joins a collective at its root (R310, R311). -/
def State.joinColl (s : State) (eng : Nat) (c : Coll) (r : RankArrival) : State :=
  let c' := { c with arrived := c.arrived ++ [r] }
  let g := s.engine eng
  let s := s.setEngine eng { g with roots := g.roots.map (fun x => if x.key = c.key then c' else x) }
  if !c.agrees r then s.endColl eng c' (if r.start < c.pos then r.start else c.pos) (.all cCOPY)
  else if c'.arrived.length = r.ranks then s.post 1 (.xredChunk (BitVec.ofNat 6 eng) r.key [] .none)
  else s

/-- A KEY's deadline, from the cycle of its first arrival (R309). -/
def deadlineOf (r : RankArrival) (at_ : Nat) : Nat := at_ + (if r.tmo = 0 then 1000 else r.tmo) * 2000

/-- The root begins a collective (R310). -/
def State.openColl (s : State) (eng : Nat) (r : RankArrival) (at_ : Nat) : State :=
  let c : Coll := { key := r.key, arrived := [], pos := r.start, deadline := deadlineOf r at_, st := .idle, rows := [], emax := [], heard := [] }
  let g := s.engine eng
  (s.setEngine eng { g with roots := g.roots ++ [c] }).joinColl eng c r

/-- The arrivals that wait are taken up in their order, as far as there is room (R310). -/
def State.admitWaiting (s : State) (eng : Nat) : Nat → State
  | 0 => s
  | n + 1 =>
    let g := s.engine eng
    match g.waiting with
    | [] => s
    | w :: t =>
      let s' := s.setEngine eng { g with waiting := t }
      match g.roots.find? (fun c => c.key == w.1.key) with
      | some c => State.admitWaiting (s'.joinColl eng c w.1) eng n
      | none => if g.roots.length ≥ 8 then s else State.admitWaiting (s'.openColl eng w.1 w.2) eng n

/-- XRED_ROOT_ARRIVAL (R310–R312): a rank joins its collective, begins one, or waits behind those that wait; its KEY's deadline
runs from its first arrival (R309). -/
def execXredRootArrival (eng : BitVec 6) (r : RankArrival) (s : State) :=
  happen (
    let e := eng.toNat
    let g := s.engine e
    if g.waiting.any (fun w => w.1 == r) then s.admitWaiting e g.waiting.length
    else if r.pkg = s.pkg ∧ (s.rankCmd r).isNone then s
    else match g.roots.find? (fun c => c.key == r.key) with
      | some c => s.joinColl e c r
      | none =>
        let s := if g.waiting.any (fun w => w.1.key == r.key) then s
          else s.post (deadlineOf r 0) (.xredDeadline s.pkg eng r.key)
        if g.roots.length ≥ 8 ∨ g.waiting ≠ [] then s.setEngine e { g with waiting := g.waiting ++ [(r, s.now)] }
        else s.openColl e r s.now)

/-- A rank's chunk is read by its local engine (R310 step 1): its elements, and the flags of decoding them, which its own
completion carries. -/
def readChunk (c : XCmd) (lo n : Nat) : Op (List Num × Flags) := do
  let vs ← (List.range n).mapM (fun j => readElem c.actor c.modes c.src (c.src.idx (lo + j)))
  pure (vs.map (·.1), vs.foldl (fun f v => f ||| v.2) 0)

/-- The rows of the ranks of this package, in the order of arrival; or the rank that failed, its command and what it met. -/
def State.gather (s : State) (lo n : Nat) : List RankArrival → Except (Nat × XCmd × Stop) (List (List Num) × State)
  | [] => .ok ([], s)
  | r :: t => match s.rankCmd r with
    | none => State.gather s lo n t
    | some c => match readChunk c lo n s with
      | .error st => .error (r.rank, c, st)
      | .ok ((row, fl), s) => match State.gather (s.setXcmd r.eng.toNat { c with flags := c.flags ||| fl }) lo n t with
        | .ok (rest, s) => .ok (row :: rest, s)
        | .error x => .error x

/-- The sums go to the ranks of this package (R310 step 5): the first that failed, with its code and detail. -/
def State.scatter (s : State) (nmode : Word) (lo : Nat) (sums : List Num) (fl : Flags) : List RankArrival → Option CollEnd × State
  | [] => (none, s)
  | r :: t => match s.rankCmd r with
    | none => State.scatter s nmode lo sums fl t
    | some c => match s.takeSums r.eng.toNat { c with pos := lo } nmode lo sums fl with
      | (none, s) => State.scatter s nmode lo sums fl t
      | (some st, s) =>
        let (code, detail, s) := s.unitStop c.actor st
        (some (.rank r.rank code detail), s)

/-- The ranks of a collective in other packages. -/
def State.farArrived (s : State) (c : Coll) : List RankArrival := c.arrived.filter (fun r => r.pkg != s.pkg)

/-- Replace a collective at its root. -/
def State.setColl (s : State) (eng : Nat) (c : Coll) : State :=
  let g := s.engine eng
  s.setEngine eng { g with roots := g.roots.map (fun x => if x.key = c.key then c else x) }

/-- The root tells the ranks in other packages. -/
def State.tellRanks (s : State) (eng : Nat) (c : Coll) (say : Nat → FarResult) : State :=
  (s.farArrived c).foldl (fun s r => s.send r.pkg (.chunk r.eng (BitVec.ofNat 6 eng) c.key (say r.rank))) s

/-- What a rank of another package has said in this part of the chunk. -/
def Coll.said (c : Coll) (r : RankArrival) : Option FarPart := (c.heard.find? (fun h => h.rank == r.rank)).map (·.part)

/-- One step of a chunk at its root (R310). Nothing is read before every rank has arrived, and nothing written before every
rank has contributed. -/
def State.chunkStep (s : State) (eng : Nat) (key : BitVec 32) : Nat → State
  | 0 => s
  | fuel + 1 => match (s.engine eng).roots.find? (fun c => c.key == key) with
    | none => s
    | some c =>
      let again : Instr := .xredChunk (BitVec.ofNat 6 eng) key [] .none
      let count := ((c.arrived.head?).map (·.count)).getD 0
      let n := chunkSize c.pos count
      let far := s.farArrived c
      let failed := c.heard.find? (fun h => match h.part with
        | .failed _ => true
        | _ => false)
      match failed with
      | some h => s.endColl eng c c.pos (.rank h.rank (match h.part with | .failed code => code | _ => 0) 0)
      | none =>
        if c.arrived.length ≠ ((c.arrived.head?).map (·.ranks)).getD 0 then s
        else match c.st with
          | .idle => match s.gather c.pos n c.arrived with
            | .ok (rows, s) =>
              let c := { c with st := .maxima, rows := rows, heard := [] }
              State.chunkStep ((s.setColl eng c).tellRanks eng c (fun k => .begin_ k)) eng key fuel
            | .error (rank, x, st) => match s.waitAgain st again with
              | some t => t
              | none =>
                let (code, detail, s) := s.unitStop x.actor st
                s.endColl eng c c.pos (.rank rank code detail)
          | .maxima =>
            let ms := far.filterMap (fun r => match c.said r with
              | some (.maxima es) => some es
              | _ => none)
            if ms.length < far.length then s
            else
              let c := { c with st := .aligned, emax := emaxOf n (ms ++ c.rows.map maxima), heard := [] }
              State.chunkStep ((s.setColl eng c).tellRanks eng c (fun k => .emax k c.emax)) eng key fuel
          | .aligned =>
            let qs := far.filterMap (fun r => match c.said r with
              | some (.aligned q) => some q
              | _ => none)
            if qs.length < far.length then s
            else
              let sums := redChunk c.emax (qs ++ c.rows.map (alignedRow c.emax)) n
              let fl := sums.foldl (fun f x => f ||| x.2) 0
              match s.scatter c.nmode c.pos (sums.map (·.1)) fl c.arrived with
              | (some e, s) => s.endColl eng c c.pos e
              | (none, s) =>
                let c := { c with st := .written, heard := [] }
                State.chunkStep ((s.setColl eng c).tellRanks eng c (fun k => .sums k (sums.map (·.1)) fl c.nmode)) eng key fuel
          | .written =>
            if (far.filter (fun r => c.said r == some .written)).length < far.length then s
            else
              let c := { c with pos := c.pos + n, st := .idle, rows := [], heard := [] }
              let s := c.arrived.foldl (fun s r => match s.rankCmd r with
                | some x => s.setXcmd r.eng.toNat { x with pos := c.pos }
                | none => s) (s.setColl eng c)
              if c.pos ≥ count then s.endColl eng c count (.all 0) else s.post 1 again

/-- The running ranks of an engine whose root is engine `root` of another package. -/
def State.farRanks (s : State) (eng : Nat) (key : BitVec 32) : List XCmd :=
  (s.engine eng).running.filter (fun c => match c.op with
    | .red _ _ r root _ => r.key == key && root != s.pkg
    | _ => false)

/-- A rank here speaks to its root in another package. -/
def State.tellRoot (s : State) (eng : Nat) (c : XCmd) (part : FarPart) : State := match c.op with
  | .red _ _ r root reng => s.send root (.part reng r.key { rank := r.rank, eng := BitVec.ofNat 6 eng, part := part })
  | _ => s

/-- A rank here meets a fault: its root hears the code, and says where the collective ends (R312). -/
def State.rankFails (s : State) (eng : Nat) (c : XCmd) (st : Stop) : State :=
  let (code, detail, s) := s.unitStop c.actor st
  let c := { c with stop := some (code, detail) }
  (s.setXcmd eng c).tellRoot eng c (.failed code)

/-- The rank number of a reduction command. -/
def XCmd.rank (c : XCmd) : Nat := match c.op with
  | .red _ _ r _ _ => r.rank
  | _ => 0

/-- The rank that a root's word is for. -/
def resultTo : FarResult → Nat
  | .none => 65536
  | .begin_ k | .emax k _ | .sums k _ _ _ | .ended k _ _ _ => k

/-- What the root in another package says to a rank here (R310, R312). -/
def State.farChunk (s : State) (eng : Nat) (again : Instr) (c : XCmd) (res : FarResult) : State :=
  let failing := fun (st : Stop) => (s.waitAgain st again).getD (s.rankFails eng c st)
  match res, c.stop with
  | .none, _ => s
  | .ended _ status rank index, _ =>
    let index := if index < c.start then c.pos else index
    if status = cTIMEOUT ∨ status = cLINK ∨ rank ≥ 65536 ∨ rank = c.rank then s.endRankCmd eng c status 0 index
    else s.endRankCmd eng c cCOPY (word rank) index
  | _, some (code, _) => s.tellRoot eng c (.failed code)
  | .begin_ _, none => match readChunk c c.pos (chunkSize c.pos c.count) s with
    | .ok ((row, fl), s) =>
      let c := { c with row := row, flags := c.flags ||| fl }
      (s.setXcmd eng c).tellRoot eng c (.maxima (maxima row))
    | .error st => failing st
  | .emax _ es, none => s.tellRoot eng c (.aligned (alignedRow es c.row))
  | .sums _ sums fl nmode, none => match s.takeSums eng c nmode c.pos sums fl with
    | (none, s) => match s.xcmd eng c.id with
      | some c =>
        let c := { c with pos := c.pos + sums.length, row := [] }
        (s.setXcmd eng c).tellRoot eng c .written
      | none => s
    | (some st, _) => failing st

/-- XRED_CHUNK (R310, R312): a chunk goes on at a root here, with what ranks of other packages say; or a root in another
package speaks to a rank here. -/
def execXredChunk (eng : BitVec 6) (key : BitVec 32) (far : List FarChunk) (res : FarResult) (s : State) :=
  happen (
    let e := eng.toNat
    match res with
    | .none =>
      -- a rank that fails while its arrival still waits is taken out (R312)
      let g := s.engine e
      let gone := fun (w : RankArrival × Nat) => w.1.key == key && far.any (fun h => h.rank == w.1.rank && (match h.part with
        | .failed _ => true
        | _ => false))
      match g.waiting.find? gone with
      | some w => State.endRank (s.setEngine e { g with waiting := g.waiting.filter (fun x => !gone x) }) e key w.1
          (.rank w.1.rank cCOPY 0) w.1.start
      | none => match g.roots.find? (fun c => c.key == key) with
        | some c => (s.setColl e { c with heard := c.heard ++ far }).chunkStep e key 8
        | none => s
    | _ => ((s.farRanks e key).filter (fun c => c.rank == resultTo res)).foldl
        (fun s c => s.farChunk e (.xredChunk eng key far res) c res) s)

/-- XRED_DEADLINE (R309, R312): TIMEOUT at every rank that arrived, when not all have. -/
def execXredDeadline (root : BitVec 12) (eng : BitVec 6) (key : BitVec 32) (s : State) :=
  happen (
    if root = s.pkg then
      let e := eng.toNat
      let g := s.engine e
      match g.roots.find? (fun c => c.key == key) with
      | some c =>
        if s.now < c.deadline then s.postOnce (c.deadline - s.now) (.xredDeadline root eng key)
        else if c.arrived.length < ((c.arrived.head?).map (·.ranks)).getD 0 then s.endColl e c c.pos (.all cTIMEOUT)
        else s
      | none => match g.waiting.find? (fun w => w.1.key == key) with
        | none => s
        | some w =>
          if s.now < deadlineOf w.1 w.2 then s.postOnce (deadlineOf w.1 w.2 - s.now) (.xredDeadline root eng key)
          else (g.waiting.filter (fun x => x.1.key == key)).foldl (fun s x => s.endRank e key x.1 (.all cTIMEOUT) x.1.start)
            (s.setEngine e { g with waiting := g.waiting.filter (fun x => x.1.key ≠ key) })
    else (List.range 64).foldl (fun s e => (s.farRanks e key).foldl (fun s c => match c.op with
      | .red _ _ _ pkg reng => if pkg = root ∧ reng = eng then s.endRankCmd e c cTIMEOUT 0 c.pos else s
      | _ => s) s) s)

/-! ## Instructions (R315–R318) -/

/-- The engine that ANY chooses (R298). -/
def State.anyEngine (s : State) : Nat :=
  let load := fun (e : Nat) => (s.engine e).queue.length + (s.engine e).running.length
  let d := 32 * dieOf s.cur
  (List.range 32).foldl (fun b i => if load (d + i) < load b then d + i else b) d

/-- A COPY check; its detail is open (log 40). -/
def checkCopy (b : Bool) : Op Unit := do
  let s ← getState
  check b cCOPY s.openDetail

/-- Place a command (R297, R316): a release of the instance's accesses; a full queue is a wait at issue. -/
def issueEngine (eng : Nat) (q : BitVec 32) (start : Nat) (op : Nat → XOp) : Op Unit := do
  waitPerformed 5
  let s ← getState
  let g := s.engine eng
  if g.queue.length ≥ 32 then waitHere
  else
    let c : XCmd := { id := s.nextId, core := s.cur, q := q, dom := s.coreDom s.cur, svc := s.coreSvc s.cur, nmode := s.me.nmode,
                      start := start, pos := start, flags := 0, op := op s.nextId, sent := [], stop := none, saved := [],
                      written := [], inbox := [], fetched := 0, row := [], tail := [], tailFlags := 0 }
    setState ((({ s with nextId := s.nextId + 1 } : State).setEngine eng { g with queue := g.queue ++ [c] }).kick eng 40)

/-- The entry that an engine command captures (R299, R300); `own`: its BASE, as the table holds it, must lie in the issuing
package. -/
def captureEngine (own : Bool) (id : BitVec 32) : Op Entry := do
  let e ← useTensor true id
  let s ← getState
  check (e.wellFormed (s.coreSvc s.cur) && e.spn == 0 && (!own || s.realPkg (e.base.extractLsb' 52 12) == s.pkg)) cTENSOR (id.setWidth 64)
  pure (s.captured s.cur e)

/-- The control word's checks (R305, R316 step 4). -/
def controlOk (w : Word) (res : BitVec 1) (count : Nat) : Bool :=
  fieldOf w 15 7 == 0 && fieldOf w 63 56 == 0 && (if res = 1 then fieldOf w 55 16 ≤ count else fieldOf w 55 16 == 0) && count < 2 ^ 40

/-- The engine of a control word. -/
def State.controlEngine (s : State) (w : Word) : Nat := if w.getLsbD 6 then s.anyEngine else fieldOf w 5 0

/-- R302–R306, R316. -/
def execXcopy (d a b : Reg) (r : BitVec 1) (s : State) :=
  run (straight 4 (do
    let q ← completionQueue d
    let ids ← rd a
    let w ← rd b
    let e ← captureEngine false (ids.extractLsb' 0 32)
    let t ← captureEngine false (ids.extractLsb' 32 32)
    let s ← getState
    checkCopy (controlOk w r t.count && e.rank == t.rank && (List.range 6).all (fun k => e.ext k == t.ext k) &&
      (e.basePkg == s.pkg || t.basePkg == s.pkg))
    issueEngine (s.controlEngine w) q (fieldOf w 55 16) (fun _ => .copy e t))) s

/-- R307, R316. -/
def execXfill (d a b : Reg) (r : BitVec 1) (s : State) :=
  run (straight 4 (do
    let q ← completionQueue d
    let x ← rd a
    let w ← rd b
    let t ← captureEngine false (x.extractLsb' 0 32)
    checkCopy (controlOk w r t.count)
    let s ← getState
    issueEngine (s.controlEngine w) q (fieldOf w 55 16) (fun _ => .fill t (x.extractLsb' 32 32)))) s

/-- An entry of a reduction: its BASE here and a format of R311. -/
def captureRed (id : BitVec 32) : Op Entry := do
  let e ← captureEngine true id
  check (e.fmt ≤ 5) cTENSOR (id.setWidth 64)
  pure e

/-- A collective descriptor's checks (R309). -/
def descriptorOk (x : BitVec 256) (res : BitVec 1) (count : Nat) : Bool :=
  fieldOf x 223 208 == 0 && fieldOf x 173 168 == 0 && fieldOf x 135 128 == 0 && fieldOf x 87 80 == 0 && fieldOf x 72 0 == 0 &&
  fieldOf x 151 136 ≤ fieldOf x 167 152 && fieldOf x 191 180 != 0xFFF &&
  (if res = 1 then fieldOf x 127 88 % 1024 == 0 && fieldOf x 127 88 ≤ count else fieldOf x 127 88 == 0)

/-- R308–R312, R316. -/
def execXred (d a b : Reg) (r : BitVec 1) (s : State) :=
  run (straight 4 (do
    let q ← completionQueue d
    let ids ← rd a
    let addr ← rd b
    let e ← captureRed (ids.extractLsb' 0 32)
    let t : Option Entry ← if ids.extractLsb' 32 32 = 0 then pure none else (do
      let t ← captureRed (ids.extractLsb' 32 32)
      pure (some t))
    checkCopy (e.count < 2 ^ 40 && (match t with
      | some t => t.count < 2 ^ 40
      | none => true))
    let bs ← loadRange addr 32 16
    let x : BitVec 256 := BitVec.ofNat 256 (natOfBytes bs)
    checkCopy (descriptorOk x r e.count)
    let s ← getState
    let eng := if x.getLsbD 79 then s.anyEngine else fieldOf x 78 73
    issueEngine eng q (fieldOf x 127 88) (fun id => .red e t
      { pkg := s.pkg, eng := BitVec.ofNat 6 eng, id := id, key := x.extractLsb' 224 32, rank := fieldOf x 151 136,
        ranks := fieldOf x 167 152 + 1, start := fieldOf x 127 88, count := e.count, fmt := BitVec.ofNat 4 e.fmt,
        dst := t.map (fun t => BitVec.ofNat 4 t.fmt), dcount := (t.map Entry.count).getD e.count, nmode := s.me.nmode,
        tmo := fieldOf x 207 192 }
      (x.extractLsb' 180 12) (x.extractLsb' 174 6)))) s

/-- The engine that XSTAT and XABORT name. -/
def engineArg (a : Reg) : Op Nat := do
  let x ← rd a
  checkCopy (fieldOf x 63 6 == 0)
  pure (fieldOf x 5 0)

/-- The word of an engine (Table 13.7): INDEX counts what the oldest running command has written, from its start. -/
def Engine.word (g : Engine) : Word :=
  let busy := if g.running.isEmpty then 0 else 2 ^ 63
  let head := match g.running with
    | c :: _ => c.func * 2 ^ 40 + (c.pos - c.start)
    | [] => 0
  Machine.word (busy + g.queue.length * 2 ^ 57 + g.running.length * 2 ^ 54 + g.roots.length * 2 ^ 50 + head)

/-- R317. -/
def execXstat (d a : Reg) (s : State) :=
  run (straight 4 (do
    let e ← engineArg a
    let s ← getState
    wr d (s.engine e).word)) s

/-- A rank is aborted (R312, R318): its collective ends, its own command with DETAIL 1. A root in another package hears of it,
and says where the collective ends. -/
def State.abortRank (s : State) (eng : Nat) (c : XCmd) (r : RankArrival) (root : BitVec 12) (reng : Nat) : State :=
  let c := { c with stop := some (cCOPY, 1) }
  let s := s.setXcmd eng c
  if root ≠ s.pkg then s.tellRoot eng c (.failed cCOPY)
  else match (s.engine reng).roots.find? (fun k => k.arrived.contains r) with
    | some k => s.endColl reng k k.pos (.rank r.rank cCOPY 1)
    | none =>
      let g := s.engine reng
      (s.setEngine reng { g with waiting := g.waiting.filter (fun x => x.1 ≠ r) }).endRankCmd eng c cCOPY 1 c.pos

/-- Abort one command: a queued one and a local copy end at once, a remote copy when its packets are acknowledged. -/
def State.abortCmd (s : State) (eng : Nat) (c : XCmd) : State :=
  if (s.engine eng).queue.any (fun x => x.id == c.id) then s.endXcmd eng c cCOPY 1 c.start
  else match s.xcmd eng c.id with
    | none => s
    | some c => match c.op with
      | .red _ _ r root reng => s.abortRank eng c r root reng.toNat
      | _ =>
        if c.sent = [] ∨ s.farSource c then s.endCopy eng c cCOPY 1 c.pos
        else s.setXcmd eng { c with stop := some (cCOPY, 1) }

/-- R318. The queued commands end first, so that none of them starts. -/
def execXabort (d a : Reg) (s : State) :=
  run (straight 4 (do
    let e ← engineArg a
    let s ← getState
    let g := s.engine e
    let cs := (g.queue ++ g.running).filter (fun c => c.core == s.cur && c.stop.isNone)
    setState (cs.foldl (fun s c => s.abortCmd e c) s)
    wr d (word cs.length))) s

end Sys2Proof.Machine
end

