-- ==== Sys2Proof/Machine/Sign.lean ====
section
/-!
DEFINITION. The signature check of images and firmware (20 R406): SHA-384, and ECDSA over brainpoolP384r1 (RFC 5639), with
the fused key list (22).
-/
namespace Sys2Proof.Machine

/-! ## SHA-384 -/

/-- The round constants. -/
def shaK : List (BitVec 64) :=
  [0x428A2F98D728AE22, 0x7137449123EF65CD, 0xB5C0FBCFEC4D3B2F, 0xE9B5DBA58189DBBC] ++
  [0x3956C25BF348B538, 0x59F111F1B605D019, 0x923F82A4AF194F9B, 0xAB1C5ED5DA6D8118] ++
  [0xD807AA98A3030242, 0x12835B0145706FBE, 0x243185BE4EE4B28C, 0x550C7DC3D5FFB4E2] ++
  [0x72BE5D74F27B896F, 0x80DEB1FE3B1696B1, 0x9BDC06A725C71235, 0xC19BF174CF692694] ++
  [0xE49B69C19EF14AD2, 0xEFBE4786384F25E3, 0x0FC19DC68B8CD5B5, 0x240CA1CC77AC9C65] ++
  [0x2DE92C6F592B0275, 0x4A7484AA6EA6E483, 0x5CB0A9DCBD41FBD4, 0x76F988DA831153B5] ++
  [0x983E5152EE66DFAB, 0xA831C66D2DB43210, 0xB00327C898FB213F, 0xBF597FC7BEEF0EE4] ++
  [0xC6E00BF33DA88FC2, 0xD5A79147930AA725, 0x06CA6351E003826F, 0x142929670A0E6E70] ++
  [0x27B70A8546D22FFC, 0x2E1B21385C26C926, 0x4D2C6DFC5AC42AED, 0x53380D139D95B3DF] ++
  [0x650A73548BAF63DE, 0x766A0ABB3C77B2A8, 0x81C2C92E47EDAEE6, 0x92722C851482353B] ++
  [0xA2BFE8A14CF10364, 0xA81A664BBC423001, 0xC24B8B70D0F89791, 0xC76C51A30654BE30] ++
  [0xD192E819D6EF5218, 0xD69906245565A910, 0xF40E35855771202A, 0x106AA07032BBD1B8] ++
  [0x19A4C116B8D2D0C8, 0x1E376C085141AB53, 0x2748774CDF8EEB99, 0x34B0BCB5E19B48A8] ++
  [0x391C0CB3C5C95A63, 0x4ED8AA4AE3418ACB, 0x5B9CCA4F7763E373, 0x682E6FF3D6B2B8A3] ++
  [0x748F82EE5DEFB2FC, 0x78A5636F43172F60, 0x84C87814A1F0AB72, 0x8CC702081A6439EC] ++
  [0x90BEFFFA23631E28, 0xA4506CEBDE82BDE9, 0xBEF9A3F7B2C67915, 0xC67178F2E372532B] ++
  [0xCA273ECEEA26619C, 0xD186B8C721C0C207, 0xEADA7DD6CDE0EB1E, 0xF57D4F7FEE6ED178] ++
  [0x06F067AA72176FBA, 0x0A637DC5A2C898A6, 0x113F9804BEF90DAE, 0x1B710B35131C471B] ++
  [0x28DB77F523047D84, 0x32CAAB7B40C72493, 0x3C9EBE0A15C9BEBC, 0x431D67C49C100D4C] ++
  [0x4CC5D4BECB3E42B6, 0x597F299CFC657E2A, 0x5FCB6FAB3AD6FAEC, 0x6C44198C4A475817]

/-- The initial hash value. -/
def shaIV : List (BitVec 64) :=
  [0xCBBB9D5DC1059ED8, 0x629A292A367CD507, 0x9159015A3070DD17, 0x152FECD8F70E5939,
   0x67332667FFC00B31, 0x8EB44A8768581511, 0xDB0C2E0D64F98FA7, 0x47B5481DBEFA4FA4]

/-- The message schedule's next word, from the last sixteen, oldest first. -/
def shaWord (w : List (BitVec 64)) : BitVec 64 :=
  let at_ := fun (i : Nat) => w.getD i 0
  let r := fun (x : BitVec 64) (k : Nat) => x.rotateRight k
  let s0 := r (at_ 1) 1 ^^^ r (at_ 1) 8 ^^^ (at_ 1 >>> 7)
  let s1 := r (at_ 14) 19 ^^^ r (at_ 14) 61 ^^^ (at_ 14 >>> 6)
  at_ 0 + s0 + at_ 9 + s1

/-- One round, on the working variables and the window of the schedule. -/
def shaRound (v : List (BitVec 64) × List (BitVec 64)) (k : BitVec 64) : List (BitVec 64) × List (BitVec 64) :=
  match v.1 with
  | [a, b, c, d, e, f, g, h] =>
    let r := fun (x : BitVec 64) (k : Nat) => x.rotateRight k
    let t1 := h + (r e 14 ^^^ r e 18 ^^^ r e 41) + ((e &&& f) ^^^ (~~~e &&& g)) + k + v.2.getD 0 0
    let t2 := (r a 28 ^^^ r a 34 ^^^ r a 39) + ((a &&& b) ^^^ (a &&& c) ^^^ (b &&& c))
    ([t1 + t2, a, b, c, d + t1, e, f, g], v.2.drop 1 ++ [shaWord v.2])
  | _ => v

/-- One block of 128 bytes. -/
def shaBlock (h : List (BitVec 64)) (b : List Byte) : List (BitVec 64) :=
  let w := (List.range 16).map (fun i => ((b.drop (8 * i)).take 8).foldl (fun (x : BitVec 64) y => x <<< 8 ||| y.setWidth 64) 0)
  let v := (shaK.foldl shaRound (h, w)).1
  (h.zip v).map (fun p => p.1 + p.2)

/-- All blocks, with fuel for their number. -/
def shaBlocks : Nat → List (BitVec 64) → List Byte → List (BitVec 64)
  | 0, h, _ => h
  | n + 1, h, bs => if bs = [] then h else shaBlocks n (shaBlock h (bs.take 128)) (bs.drop 128)

/-- SHA-384 as a number, its first byte most significant. -/
def sha384 (bs : List Byte) : Nat :=
  let n := bs.length
  let pad := List.replicate ((239 - n % 128) % 128) (0 : Byte)
  let len := (List.range 16).map (fun i => BitVec.ofNat 8 (8 * n / 256 ^ (15 - i)))
  let all := bs ++ [0x80#8] ++ pad ++ len
  ((shaBlocks (all.length / 128) shaIV all).take 6).foldl (fun x w => x * 2 ^ 64 + w.toNat) 0

/-! ## The curve (RFC 5639) -/

abbrev curveP : Nat :=
  0x8CB91E82A3386D280F5D6F7E50E641DF152F7109ED5456B412B1DA197FB71123ACD3A729901D1A71874700133107EC53
abbrev curveA : Nat :=
  0x7BC382C63D8C150C3C72080ACE05AFA0C2BEA28E4FB22787139165EFBA91F90F8AA5814A503AD4EB04A8C7DD22CE2826
abbrev curveB : Nat :=
  0x4A8C7DD22CE28268B39B55416F0447C2FB77DE107DCD2A62E880EA53EEB62D57CB4390295DBC9943AB78696FA504C11
abbrev curveG : Nat × Nat :=
  (0x1D1C64F068CF45FFA2A63A81B7C13F6B8847A3E77EF14FE3DB7FCAFE0CBD10E8E826E03436D646AAEF87B2E247D4AF1E,
   0x8ABE1D7520F9C2A45CB1EB8E95CFD55262B70B29FEEC5864E19C054FF99129280E4646217791811142820341263C5315)
/-- The order of the base point. -/
abbrev curveQ : Nat :=
  0x8CB91E82A3386D280F5D6F7E50E641DF152F7109ED5456B31F166E6CAC0425A7CF3AB6AF6B7FC3103B883202E9046565

/-- x^e modulo m, over n bits of e. -/
def powMod (x e m : Nat) : Nat → Nat
  | 0 => 1
  | n + 1 => let y := powMod x (e / 2) m n
    if e % 2 = 0 then y * y % m else y * y % m * x % m

/-- The inverse modulo a prime of at most 384 bits. -/
def invMod (x m : Nat) : Nat := powMod (x % m) (m - 2) m 384

/-- A point: none is the point at infinity. -/
abbrev Point := Option (Nat × Nat)

def Point.add (a b : Point) : Point := match a, b with
  | none, b => b
  | a, none => a
  | some (x1, y1), some (x2, y2) =>
    let sub := fun (x y : Nat) => (x + curveP - y) % curveP
    let go := fun (l : Nat) =>
      let x := sub (sub (l * l % curveP) x1) x2
      some (x, sub (l * sub x1 x % curveP) y1)
    if x1 = x2 then
      if (y1 + y2) % curveP = 0 then none
      else go ((3 * x1 * x1 + curveA) % curveP * invMod (2 * y1) curveP % curveP)
    else go (sub y2 y1 * invMod (sub x2 x1) curveP % curveP)

/-- k times a point, over n bits of k. -/
def Point.mul (p : Point) (k : Nat) : Nat → Point
  | 0 => none
  | n + 1 => let h := Point.mul p (k / 2) n
    let d := Point.add h h
    if k % 2 = 0 then d else Point.add d p

/-- Is a pair of coordinates a point of the curve? -/
def onCurve (x y : Nat) : Bool :=
  x < curveP && y < curveP && y * y % curveP == (x * x * x + curveA * x + curveB) % curveP

/-- ECDSA with SHA-384. -/
def ecdsa (x y : Nat) (bs : List Byte) (r s : Nat) : Bool :=
  if !onCurve x y ∨ r = 0 ∨ curveQ ≤ r ∨ s = 0 ∨ curveQ ≤ s then false
  else
    let w := invMod s curveQ
    match Point.add (Point.mul (some curveG) (sha384 bs * w % curveQ) 384) (Point.mul (some (x, y)) (r * w % curveQ) 384) with
    | some p => p.1 % curveQ == r
    | none => false

/-! ## Keys and signatures (R406) -/

/-- The bytes of a list of words, each lowest first (00 R3). -/
def wordBytes (ws : List Word) : List Byte := ws.flatMap (fun w => bytesOf w 8)

/-- An integer written most significant byte first. -/
def beNat (bs : List Byte) : Nat := bs.foldl (fun x b => x * 256 + b.toNat) 0

/-- A public key is accepted when its hash matches its entry, and the entry is not revoked (22). -/
def keyAccepted (j : BitVec 4) : Bool :=
  beNat (bytesOf (Config.keyHash j) 48) == sha384 (Config.keyBytes (Config.keyX j) (Config.keyY j)) && !Config.keyRevoked j

/-- CLASS of an image's signature, when it verifies (R406): the signature section is the image's last 14 words. -/
def signedClass (ws : List Word) : Option Bool :=
  let body := ws.take (ws.length - 14)
  match ws.drop (ws.length - 14) with
  | sec :: w0 :: rest =>
    let j := fieldOf w0 31 0
    let key := BitVec.ofNat 4 j
    let bs := wordBytes rest
    if sec = 0x0F0000000000000D ∧ rest.length = 12 ∧ fieldOf w0 62 32 = 0 ∧ j < 16 ∧ Config.keyClass key = w0.getLsbD 63 ∧
        keyAccepted key ∧ ecdsa (Config.keyX key) (Config.keyY key) (wordBytes body) (beNat (bs.take 48)) (beNat (bs.drop 48)) then
      some (w0.getLsbD 63)
    else none
  | _ => none

end Sys2Proof.Machine
end

