-- ==== Sys2Proof/Machine/Image.lean ====
section
/-!
DEFINITION. The Stevon image (20 R398–R406): its records, read from its words. Anything that breaks those rules reads as
nothing, and the loader answers FORMAT.
-/
namespace Sys2Proof.Machine

/-! ## Records -/

/-- A placement word without AUTO (Table 20.3). -/
structure Place where
  die     : Nat
  cluster : Nat
  first   : Nat
  count   : Nat
  weight  : Nat
  deriving DecidableEq, Repr

/-- A role record (R400). `auto`: the weight, when the loader places all cores. Handles are (kind, handle, target); data
are (space, offset or address, words). -/
structure RoleRec where
  count   : Nat
  svc     : Bool
  pool    : BitVec 2
  frames  : Nat
  banks   : BitVec 32
  codeVa  : Word
  auto    : Option Nat
  places  : List Place
  handles : List (Nat × Nat × Nat)
  code    : List IWord
  datas   : List (Nat × Nat × List Word)
  deriving DecidableEq, Repr

/-- An image. Bindings are (role, row number, row); rates (queue, PRODUCE, CONSUME, BURST); tensors (role, entry); groups
(STAGGER, roles); slots (router, slots with their entries); tables (role, number, contents); preloads (tensor, metadata
tensor + 1, bank name, role). -/
structure Image where
  svcreq   : Bool := false
  roles    : List RoleRec := []
  binds    : List (Nat × Nat × Row) := []
  queues   : List (BitVec 256) := []
  rates    : List (Nat × Nat × Nat × Nat) := []
  tensors  : List (Nat × Entry) := []
  groups   : List (Nat × List Nat) := []
  slots    : List (Nat × List (Nat × Word)) := []
  tables   : List (Nat × Nat × Sfu) := []
  preloads : List (Nat × Nat × Nat × Nat) := []
  deriving DecidableEq, Repr

/-- A reader of words. -/
abbrev Rd (α : Type) := StateT (List Word) Option α

/-- The next `n` words. -/
def words (n : Nat) : Rd (List Word) := fun ws => if n ≤ ws.length then some (ws.take n, ws.drop n) else none
def oneWord : Rd Word := fun ws => match ws with
  | w :: t => some (w, t)
  | [] => none
/-- What must hold. -/
def must (b : Bool) : Rd Unit := fun ws => if b then some ((), ws) else none

/-- Read records until the words end, with fuel for their number. -/
def rdAll {α : Type} (r : Rd α) : Nat → List Word → Option (List α)
  | 0, ws => if ws = [] then some [] else none
  | n + 1, ws => if ws = [] then some [] else
    match r ws with
    | some (a, t) => (rdAll r n t).map (fun l => a :: l)
    | none => none

/-- `n` records in turn. -/
def rdN {α : Type} (r : Rd α) : Nat → Rd (List α)
  | 0 => pure []
  | n + 1 => do let a ← r; let l ← rdN r n; pure (a :: l)

/-- A number from words, lowest first. -/
def natOfWords (ws : List Word) : Nat := ws.foldr (fun w x => w.toNat + 2 ^ 64 * x) 0

/-! ## The role record (R400) -/

/-- A placement word: the weight with AUTO, or a place. -/
def rdPlace : Rd (Nat ⊕ Place) := do
  let w ← oneWord
  must (fieldOf w 62 48 == 0 && fieldOf w 22 0 == 0)
  if w.getLsbD 63 then
    must (fieldOf w 47 35 == 0)
    pure (.inl (fieldOf w 26 23))
  else
    let p : Place := { die := fieldOf w 47 47, cluster := fieldOf w 46 43, first := fieldOf w 42 35, count := fieldOf w 34 27 + 1,
                       weight := fieldOf w 26 23 }
    must (p.first + p.count ≤ 256)
    pure (.inr p)

/-- A handle word. -/
def rdHandle : Rd (Nat × Nat × Nat) := do
  let w ← oneWord
  must (fieldOf w 61 36 == 0 && (fieldOf w 63 62 < 2 || fieldOf w 31 0 == 0))
  pure (fieldOf w 63 62, fieldOf w 35 32, fieldOf w 31 0)

/-- A data record. -/
def rdData : Rd (Nat × Nat × List Word) := do
  let w ← oneWord
  let at_ ← oneWord
  must (fieldOf w 61 58 == 0 && fieldOf w 31 0 == 0)
  let ws ← words (fieldOf w 57 32)
  pure (fieldOf w 63 62, at_.toNat, ws)

/-- Does a data record stay in its space: below the frame area of R90, in the scratchpad, below 0x07C0_0000, in the lowest
2 GiB (02 R49; 04 R90)? -/
def dataFits (frames : Nat) (d : Nat × Nat × List Word) : Bool :=
  d.2.1 + 8 * d.2.2.length ≤ (match d.1 with
    | 0 => 0x4000 - 256 * (frames + 2)
    | 1 => 2 ^ 22
    | 2 => 0x07C00000
    | _ => 2 ^ 31)

/-- All elements different. -/
def distinct (l : List Nat) : Bool := l.eraseDups.length == l.length

def rdRole : Rd RoleRec := do
  let w0 ← oneWord
  let w1 ← oneWord
  let va ← oneWord
  let frames := if fieldOf w0 48 45 = 0 then 4 else fieldOf w0 48 45
  let nplace := fieldOf w0 31 24
  must (fieldOf w0 44 32 == 0 && frames ≤ 14 && 1 ≤ nplace && fieldOf w0 23 16 ≤ 16 && va.toNat % 65536 == 0 &&
    va.toNat < 2 ^ 31 && va.toNat + 8 * fieldOf w1 63 32 ≤ 2 ^ 31)
  let ps ← rdN rdPlace nplace
  let autos := ps.filterMap (fun p => match p with
    | .inl w => some w
    | .inr _ => none)
  must (autos.isEmpty || nplace == 1)
  let hs ← rdN rdHandle (fieldOf w0 23 16)
  must (distinct (hs.map (·.2.1)))
  let code ← words (fieldOf w1 63 32)
  let ds ← rdN rdData (fieldOf w0 15 0)
  must (ds.all (dataFits frames))
  pure { count := fieldOf w0 63 52 + 1, svc := w0.getLsbD 51, pool := w0.extractLsb' 49 2, frames := frames,
         banks := w1.setWidth 32, codeVa := va, auto := autos.head?, places := ps.filterMap (fun p => match p with
           | .inr p => some p
           | .inl _ => none),
         handles := hs, code := code.flatMap (fun w => [w.setWidth 32, w.extractLsb' 32 32]), datas := ds }

/-! ## The other records (R401–R405) -/

/-- A binding row from its three words, PEND aside (04 Table 4.1). -/
def rowOf (entry arg w : Word) : Row :=
  { entry := entry, arg := arg, valid := w.getLsbD 0, en := w.getLsbD 1, fault := w.getLsbD 2, prio := w.extractLsb' 3 3,
    qh0 := w.extractLsb' 6 4, q0v := w.getLsbD 10, qh1 := w.extractLsb' 11 4, q1v := w.getLsbD 15, trig0 := w.extractLsb' 16 8,
    trig1 := w.extractLsb' 24 8, pend := 0, budget := w.extractLsb' 40 24 }

/-- A binding record; ENTRY is still an offset from CODEVA. -/
def rdBind : Rd (Nat × Nat × Row) := do
  let w0 ← oneWord
  let e ← oneWord
  let a ← oneWord
  let w ← oneWord
  must (w0 &&& 0x000000FF0000003F == w0 && fieldOf w 39 32 == 0 && w.getLsbD 0)
  pure (fieldOf w0 39 32, fieldOf w0 5 0, rowOf e a w)

def rdQueue : Rd (BitVec 256) := do
  let ws ← words 4
  let d := BitVec.ofNat 256 (natOfWords ws)
  let f := fieldOf d
  must (f 255 216 == 0 && f 191 128 == 0 && f 127 80 == 0 && f 29 24 == 0 && f 15 0 == 0)
  pure d

def rdRate : Rd (Nat × Nat × Nat × Nat) := do
  let w ← oneWord
  pure (fieldOf w 63 48, fieldOf w 47 32, fieldOf w 31 16, fieldOf w 15 0)

def rdTensor : Rd (Nat × Entry) := do
  let w ← oneWord
  let ws ← words 8
  must (w &&& 0x000000FF00000000 == w)
  pure (fieldOf w 39 32, BitVec.ofNat 512 (natOfWords ws))

def rdGroup : Rd (Nat × List Nat) := do
  let w ← oneWord
  let r ← oneWord
  let n := fieldOf w 63 56
  must (w &&& 0xFF0000000000FF00 == w && 1 ≤ n && n ≤ 8 && r.toNat / 256 ^ n == 0)
  pure (fieldOf w 15 8, (List.range n).map (fun j => fieldOf r (8 * j + 7) (8 * j)))

def rdSlots : Rd (Nat × List (Nat × Word)) := do
  let w ← oneWord
  let n := fieldOf w 15 0
  must (w &&& 0x0000F8000000FFFF == w && 1 ≤ n && n ≤ 256)
  let ws ← words n
  must (ws.all (fun x => fieldOf x 55 48 == 0))
  pure (fieldOf w 47 47 * 16 + fieldOf w 46 43, ws.map (fun x => (fieldOf x 63 56, x &&& 0x0000FFFFFFFFFFFF)))

def rdTable : Rd (Nat × Nat × Sfu) := do
  let w ← oneWord
  let ws ← words 256
  let l ← oneWord
  must (w &&& 0x000000FF00000007 == w)
  let seg : Tbl (BitVec 32 × BitVec 32) := (List.range 256).map (fun i => let x := ws.getD i 0; (i, (x.setWidth 32, x.extractLsb' 32 32)))
  pure (fieldOf w 39 32, fieldOf w 2 0, { seg := seg, lo := l.setWidth 32, inv := l.extractLsb' 32 32 })

def rdPreload : Rd (Nat × Nat × Nat × Nat) := do
  let w ← oneWord
  must (w &&& 0xFFFFFFFF00003FFF == w)
  pure (fieldOf w 63 48, fieldOf w 47 32, fieldOf w 13 8, fieldOf w 7 0)

/-! ## Sections (R398, R399) -/

/-- The sections, as (kind, body), in ascending order of kind. -/
def rdSections : Nat → Nat → List Word → Option (List (Nat × List Word))
  | 0, _, ws => if ws = [] then some [] else none
  | n + 1, least, ws => match ws with
    | [] => none
    | w :: t =>
      let kind := fieldOf w 63 56
      let body := fieldOf w 31 0
      if fieldOf w 55 32 ≠ 0 ∨ kind < least ∨ kind = 0 ∨ (10 ≤ kind ∧ kind ≤ 14) ∨ kind > 15 ∨ body > t.length then none
      else (rdSections n (kind + 1) (t.drop body)).map (fun l => (kind, t.take body) :: l)

/-- The records of a kind; none listed when the image has no such section. -/
def recordsOf {α : Type} (r : Rd α) (secs : List (Nat × List Word)) (kind : Nat) : Option (List α) :=
  match secs.find? (fun x => x.1 == kind) with
  | some x => rdAll r x.2.length x.2
  | none => some []

/-- A queue of an image (R402): its attributes, whether it is multicast, and its consumer's image index. -/
def imageQueue (d : BitVec 256) (dom : BitVec 12) : Queue × Bool × Nat :=
  let f := fieldOf d
  let mcast := f 31 31 = 1
  ({ elastic := f 52 52 = 1, cap := f 63 56 + 1, g := f 55 53 + 1, window := if f 47 40 = 0 then 4 else f 47 40,
     prio := d.extractLsb' 49 3, mcast := mcast, steer := f 30 30 = 1, dom := dom, openAll := f 48 48 = 1,
     calItems := f 215 192, lowmark := f 39 32 }, mcast, if mcast then f 23 16 else f 79 64)

/-- The CIM bank that a preload may fill: a bank of its role's, and for an upper half a 4-bit format (12 R268, R269). -/
def preloadOk (img : Image) (p : Nat × Nat × Nat × Nat) : Bool :=
  match img.tensors[p.1]?, img.roles[p.2.2.2]? with
  | some t, some r => bankFmt (Entry.fmt t.2) && r.banks.getLsbD (p.2.2.1 % 32) && (p.2.2.1 < 32 || fourBit (Entry.fmt t.2)) &&
      [0, 1, 2, 7, 8].contains (fieldOf (Entry.base t.2) 51 48) && p.2.1 ≤ img.tensors.length && (p.2.1 == 0 || Entry.spn t.2 != 0)
  | _, _ => false

/-- Every index in range, and every limit of the records kept (R398–R406; 06 R125; 12 R263). -/
def Image.sound (img : Image) : Bool :=
  let nr := img.roles.length
  let svcOf := fun (r : Nat) => ((img.roles[r]?).map (·.svc)).getD false
  img.binds.all (fun b => b.1 < nr) && distinct (img.binds.map (fun b => b.1 * 64 + b.2.1)) &&
  img.queues.all (fun d => let x := imageQueue d 0
    x.1.inLimits true && fieldOf d 79 64 < nr && (!x.2.1 || x.2.2 < img.groups.length)) &&
  img.rates.all (fun r => r.1 < img.queues.length) &&
  img.tensors.all (fun t => t.1 < nr && t.2.wellFormed (svcOf t.1)) &&
  img.groups.all (fun g => g.2.all (· < nr) && distinct g.2) &&
  img.slots.all (fun x => distinct (x.2.map (·.1))) && distinct (img.slots.map (·.1)) &&
  img.tables.all (fun t => t.1 < nr) && distinct (img.tables.map (fun t => t.1 * 8 + t.2.1)) &&
  img.preloads.all (preloadOk img) &&
  img.roles.all (fun r => r.handles.all (fun h => h.1 != 0 || h.2.2 < img.queues.length))

/-- The image that a list of words is. -/
def readImage (ws : List Word) : Option Image := do
  match ws with
  | h0 :: h1 :: rest =>
    if fieldOf h0 63 32 ≠ 0x5354564E ∨ fieldOf h0 31 16 ≠ 1 ∨ fieldOf h1 63 32 ≠ ws.length ∨ fieldOf h1 31 14 ≠ 0 ∨ h1.getLsbD 12 then none
    else
      let secs ← rdSections (fieldOf h0 15 0) 1 rest
      let roles ← recordsOf rdRole secs 1
      let binds ← recordsOf rdBind secs 2
      let queues ← recordsOf rdQueue secs 3
      let rates ← recordsOf rdRate secs 4
      let tensors ← recordsOf rdTensor secs 5
      let groups ← recordsOf rdGroup secs 6
      let slots ← recordsOf rdSlots secs 7
      let tables ← recordsOf rdTable secs 8
      let preloads ← recordsOf rdPreload secs 9
      let img : Image := { svcreq := h1.getLsbD 13, roles := roles, binds := binds, queues := queues, rates := rates, tensors := tensors,
                           groups := groups, slots := slots, tables := tables, preloads := preloads }
      if img.sound then some img else none
  | _ => none

/-! ## What the signature's class is held against (R406; 01 R19) -/

/-- The LEVEL bit of a role record, whatever else its words hold. -/
def rdLevel : Rd Bool := do
  let w0 ← oneWord
  let w1 ← oneWord
  let _ ← oneWord
  let _ ← words (fieldOf w0 31 24)
  let _ ← words (fieldOf w0 23 16)
  let _ ← words (fieldOf w1 63 32)
  let _ ← rdN (do
    let w ← oneWord
    let _ ← oneWord
    let _ ← words (fieldOf w 57 32)) (fieldOf w0 15 0)
  pure (w0.getLsbD 51)

/-- The records as far as they read. -/
def rdSome {α : Type} (r : Rd α) : Nat → List Word → List α
  | 0, _ => []
  | n + 1, ws => match r ws with
    | some (a, t) => a :: rdSome r n t
    | none => []

/-- The body of the section of roles, whatever the other sections hold. -/
def roleWords : Nat → List Word → List Word
  | 0, _ => []
  | n + 1, ws => match ws with
    | [] => []
    | w :: t => if fieldOf w 63 56 = 1 then t.take (fieldOf w 31 0) else roleWords n (t.drop (fieldOf w 31 0))

/-- Does the image ask for a service-class key: SVCREQ, or a role at service level? The class is checked before the form
(R407). -/
def asksService (ws : List Word) : Bool :=
  (ws.getD 1 0).getLsbD 13 ||
    (let body := roleWords (fieldOf (ws.getD 0 0) 15 0) (ws.drop 2)
     (rdSome rdLevel body.length body).any id)

/-! ## What code names (02 R26; 12 R269, R270) -/

/-- The queue handles that a short word names: its handle field, where it is an instruction that has one. -/
def shortHandles (w : IWord) : List Nat :=
  let d := (fD w).toNat
  let a := (fA w).toNat
  let f := (fFunc w).toNat
  let m := fMod w
  let plain := m == 0
  let noB := fB w == 0
  (match (fMaj w).toNat with
    | 0x07 => if f = 25 ∧ plain then [d] else []
    | 0x0A => if plain ∧ (f = 8 ∨ f = 9 ∧ noB) then [d] else []
    | 0x0C => if plain ∧ (f = 5 ∧ noB ∨ f = 6) then [d] else []
    | 0x0D => match f with
      | 0 | 1 => if plain then [a] else []
      | 2 | 3 | 4 | 8 | 11 => if plain ∧ noB then [a] else []
      | 5 => if m.extractLsb' 4 2 = 0 then [d] else []
      | 6 => if m.extractLsb' 4 2 = 0 ∧ noB then [d] else []
      | 7 => if plain ∧ noB then [d] else []
      | _ => []
    | 0x0E => match f with
      | 3 => if plain ∧ noB then [d] else []
      | 4 => if m.extractLsb' 2 4 = 0 then [d] else []
      | 5 => if m.getLsbD 5 ∨ fieldOf m 3 0 > 9 ∨ (fieldOf m 3 0 = 9 ∧ !pairOk (fB w)) then [] else [d]
      | _ => []
    | 0x0F => match f with
      | 5 | 9 | 10 => if plain then [d] else []
      | 8 => if plain ∧ noB then [d] else []
      | _ => []
    | 0x1A => match f with
      | 0 => [d]
      | 2 => if m.extractLsb' 4 2 = 0 then [d] else []
      | 6 => if plain ∧ noB then [d] else []
      | _ => []
    | 0x1B => if f ≤ 2 ∧ m.extractLsb' 1 5 = 0 then [d] else []
    | _ => []).filter (· < 16)

/-- The accumulator names that a short word names (12 R280, R283, R285). -/
def shortAccs (w : IWord) : List Nat :=
  let d := (fD w).toNat
  let m := fMod w
  if fMaj w != 0x1A#6 then []
  else match (fFunc w).toNat with
    | 1 => if d < 8 then [d] else []
    | 2 => if m.extractLsb' 4 2 = 0 ∧ d < 16 then [fieldOf m 2 0] else []
    | 3 => if fA w = 0 ∧ fB w = 0 ∧ m = 0 ∧ d < 8 then [d] else []
    | _ => []

/-- The queue handles that a vector word names under a VX prefix (02 R32). -/
def longHandles (w w2 : IWord) : List Nat :=
  if fKind w != 0#4 || (fPay w).getLsbD 1 then []
  else match vopOf (fMaj w2).toNat (fVFunc w2).toNat with
    | none => []
    | some op =>
      let f := fV w2
      let x := fVx (fPay w)
      if vxOk op f x then (if x.qd = 1 then [f.d.toNat] else []) ++ (if x.qa = 1 then [f.a.toNat] else []) ++ (if x.qb = 1 then [f.b.toNat] else [])
      else []

/-- What code names, word by word, a prefix with its second word: handles and accumulator names. -/
def codeNames : Nat → List IWord → List Nat × List Nat
  | 0, _ => ([], [])
  | n + 1, ws => match ws with
    | [] => ([], [])
    | w :: t =>
      if takesTwo w then match t with
        | w2 :: t2 => let r := codeNames n t2
          (longHandles w w2 ++ r.1, r.2)
        | [] => ([], [])
      else let r := codeNames n t
        (shortHandles w ++ r.1, shortAccs w ++ r.2)

/-- Accumulator names used in a role's code, ascending. -/
def RoleRec.accs (r : RoleRec) : List Nat :=
  let used := (codeNames r.code.length r.code).2
  (List.range 8).filter (fun a => used.contains a)

/-- The code names only handles that the role maps (02 R26). -/
def RoleRec.handlesOk (r : RoleRec) : Bool :=
  (codeNames r.code.length r.code).1.all (fun h => r.handles.any (fun x => x.2.1 == h))

end Sys2Proof.Machine
end

