-- ==== Sys2Proof/Machine/Control.lean ====
section
/-!
DEFINITION. What services do to cores (20 R425–R429): binding rows and the rules they keep (04 R80), the STOP, KILL and
CKPT events with their halt items, answers to waiting instances, and handles.
-/
namespace Sys2Proof.Machine

/-! ## The rules of bindings (04 R80, 22 R436) -/

/-- Does an entry address lie in a role's code, aligned? -/
def State.entryOk (s : State) (entry codeVa : Word) (codeLen : Nat) : Bool :=
  let off := fieldOf entry 47 0
  fieldOf entry 51 48 == 0 && s.realPkg (entry.extractLsb' 52 12) == s.pkg && off % 4 == 0 && codeVa.toNat ≤ off && off < codeVa.toNat + codeLen

/-- The queue of this package that a handle map gives, with the core among its consumers. -/
def State.inputOf (s : State) (c : CoreId) (m : Tbl HandleMap) (h : BitVec 4) : Option QKey :=
  match m.get .unmapped h.toNat with
  | .queue id => if s.qidPkg id = s.pkg ∧ !qidReserved id ∧ (s.queue (qkeyOf id)).consumers.contains c then some (qkeyOf id) else none
  | .faultQueue => some (faultKey c)
  | .unmapped => none

/-- One VALID row against the rules that concern it alone, PRIO aside. -/
def State.rowOk (s : State) (c : CoreId) (m : Tbl HandleMap) (codeVa : Word) (codeLen : Nat) (r : Row) : Bool :=
  let isFault := fun (h : BitVec 4) => m.get .unmapped h.toNat == HandleMap.faultQueue
  let side := fun (h : BitVec 4) (trig : BitVec 8) => match s.inputOf c m h with
    | some q => 1 ≤ trig.toNat && trig.toNat ≤ (s.queue q).cap
    | none => false
  s.entryOk r.entry codeVa codeLen && (!r.q1v || r.q0v) && (!r.q0v || side r.qh0 r.trig0) && (!r.q1v || side r.qh1 r.trig1) &&
  (!(r.q0v && r.q1v) || s.inputOf c m r.qh0 != s.inputOf c m r.qh1) &&
  (if r.fault then r.q0v && r.trig0 == 1 && isFault r.qh0 && !(r.q1v && isFault r.qh1)
   else !(r.q0v && isFault r.qh0) && !(r.q1v && isFault r.qh1))

/-- The queues that a row binds under a handle map. -/
def State.bound (s : State) (c : CoreId) (m : Tbl HandleMap) (r : Row) : List QKey :=
  ((if r.q0v then [r.qh0] else []) ++ (if r.q1v then [r.qh1] else [])).filterMap (s.inputOf c m)

/-- The rows of a core keep the rules of R80, PRIO aside, with one fault row at most (22 R436). -/
def State.rowsOk (s : State) (c : CoreId) (m : Tbl HandleMap) (codeVa : Word) (codeLen : Nat) (rows : Tbl Row) : Bool :=
  let rs := (rows.map (·.2)).filter (·.valid)
  rs.all (s.rowOk c m codeVa codeLen) && distinct (rs.flatMap (s.bound c m)) && (rs.filter (·.fault)).length ≤ 1

/-- PRIO 7 is for service roles, and the fault row (04 R80, 01 R20). -/
def prioOk (svc : Bool) (r : Row) : Bool := svc || r.prio != 7 || r.fault

/-! ## Ending everything on a core (R427 KILL) -/

/-- Every instance of the core is terminated: how many there were, how many items were discarded, and the state. -/
def State.killCore (s : State) (c : CoreId) : Nat × Nat × State :=
  let x := s.core c
  let running := if x.cond = .idle then [] else [(x.inst.id, x.blocks)]
  let all := x.held.map (fun h => (h.inst.id, h.blocks)) ++ running
  let r := all.foldl (fun (r : Nat × State) i =>
    let d := r.2.discardItems i.1
    (r.1 + d.1, d.2.releaseLanes c i.2)) (0, s)
  let s := r.2.updCore c (fun x =>
    { x.cleared with held := [], pagerReqs := [], arms := x.arms.filter (fun a => a.2.hit.isSome || a.2.fired.isSome),
                     rows := x.rows.map (fun p => (p.1, { p.2 with en := false, pend := 0 })) })
  (all.length, r.1, s)

/-! ## Halting (R427, 22 R441) -/

/-- The item pushed when a core has halted. -/
def haltItem (target : Word) (status discarded frame : Nat) : Item :=
  dataItem ((0#24 ++ BitVec.ofNat 8 frame ++ BitVec.ofNat 24 (satTo (2 ^ 24 - 1) discarded) ++ BitVec.ofNat 8 status) ++ target : BitVec 128)

/-- The status of a stop: 1 when nothing ran, 2 when the stopped instance also waits for a pager answer. -/
def State.stopStatus (s : State) (c : CoreId) (f : Option Nat) : Nat :=
  if f.isNone then 1 else if (s.core c).cond = .stopped (some .pager) then 2 else 0

/-- Whether the core's role is recasting: a CKPT event then answers BUSY (22 R456). -/
def State.recasting (s : State) (c : CoreId) : Bool := (s.coreRole c).recast.isSome

/-- The record of R441: the frame of the stopped instance, if one was stopped, and the core's own registers. -/
def State.ckptRecord (s : State) (c : CoreId) (f : Option Nat) : List Byte :=
  let x := s.core c
  let held : Option Held := match f with
    | none => none
    | some k => if k = inPlace then (if x.cond = .idle then none else some (x.leave .stopped none)) else x.held.find? (fun h => h.frame == some k)
  let frame := match held with
    | some h => frameBytes h (s.tstate c h.inst h.vl)
    | none => List.replicate 256 0
  frame ++ ((List.range 16).flatMap (fun i => bytesOf (x.regs.toList.getD (16 + i) 0) 8)) ++ bytesOf x.nmode 8 ++ bytesOf (s.roleId c) 8 ++
    bytesOf (coordOf s.pkg c) 8 ++ bytesOf (word (s.now - x.resetAt)) 8 ++ List.replicate 96 0

/-- SERVICE_STOP (R427, 04 R94). -/
def execServiceStop (x : SvcEvent) (s : State) :=
  happen (
    let r := s.stopCore x.target
    r.2.pushFor x.by_ x.queue (haltItem x.word (r.2.stopStatus x.target r.1) 0 (r.1.getD 0)))

/-- SERVICE_KILL (R427). -/
def execServiceKill (x : SvcEvent) (s : State) :=
  happen (
    let r := s.killCore x.target
    r.2.2.pushFor x.by_ x.queue (haltItem x.word (if r.1 = 0 then 1 else 0) r.2.1 0))

/-- SERVICE_CKPT (R427; 22 R441, R456): a record whose write meets a fault is not written (log 62); one whose write must wait
is taken when it need not. -/
def execServiceCkpt (x : SvcEvent) (s : State) :=
  happen (
    if s.recasting x.target then s.pushFor x.by_ x.queue (haltItem x.word 14 0 0)
    else
      let r := s.stopCore x.target
      let a : Actor := { core := x.by_, dom := s.coreDom x.by_, svc := true }
      let halted := fun (t : State) => t.pushFor x.by_ x.queue (haltItem x.word (t.stopStatus x.target r.1) 0 (r.1.getD 0))
      match unitWrite a x.addr 512 (natOfBytes (r.2.ckptRecord x.target r.1)) (2 ^ 4096 - 1) r.2 with
      | .ok (_, t) => halted t
      | .error st => (s.waitAgain st (.serviceCkpt x)).getD (halted (r.2.unitStop a st).2.2))

/-! ## The instructions (R425) -/

/-- The core that a target word names; another package, or a nonzero [51:48] or [34:6], raises ACCESS. -/
def targetCore (w : Word) : Op CoreId := do
  let s ← getState
  check (s.realPkg (w.extractLsb' 52 12) == s.pkg && fieldOf w 51 48 == 0 && fieldOf w 34 6 == 0) cACCESS w
  pure (coreOfWord w)

/-- A status word: 0, or 0x8000_0000_0000_0000 or a code. -/
def statusWord (n : Nat) : Word := if n = 0 then 0 else 0x8000000000000000 ||| word n

/-- R426. -/
def execSvbind (d a b : Reg) (s : State) :=
  run (straight 4 (do
    needService
    let w ← rd a
    let c ← targetCore w
    let addr ← rd b
    let _ ← checkAddress addr
    check (addr.toNat % 8 == 0) cALIGN addr
    let w0 ← loadFrom addr 8
    let w1 ← loadFrom (addr + 8) 8
    let w2 ← loadFrom (addr + 16) 8
    let s ← getState
    let x := s.core c
    let k := fieldOf w 5 0
    let new := rowOf (w0.setWidth 64) (w1.setWidth 64) (w2.setWidth 64)
    let new := { new with pend := if new.valid then (x.row k).pend else 0 }
    let role := s.coreRole c
    if x.role.isNone then wr d (statusWord 1)
    else if s.rowsOk c x.handles role.codeVa role.codeLen (x.rows.set k new) && (!new.valid || prioOk role.svc new) then do
      modState (fun s => (s.updCore c (fun x => { x with rows := x.rows.set k new })).freeAll (s.rowQueues c (x.row k) |>.map (·.1)))
      wr d 0
    else wr d (statusWord 2))) s

/-- R427. -/
def execSvhalt (d a b : Reg) (s : State) :=
  run (straight 4 (do
    needService
    let w ← rd a
    let c ← targetCore w
    let e ← rd b
    check (fieldOf e 7 2 == 0 && fieldOf e 1 0 != 3) cACCESS e
    let q ← pushHandle d
    let s ← getState
    let x : SvcEvent := { target := c, word := w, by_ := s.cur, queue := q, addr := e &&& 0xFFFFFFFFFFFFFF00 }
    modState (fun s => s.post 0 (match fieldOf e 1 0 with
      | 0 => .serviceStop x
      | 1 => .serviceKill x
      | _ => .serviceCkpt x)))) s

/-- R428. -/
def execSvresume (d a b : Reg) (s : State) :=
  run (straight 4 (do
    needService
    let w ← rd a
    let c ← targetCore w
    let v ← rd b
    check (fieldOf v 63 8 == 0) cACCESS v
    let s ← getState
    match s.answer c (fieldOf w 3 0) (v.setWidth 8) with
    | some t => do
      setState t
      wr d 0
    | none => wr d 1)) s

/-- The remote-miss slots that an answer reaches: each request is tried again, or fails with the code (15 R325). -/
def State.answerMisses (s : State) (dom : BitVec 12) (page : Nat) (code : BitVec 8) : Nat × State :=
  let mine := s.misses.filter (fun m => m.dom == dom && m.page == page)
  let s := { s with misses := s.misses.filter (fun m => !(m.dom == dom && m.page == page)) }
  (mine.length, (mine.foldl (fun s m => if code = 0 then s.tryRequest m.req else s.failRequest m.req code) s).giveCredit)

/-- R428 with `.R`. -/
def execSvresumeR (d a b : Reg) (s : State) :=
  run (straight 4 (do
    needService
    let w ← rd a
    let s ← getState
    check (s.realPkg (w.extractLsb' 52 12) == s.pkg && fieldOf w 51 48 == 0) cACCESS w
    let v ← rd b
    check (fieldOf v 63 44 == 0 && fieldOf v 31 8 == 0) cACCESS v
    let r := s.answerMisses (v.extractLsb' 32 12) (fieldOf w 47 16) (v.setWidth 8)
    setState r.2
    wr d (word r.1))) s

/-- The status of SVMAP (R429). -/
def State.mapStatus (s : State) (c : CoreId) (id : BitVec 32) : Nat :=
  let inStep6 := match (s.coreRole c).recast with
    | some r => r.installing
    | none => false
  let q := s.queue (qkeyOf id)
  if (s.core c).role.isSome && !inStep6 then 3
  else if s.qidPkg id != s.pkg || qidReserved id || q.st == .free then 2
  else if (s.core c).role.isSome && q.dom != s.coreDom c && !q.openAll then 4
  else 0

/-- R429. -/
def execSvmap (d a b : Reg) (s : State) :=
  run (straight 4 (do
    needService
    let w ← rd a
    let c ← targetCore w
    let v ← rd b
    let id : BitVec 32 := v.setWidth 32
    let s ← getState
    let st := s.mapStatus c id
    if st = 0 then modState (fun s =>
      (s.updCore c (fun x => { x with handles := x.handles.set (fieldOf w 3 0) (.queue (s.qidOf (qkeyOf id))) })).freeAll
        (s.handleKey c false (BitVec.ofNat 5 (fieldOf w 3 0))).toList)
    wr d (statusWord st))) s

end Sys2Proof.Machine
end

