-- ==== Sys2Proof/Machine/Records.lean ====
section
/-!
DEFINITION. Request records and the record instructions (18 R360–R363, R372, R373, R385, R390, R391; 19 R395), the
formers' configuration (R364) and their command queues (R384).
-/
namespace Sys2Proof.Machine

/-! ## Records (R360, R361) -/

/-- A request record (Table 18.1). -/
abbrev Record := BitVec 2048

/-- A record with the `w` bits from bit `lo` set to `v`. -/
def Record.put (r : Record) (lo w v : Nat) : Record :=
  (r &&& ~~~((BitVec.allOnes 2048 >>> (2048 - w)) <<< lo)) ||| (BitVec.ofNat 2048 (v % 2 ^ w) <<< lo)

abbrev Record.prov (r : Record) (j : Nat) : Nat := (r.extractLsb' (768 + 32 * j) 32).toNat
abbrev Record.bscore (r : Record) : Nat := fieldOf r 767 736
abbrev Record.kvlen (r : Record) : Nat := fieldOf r 703 672
abbrev Record.pages (r : Record) : Nat := fieldOf r 671 656
abbrev Record.provn (r : Record) : Nat := fieldOf r 655 652
abbrev Record.stamp (r : Record) : Nat := fieldOf r 639 576
abbrev Record.forkidx (r : Record) : Nat := fieldOf r 543 528
abbrev Record.beamg (r : Record) : Nat := fieldOf r 527 512
abbrev Record.penptr (r : Record) : Word := r.extractLsb' 448 64
abbrev Record.spos (r : Record) : Nat := fieldOf r 447 416
abbrev Record.stopset (r : Record) : Nat := fieldOf r 415 404
abbrev Record.seed (r : Record) : Word := r.extractLsb' 320 64
abbrev Record.temp (r : Record) : Nat := fieldOf r 319 304
abbrev Record.topk (r : Record) : Nat := fieldOf r 303 288
abbrev Record.rep (r : Record) : Nat := fieldOf r 287 272
abbrev Record.pres (r : Record) : Nat := fieldOf r 271 256
abbrev Record.maxnew (r : Record) : Nat := fieldOf r 255 224
abbrev Record.endtok (r : Record) : Nat := fieldOf r 223 192
abbrev Record.kvmap (r : Record) : Word := r.extractLsb' 128 64
abbrev Record.commit (r : Record) : Nat := fieldOf r 127 96
abbrev Record.prompt (r : Record) : Nat := fieldOf r 95 64
abbrev Record.gen (r : Record) : Nat := fieldOf r 63 56
abbrev Record.state (r : Record) : Nat := fieldOf r 55 53
abbrev Record.hold (r : Record) : Bool := r.getLsbD 52
abbrev Record.rerun (r : Record) : Bool := r.getLsbD 51
abbrev Record.prio (r : Record) : Nat := fieldOf r 50 48
abbrev Record.bf (r : Record) : Nat := fieldOf r 47 46
abbrev Record.slot (r : Record) : Nat := fieldOf r 45 37
abbrev Record.slotv (r : Record) : Bool := r.getLsbD 36
abbrev Record.domain (r : Record) : BitVec 12 := r.extractLsb' 16 12

def Record.setState (r : Record) (st : Nat) : Record := r.put 53 3 st
def Record.setHold (r : Record) (h : Bool) : Record := r.put 52 1 h.toNat
def Record.setCode (r : Record) (c : Nat) : Record := r.put 28 8 c
def Record.setKvlen (r : Record) (n : Nat) : Record := r.put 672 32 n
def Record.setPages (r : Record) (n : Nat) : Record := r.put 656 16 n
def Record.setProvn (r : Record) (n : Nat) : Record := r.put 652 4 n
def Record.setSlotv (r : Record) (b : Bool) : Record := r.put 36 1 b.toNat
def Record.setRerun (r : Record) (b : Bool) : Record := r.put 51 1 b.toNat

abbrev stFREE : Nat := 0
abbrev stQUEUED : Nat := 1
abbrev stACTIVE : Nat := 2
abbrev stPARKED : Nat := 3
abbrev stDONE : Nat := 4
abbrev stFAULTED : Nat := 5

/-- Where record i lies on a die (R360; 01 R16). -/
def recordPlace (die i : Nat) : Nat := sramPlace die (0x07C00000 + 256 * i)

/-- Record i. -/
def State.record (s : State) (i : Nat) : Record := BitVec.ofNat 2048 (s.peek (recordPlace 0 i) 256)

/-- The records that an uncorrectable error has met in the primary and in the mirror (22 R442). -/
def State.lostRecords (s : State) : List Nat :=
  ((s.injected.filter (fun e => e.kind == 6 && e.n == 0 && e.fatal &&
    s.injected.any (fun f => f.kind == 6 && f.n == 1 && f.word == e.word && f.fatal))).map (fun e => e.word / 32)).eraseDups

/-- Write record i, and with it its mirror on die 1 (R391). A record that is lost stays so until its former's next step (22
R442), unless it is FREE and taken anew. -/
def State.setRecord (s : State) (i : Nat) (r : Record) : State :=
  let lost := if Record.state (s.record i) ≠ stFREE ∧ s.lostRecords.contains i then s.injected.filter (fun e => e.kind == 6 && e.word / 32 == i) else []
  let s := s.storeAt (recordPlace 0 i) (bytesOf r 256)
  { s with injected := s.injected ++ lost }

/-- An access reads record i: the errors of its words are corrected and logged, and one of the primary alone is mended from the
mirror (22 R442). -/
def State.meetRecord (s : State) (i : Nat) : State :=
  if (s.badWord (recordPlace 0 i) 256).isSome then s
  else s.scrub (recordPlace 0 i) 256 (s.globalOf (recordPlace 0 i)) (Record.domain (s.record i))

/-- The records of which a byte is listed: every record that is not FREE is among them. -/
def State.liveRecords (s : State) : List Nat :=
  (s.mem.filterMap (fun c => if recordPlace 0 0 ≤ c.1 ∧ c.1 < recordPlace 0 16384 then some ((c.1 - recordPlace 0 0) / 256) else none)).eraseDups

/-- The handle of a record. -/
def Record.handle (r : Record) : BitVec 32 := BitVec.ofNat 32 (r.gen * 2 ^ 24 + fieldOf r 13 0)

/-- The record that a handle names for a domain and level, with its index (R360). -/
def State.validRecord (s : State) (h : BitVec 32) (dom : BitVec 12) (svc : Bool) : Option (Nat × Record) :=
  let i := fieldOf h 13 0
  let r := s.record i
  if fieldOf h 23 14 = 0 ∧ r.state ≠ stFREE ∧ r.gen = fieldOf h 31 24 ∧ (r.domain = dom ∨ svc) then some (i, r) else none

/-- The record that a register names; REQ with the handle otherwise (R360). -/
def useRecord (x : Word) : Op (Nat × Record) := do
  let s ← getState
  match (if fieldOf x 63 32 = 0 then s.validRecord (x.setWidth 32) (s.coreDom s.cur) (s.coreSvc s.cur) else none) with
  | some p => pure p
  | none => trap cREQ x

/-- The lowest FREE record. -/
def State.freeRecord (s : State) : Option Nat := (List.range 16384).find? (fun i => Record.state (s.record i) == stFREE)

/-- A record taken: GEN advances, every other field at its reset value (R385). -/
def State.newRecord (s : State) (i : Nat) (dom : BitVec 12) : Record :=
  let g := Record.gen (s.record i)
  let r : Record := BitVec.ofNat 2048 i
  (((r.put 56 8 (if g = 255 then 1 else g + 1)).put 16 12 dom.toNat).put 192 32 0xFFFFFFFF)

/-! ## Configuration and queues (R364, R384) -/

/-- A former's configuration (Table 18.3). -/
structure FCfg where
  en       : Bool
  dom      : BitVec 12
  step     : Word
  thr      : Nat
  pools    : List Nat
  vocab    : Nat
  deadline : Nat
  chunk    : Nat
  tpp      : Nat
  slots    : Nat
  maxPages : Nat
  poolN    : Nat
  poolBase : Word
  mbase    : Word
  deriving DecidableEq, Repr

/-- The configuration of former b; `pools` are LAYERP, SAMPP and COMMP. A page holds at least one position. -/
def State.fcfg (s : State) (b : Nat) : FCfg :=
  let w := fun k => s.devGet (formerReg b k)
  let t := 65536 / 2 ^ fieldOf (w 3) 47 40
  { en := (w 7).getLsbD 63, dom := (w 7).extractLsb' 0 12, step := w 6, thr := fieldOf (w 5) 63 48,
    pools := [fieldOf (w 5) 47 32, fieldOf (w 5) 31 16, fieldOf (w 5) 15 0], vocab := fieldOf (w 4) 63 32,
    deadline := fieldOf (w 4) 31 16, chunk := fieldOf (w 3) 63 48, tpp := if t = 0 then 1 else t, slots := fieldOf (w 3) 39 31 + 1,
    maxPages := fieldOf (w 3) 15 0, poolN := fieldOf (w 2) 63 32, poolBase := w 1, mbase := w 0 }

/-- R364: ACCESS unless the former is enabled for the issuing domain. -/
def needFormer (b : Nat) : Op Unit := do
  let s ← getState
  let c := s.fcfg b
  check (c.en && c.dom == s.coreDom s.cur) cACCESS s.openDetail

/-- A REQ check with an open detail (log 40). -/
def checkReq (b : Bool) : Op Unit := do
  let s ← getState
  check b cREQ s.openDetail

/-- The event of the former's oldest command. -/
def FCmd.event (b : Nat) (c : FCmd) : Instr := match c.op with
  | .step => .bfstepExecute (BitVec.ofNat 2 b)
  | .smpl _ _ _ _ _ => .smplShardArrival (BitVec.ofNat 2 b)
  | .beam _ _ => .beamExecute (BitVec.ofNat 2 b)
  | .fork _ _ _ _ => .rqforkExecute (BitVec.ofNat 2 b)

/-- Post the event of the oldest command. -/
def State.kickFormer (s : State) (b : Nat) : State := match (s.former b).queue with
  | c :: _ => s.postOnce 1 (c.event b)
  | [] => s

/-- The oldest command has been taken. -/
def State.popFormer (s : State) (b : Nat) : State :=
  let f := s.former b
  (s.setFormer b { f with queue := f.queue.drop 1 }).kickFormer b

/-- Place a command: a release of the instance's accesses; a full queue is a wait at issue (R384, R391). -/
def issueFormer (b : Nat) (q : BitVec 32) (op : FOp) : Op Unit := do
  waitPerformed 5
  let s ← getState
  let f := s.former b
  if f.queue.length ≥ 64 then waitHere
  else
    let c : FCmd := { core := s.cur, q := q, dom := s.coreDom s.cur, svc := s.coreSvc s.cur, op := op }
    setState ((s.setFormer b { f with queue := f.queue ++ [c] }).kickFormer b)

/-! ## The record instructions (R385) -/

abbrev rqBADSTATE : Word := 0x8000000000000001
abbrev rqNOENTRY : Word := 0x8000000000000002
abbrev rqBADREC : Word := 0x8000000000000002
abbrev rqBUSY : Word := 0x8000000000000003
abbrev rqNOPROV : Word := 0x8000000000000003

/-- Change a record as one access at its point, a release at `.PKG` of what came before (R391). -/
def recordOp (d : Reg) (x : Word) (f : State → Nat → Record → Op Word) : Op Unit := do
  let (i, _) ← useRecord x
  waitPerformed 4
  modState (fun s => s.meetRecord i)
  let s ← getState
  let v ← f s i (s.record i)
  wr d v

/-- R385. -/
def execRqalloc (d : Reg) (s : State) :=
  run (straight 4 (do
    waitPerformed 4
    let s ← getState
    match s.freeRecord with
    | some i =>
      let r := ((s.newRecord i (s.coreDom s.cur)).setState stPARKED).setHold true
      setState (s.setRecord i r)
      wr d ((Record.handle r).setWidth 64)
    | none => wr d rqNOENTRY)) s

/-- R385, an acquire at `.PKG` (R391). -/
def execRqread (d a w : BitVec 5) (s : State) :=
  run (straight 4 (do
    let x ← rd a
    let (i, r) ← useRecord x
    modState (fun s => s.meetRecord i)
    wr d (dwordAt r w.toNat))) s

/-- The bits of the SET fields, and of the RW field (Table 18.1). -/
def setMask : Record :=
  ([(736, 32), (512, 16), (448, 64), (404, 12), (320, 64), (304, 16), (288, 16), (272, 16), (256, 16), (224, 32), (192, 32),
    (128, 64), (64, 32), (48, 3), (46, 2)] : List (Nat × Nat)).foldl (fun (m : Record) f => m.put f.1 f.2 (2 ^ f.2 - 1)) 0
def softMask : Record := BitVec.allOnes 2048 <<< 1024

/-- R361, R385. -/
def execRqwrite (d a b w : BitVec 5) (s : State) :=
  run (straight 4 (do
    let x ← rd a
    let v ← rd b
    recordOp d x (fun s i r => do
      let ok := r.state == stPARKED && r.hold
      let dw : Record := (BitVec.allOnes 2048 >>> 1984) <<< (64 * w.toNat)
      let m := dw &&& (if ok then softMask ||| setMask else softMask)
      setState (s.setRecord i ((r &&& ~~~m) ||| ((v.setWidth 2048 <<< (64 * w.toNat)) &&& m)))
      pure (if !ok && dw &&& setMask != 0 then 1 else 0)))) s

/-- The conditions on a record to be queued (R363, R385). -/
def State.queueable (s : State) (r : Record) : Bool :=
  let c := s.fcfg r.bf
  let sp := fieldOf r.penptr 51 48
  r.prompt ≥ 1 && r.kvmap != 0 && fieldOf r.kvmap 51 48 ≤ 3 &&
  (r.penptr == 0 || ((sp == 1 || sp == 2) && s.realPkg (r.penptr.extractLsb' 52 12) == s.pkg)) &&
  r.topk ≤ 256 && c.en && c.dom == r.domain

/-- R385; 19 R395. -/
def execRqqueue (d a : Reg) (s : State) :=
  run (straight 4 (do
    let x ← rd a
    recordOp d x (fun s i r => do
      if r.state ≠ stPARKED then pure rqBADSTATE
      else if !s.queueable r then pure rqBADREC
      else
        let r' := (((r.setState stQUEUED).setHold false).setCode 0).put 576 64 s.time
        setState (s.setRecord i (if r.commit = 0 then Record.put r' 96 32 r.prompt else r'))
        pure 0))) s

/-- R385. -/
def execRqpark (d a : Reg) (s : State) :=
  run (straight 4 (do
    let x ← rd a
    recordOp d x (fun s i r => do
      if r.state = stQUEUED ∨ r.state = stACTIVE then
        setState (s.setRecord i (((r.setState stPARKED).setHold true).setKvlen 0))
        pure 0
      else pure rqBADSTATE))) s

/-- R385: the handle is checked, then the code. -/
def execRqretire (d a b : Reg) (s : State) :=
  run (straight 4 (do
    let x ← rd a
    let code ← rd b
    let _ ← useRecord x
    checkReq (fieldOf code 63 8 == 0)
    recordOp d x (fun s i r => do
      if r.state = stQUEUED ∨ r.state = stACTIVE ∨ r.state = stPARKED then
        setState (s.setRecord i (if fieldOf code 7 0 = 0 then (r.setState stDONE).setCode 4
          else (r.setState stFAULTED).setCode (fieldOf code 7 0)))
        pure 0
      else pure rqBADSTATE))) s

/-- R385. -/
def execRqretireFree (d a : Reg) (s : State) :=
  run (straight 4 (do
    let x ← rd a
    recordOp d x (fun s i r => do
      if !(r.state == stDONE || r.state == stFAULTED || (r.state == stPARKED && r.hold)) then pure rqBADSTATE
      else if r.slotv || r.pages != 0 then pure rqBUSY
      else
        setState (s.setRecord i (r.setState stFREE))
        pure 0))) s

/-! ## Commit and stop (R363, R372) -/

/-- For whom the device acts on a request's own memory: its domain, at the level of the command. -/
def recordActor (core : CoreId) (svc : Bool) (r : Record) : Actor := { core := core, dom := r.domain, svc := svc }

/-- Is the token in a stop set? A stop set that cannot be read holds none (log 81); a unit asleep is waited for. -/
def inStops (r : Record) (tok : Nat) : Op Bool := fun s =>
  match unitRead { core := s.cur, dom := r.domain, svc := true } (s.devGet (stopReg r.domain) + word (64 * r.stopset)) 64 s with
  | .ok (v, s) => .ok ((List.range 16).any (fun k => v / 2 ^ (32 * k) % 2 ^ 32 == tok), s)
  | .error st => if st.waits then .error st else .ok (false, (s.unitStop { core := s.cur, dom := r.domain, svc := true } st).2.2)

/-- One more of a token in the penalty counts, saturating. -/
def bumpCount (a : Actor) (addr : Word) : Op Unit := do
  let n ← unitRead a addr 2
  unitWrite a addr 2 (satTo 65535 (n + 1)) 0xFFFF

/-- The count of a token goes up; an update that fails is skipped and reported (R372). -/
def countToken (r : Record) (tok : Nat) : Op Unit := fun s =>
  if r.penptr = 0 then .ok ((), s)
  else
    let a := recordActor s.cur (s.coreSvc s.cur) r
    let addr := r.penptr + word (2 * tok)
    match bumpCount a addr s with
    | .ok (_, s) => .ok ((), s)
    | .error st =>
      if st.waits then .error st
      else
        let (code, _, s) := s.unitStop a st
        .ok ((), s.report s.cur code s.openDetail addr)

/-- The tokens accepted one by one until `n` are or the request stops: how many, and the record. -/
def commitLoop (r : Record) (k : Nat) : Nat → Op (Nat × Record)
  | 0 => pure (k, r)
  | n + 1 =>
    if r.state ≠ stACTIVE then pure (k, r)
    else do
      let tok := r.prov k
      let r := ((r.put 96 32 (r.commit + 1)).put 416 32 (r.spos + 1)).put 704 32 tok
      countToken r tok
      let stop ← if tok ≠ r.endtok ∧ r.stopset ≠ 0 then inStops r tok else pure false
      let r := if tok = r.endtok then (Record.setState r stDONE).setCode 1
        else if stop then (Record.setState r stDONE).setCode 2
        else if r.maxnew ≠ 0 ∧ r.commit ≥ r.prompt + r.maxnew then (Record.setState r stDONE).setCode 3
        else r
      commitLoop r (k + 1) n

/-- R372. -/
def execRqcommit (d a b : Reg) (s : State) :=
  run (straight 4 (do
    let x ← rd a
    let n ← rd b
    recordOp d x (fun _ i r => do
      if r.state ≠ stACTIVE then pure rqBADSTATE
      else if n.toNat > r.provn then pure rqNOPROV
      else
        let (k, r') ← commitLoop r 0 n.toNat
        modState (fun s => s.setRecord i ((Record.setProvn r' 0).put 576 64 s.time))
        pure (word k)))) s

/-! ## Lahar (R373, R390) -/

def rotl32 (x : BitVec 32) (n : Nat) : BitVec 32 := (x <<< n) ||| (x >>> (32 - n))

/-- One round. -/
def laharRound (k : BitVec 32) (r : Nat) (x : BitVec 32 × BitVec 32 × BitVec 32 × BitVec 32) : BitVec 32 × BitVec 32 × BitVec 32 × BitVec 32 :=
  let (a, b, c, d) := x
  let a := a + b + k + BitVec.ofNat 32 r
  let d := rotl32 (d ^^^ a) 16
  let c := c + d
  let b := rotl32 (b ^^^ c) 12
  let a := a + b
  let d := rotl32 (d ^^^ a) 8
  let c := c + d
  let b := rotl32 (b ^^^ c) 7
  (a, b, c, d)

/-- R373. -/
def lahar (seed : Word) (pos row draw : BitVec 32) : BitVec 128 :=
  let k0 : BitVec 32 := seed.extractLsb' 0 32
  let k1 : BitVec 32 := seed.extractLsb' 32 32
  let x0 : BitVec 32 × BitVec 32 × BitVec 32 × BitVec 32 := (pos, row, draw, 0x4C414852)
  let x := (List.range 12).foldl (fun x r => laharRound (if r % 2 = 0 then k0 else k1) r x) x0
  (x.2.2.2 + x0.2.2.2) ++ (x.2.2.1 + x0.2.2.1) ++ (x.2.1 + x0.2.1) ++ (x.1 + x0.1)

/-- A draw's uniform (R373). -/
def uniform (seed : Word) (pos row draw : Nat) : Nat :=
  fieldOf (lahar seed (BitVec.ofNat 32 pos) (BitVec.ofNat 32 row) (BitVec.ofNat 32 draw)) 31 8

/-- The fork mix (R373). -/
def forkMix (seed : Word) (f : Nat) : Word := (lahar seed 0xFFFFFFFF (BitVec.ofNat 32 f) 0xFFFFFFFF).setWidth 64

/-- R390. -/
def execLahar (d a b : Reg) (h : BitVec 1) (s : State) :=
  run (straight 4 (do
    let seed ← rd a
    let x ← rd b
    let y ← rd d
    let o := lahar seed (x.extractLsb' 0 32) (x.extractLsb' 32 32) (y.setWidth 32)
    wr d (if h = 1 then o.extractLsb' 64 64 else o.setWidth 64))) s

end Sys2Proof.Machine
end

