-- ==== Sys2Proof/Machine/Former.lean ====
section
/-!
DEFINITION. Batch formers: pages and KV maps, steps, manifests, forks and the occupancy monitor of pools (18 R364–R371,
R381, R382, R386, R387).
-/
namespace Sys2Proof.Machine

/-! ## Pages (R365) -/

/-- A page moves (08 R181), or a row of memory is under test (22 R446): the former's work waits. -/
def State.moving (s : State) : Bool := !s.migrations.isEmpty || s.tests.any (·.core.isNone)

def State.updFormer (s : State) (b : Nat) (f : Former → Former) : State := s.setFormer b (f (s.former b))

/-- The pool pages that a record holds, in the order of its map. -/
def State.kvOf (s : State) (b i : Nat) : List Nat := (s.former b).kv.get [] i

def State.setKv (s : State) (b i : Nat) (l : List Nat) : State :=
  s.updFormer b (fun f => { f with kv := if l = [] then f.kv.erase i else f.kv.set i l })

/-- One more holder of a pool page, up to 65,535. -/
def State.holdPage (s : State) (b k : Nat) : State :=
  s.updFormer b (fun f => { f with holders := f.holders.upd 0 k (fun n => satTo 65535 (n + 1)) })

/-- One holder fewer; a page without holders is in the pool again. -/
def State.dropPage (s : State) (b k : Nat) : State :=
  s.updFormer b (fun f => { f with holders := if f.holders.get 0 k ≤ 1 then f.holders.erase k else f.holders.upd 0 k (· - 1) })

/-- A free page of the pool: which one is open (log 9). -/
def State.freePage (s : State) (b : Nat) : Option Nat :=
  let held := (s.former b).holders
  let free := (List.range (s.fcfg b).poolN).filter (fun k => held.get 0 k == 0)
  match free with
  | [] => none
  | k :: _ => some (free.getD (Config.frameChoice s.tick % free.length) k)

/-- The address of pool page k. -/
def pageAddr (a : Actor) (c : FCfg) (k : Nat) : Op Word := do
  let v ← unitRead { a with svc := true } (c.poolBase + word (8 * k)) 8
  pure (word v)

/-- The former reads entry j of a KV map at its point. It goes by its own count of the pages that a record holds, so that a map
that software has written disturbs nothing else (R365); which entries it reads is the model's choice (log 80). -/
def readMap (a : Actor) (r : Record) (j : Nat) : Op Unit := do
  let _ ← unitRead a (r.kvmap + word (8 * j)) 8
  pure ()

/-- Write entry j of a KV map. -/
def writeMap (a : Actor) (r : Record) (j : Nat) (v : Word) : Op Unit :=
  unitWrite a (r.kvmap + word (8 * j)) 8 v.toNat (2 ^ 64 - 1)

/-- Do an access for the device; a failure gives its code, and a PAGE its pager request (R365). Nothing of it is kept then. -/
def State.attempt (s : State) (a : Actor) (m : Op Unit) : BitVec 8 × State := match s.awake m 300 with
  | .ok (_, s) => (0, s)
  | .error st => let r := s.unitStop a st
    (r.1, r.2.2)

/-- A record's pages go back, and its map's entries read 0 (R365); a map that cannot be written is left. -/
def State.releasePages (s : State) (b i : Nat) (a : Actor) : State :=
  let r := s.record i
  let l := s.kvOf b i
  let s := (List.range l.length).foldl (fun s j => (s.attempt a (writeMap a r j 0)).2) s
  (l.foldl (fun s k => s.dropPage b k) s).setKv b i []

/-- A copy of 64 KiB from one page to another. -/
def copyPage (a : Actor) (from_ to_ : Word) : Op Unit := do
  let p ← unitPlace { a with svc := true } from_ .read
  let q ← unitPlace { a with svc := true } to_ .write
  let s ← getState
  match s.badWord (s.redirect p) 65536 with
  | some b => throw (.ecc (s.eccAt b from_ a.dom .scrub))
  | none => modState (fun s =>
      let s := s.scrub (s.redirect p) 65536 from_ a.dom
      s.storeAt (s.redirect q) (s.bytesAt (s.redirect p) 65536))

/-! ## Steps (R366–R371) -/

/-- The records in the former's slots that are ACTIVE. -/
def State.activeIn (s : State) (b : Nat) : List Nat :=
  ((s.former b).slots.map (·.2)).filter (fun i => Record.state (s.record i) == stACTIVE)

/-- Is `x` evicted before `y` (R368)? -/
def evictBefore (s : State) (x y : Nat) : Bool :=
  let r : Record := s.record x
  let t : Record := s.record y
  if r.prio ≠ t.prio then r.prio < t.prio
  else if r.stamp ≠ t.stamp then r.stamp < t.stamp
  else if r.pages ≠ t.pages then r.pages > t.pages
  else x > y

/-- The victim. -/
def State.victim (s : State) (b : Nat) : Option Nat := (s.activeIn b).foldl (fun best i => match best with
  | none => some i
  | some j => if evictBefore s i j then some i else some j) none

/-- Evict a record (R368). -/
def State.evict (s : State) (b i : Nat) (c : FCmd) : State :=
  let r := s.record i
  let s := s.releasePages b i (recordActor c.core c.svc r)
  let s := s.setRecord i (Record.setPages (Record.setKvlen (Record.setHold (Record.setState r stPARKED) false) 0) 0)
  s.updFormer b (fun f => { f with lens := f.lens.set (Record.slot r) 0, sample := f.sample.filter (fun p => p.2 ≠ i) })

/-- A free page, evicting until there is one; none when the needy record itself was evicted. -/
def State.needPage (s : State) (b i : Nat) (c : FCmd) : Nat → Option Nat × State
  | 0 => (none, s)
  | n + 1 => match s.freePage b with
    | some k => (some k, { s with tick := s.tick + 1 })
    | none => match s.victim b with
      | none => (none, s)
      | some v => if v = i then (none, s.evict b v c) else State.needPage (s.evict b v c) b i c n

/-- `n` free pages, each counted as held; when the needy record was evicted, none is. -/
def State.reserve (s : State) (b i : Nat) (c : FCmd) : Nat → List Nat → Option (List Nat) × State
  | 0, l => (some l, s)
  | n + 1, l => match s.needPage b i c 513 with
    | (some k, s) => State.reserve (s.holdPage b k) b i c n (l ++ [k])
    | (none, s) => (none, l.foldl (fun s k => s.dropPage b k) s)

/-- A request faults in the former's hands: FAULTED with a code (R371). -/
def State.faultRecord (s : State) (i : Nat) (code : BitVec 8) : State :=
  s.setRecord i (Record.setCode (Record.setState (s.record i) stFAULTED) code.toNat)

/-- A fresh page for each shared page among map entries `js` (R370), each counted as held; when the needy record was evicted,
none is. -/
def State.reserveCopies (s : State) (b i : Nat) (c : FCmd) : List Nat → List (Nat × Nat) → Option (List (Nat × Nat)) × State
  | [], l => (some l, s)
  | j :: t, l =>
    if (s.former b).holders.get 0 ((s.kvOf b i).getD j 0) ≤ 1 then State.reserveCopies s b i c t l
    else match s.needPage b i c 513 with
      | (some k, s) => State.reserveCopies (s.holdPage b k) b i c t (l ++ [(j, k)])
      | (none, s) => (none, l.foldl (fun s p => s.dropPage b p.2) s)

/-- The pages that a slot's length needs, and those that take the place of shared ones in its write range (R366, R370): the
record's pages with both, the growth and the copies; none when the record was evicted. -/
def State.slotPages (s : State) (b i : Nat) (c : FCmd) (top : Nat) (js : List Nat) : Option (List Nat × List (Nat × Nat)) × State :=
  let held := s.kvOf b i
  match s.reserve b i c (top - held.length) [] with
  | (none, s) => (none, s)
  | (some new, s) =>
    let s := s.setRecord i (Record.setPages (s.record i) (held.length + new.length))
    match s.reserveCopies b i c js [] with
    | (none, s) => (none, new.foldl (fun s k => s.dropPage b k) s)
    | (some copies, s) => (some (new, copies), s)

/-- What the former does to a request's map and pages at a step: it reads the entries of the write range, copies the shared
pages, and writes the entries that change (R365, R366, R370). -/
def fillMap (a : Actor) (cfg : FCfg) (r : Record) (held js new : List Nat) (copies : List (Nat × Nat)) : Op Unit := do
  js.forM (readMap a r)
  (List.range new.length).forM (fun j => do
    let x ← pageAddr a cfg (new.getD j 0)
    writeMap a r (held.length + j) x)
  copies.forM (fun p => do
    let x ← pageAddr a cfg (held.getD p.1 0)
    let y ← pageAddr a cfg p.2
    copyPage a x y
    writeMap a r p.1 y)

/-- Phase 4 for one slot's record. One whose map cannot be read or written takes no pages (R366). -/
def State.fillSlot (s : State) (b : Nat) (c : FCmd) (slot i : Nat) : State :=
  let cfg := s.fcfg b
  let r := s.record i
  if Record.state r ≠ stACTIVE then s
  else
    let kv := if Record.commit r = Record.kvlen r then Record.commit r - 1 else Record.kvlen r
    let r := Record.setKvlen r kv
    let s := s.setRecord i r
    let len := if cfg.chunk < Record.commit r - kv then cfg.chunk else Record.commit r - kv
    let top := (kv + len + cfg.tpp - 1) / cfg.tpp
    if kv + len > cfg.maxPages * cfg.tpp then s.faultRecord i cREQ
    else
      let held := s.kvOf b i
      let js := (List.range held.length).filter (fun j => len > 0 && kv / cfg.tpp ≤ j && j < top)
      match s.slotPages b i c top js with
      | (none, s) => s
      | (some (new, copies), s) =>
        match s.attempt (recordActor c.core c.svc r) (fillMap (recordActor c.core c.svc r) cfg r held js new copies) with
        | (0, s) =>
          let s := (copies.foldl (fun s p => s.dropPage b (held.getD p.1 0)) s).setKv b i
            (copies.foldl (fun l p => l.set p.1 p.2) held ++ new)
          s.updFormer b (fun f => { f with lens := f.lens.set slot len,
                                           sample := if kv + len = Record.commit r then f.sample ++ [(slot, i)] else f.sample })
        | (code, s) =>
          let s := (new ++ copies.map (·.2)).foldl (fun s k => s.dropPage b k) s
          (s.setRecord i (Record.setPages (s.record i) held.length)).faultRecord i code

/-- The former reads its records (R366, R391): an error of a primary alone is mended from the mirror, and a request whose
record is lost in both becomes FAULTED with ECC (22 R442). -/
def State.faultLost (s : State) (b : Nat) : State :=
  let mine := s.lostRecords.filter (fun i => Record.state (s.record i) != stFREE && Record.bf (s.record i) == b)
  let s := { s with injected := s.injected.filter (fun e => !(e.kind == 6 && mine.contains (e.word / 32))) }
  let s := mine.foldl (fun s i => s.faultRecord i cECC) s
  (s.former b).slots.foldl (fun s p => s.meetRecord p.2) s

/-- Phase 1: the records in slots advance. A record that was parked, or parked and queued again, does not. -/
def State.advanceSlots (s : State) (b : Nat) : State :=
  let f := s.former b
  f.slots.foldl (fun s p =>
    let r := s.record p.2
    let n := Record.kvlen r + f.lens.get 0 p.1
    let r' := if Record.rerun r ∨ Record.state r = stPARKED ∨ Record.state r = stQUEUED then r
      else Record.setKvlen r (if n < Record.commit r then n else Record.commit r)
    s.setRecord p.2 (Record.setRerun r' false)) s

/-- Does a record leave its slot at a step (R362, R366)? One parked and queued again does (R392). -/
def leavesSlot (r : Record) : Bool := r.state != stACTIVE

/-- Phase 2: the records that leave their slots. -/
def State.retireSlots (s : State) (b : Nat) (c : FCmd) : State :=
  ((s.former b).slots.filter (fun p => leavesSlot (s.record p.2))).foldl (fun s p =>
    let s := s.releasePages b p.2 (recordActor c.core c.svc (s.record p.2))
    let s := s.setRecord p.2 (Record.setSlotv (Record.setPages (s.record p.2) 0) false)
    s.updFormer b (fun f => { f with slots := f.slots.erase p.1 })) s

/-- Is `x` admitted before `y` (R367)? -/
def admitBefore (s : State) (x y : Nat) : Bool :=
  let r : Record := s.record x
  let t : Record := s.record y
  if r.prio ≠ t.prio then r.prio > t.prio
  else if r.state ≠ t.state then r.state = stPARKED
  else if r.stamp ≠ t.stamp then r.stamp < t.stamp
  else x < y

/-- The candidates of a former. -/
def State.candidates (s : State) (b : Nat) : List Nat :=
  s.liveRecords.filter (fun i =>
    let r : Record := s.record i
    r.bf == b && r.domain == (s.fcfg b).dom && !r.slotv && (r.state == stQUEUED || (r.state == stPARKED && !r.hold)))

/-- The candidate that comes first. -/
def State.firstCandidate (s : State) (b : Nat) : Option Nat := (s.candidates b).foldl (fun best i => match best with
  | none => some i
  | some j => if admitBefore s i j then some i else some j) none

/-- Phase 3: candidates enter the open slots in ascending order; the slots admitted. -/
def State.admitSlots (s : State) (b : Nat) : List Nat → List Nat × State
  | [] => ([], s)
  | slot :: t => match s.firstCandidate b with
    | none => ([], s)
    | some i =>
      let r := s.record i
      let s := s.setRecord i (Record.put (Record.setSlotv (Record.setState r stACTIVE) true) 37 9 slot)
      let s := s.updFormer b (fun f => { f with slots := f.slots.set slot i })
      let (l, s) := State.admitSlots s b t
      (slot :: l, s)

/-- A mask of 512 slots. -/
def slotMask (l : List Nat) : BitVec 512 := l.foldl (fun m k => m ||| (1#512 <<< k)) 0

/-- The manifest block (Table 18.4): `faulted` are the slots retired FAULTED with their records. -/
def State.manifest (s : State) (b : Nat) (step : Word) (admitted : List Nat) (faulted : List (Nat × Nat)) : List Byte :=
  let f := s.former b
  let all : Tbl Nat := f.slots ++ faulted
  let of := fun (k : Nat) => Tbl.find? all k
  let head := bytesOf step 8 ++ bytesOf (BitVec.ofNat 16 (s.fcfg b).slots) 2 ++ bytesOf (BitVec.ofNat 16 (s.activeIn b).length) 2 ++
    List.replicate 52 0
  let map := (List.range 512).flatMap (fun k => bytesOf (match of k with
    | some i => Record.handle (s.record i)
    | none => 0) 4)
  let len := (List.range 512).flatMap (fun k => bytesOf (BitVec.ofNat 16 (f.lens.get 0 k)) 2)
  let start := (List.range 512).flatMap (fun k => bytesOf (match of k with
    | some i => BitVec.ofNat 32 (Record.kvlen (s.record i))
    | none => 0) 4)
  head ++ map ++ len ++ bytesOf (slotMask (faulted.map (·.1))) 64 ++ bytesOf (slotMask (f.sample.map (·.1))) 64 ++
    bytesOf (slotMask admitted) 64 ++ start ++ List.replicate 2816 0

/-- The manifest item (Table 18.5). -/
def manifestItem (blk step : Word) (active admitted retired b : Nat) : Item :=
  dataItem (blk ++ step.setWidth 24 ++ BitVec.ofNat 10 active ++ BitVec.ofNat 10 admitted ++ BitVec.ofNat 10 retired ++ 0#8 ++
    BitVec.ofNat 2 b)

/-- Writes of a list of bytes by 16. -/
def writeBlock (a : Actor) (addr : Word) (bs : List Byte) : Op Unit :=
  (List.range (bs.length / 16)).forM (fun k =>
    unitWrite a (addr + word (16 * k)) 16 (natOfBytes ((bs.drop (16 * k)).take 16)) (2 ^ 128 - 1))

/-- One step of a former (R366). -/
def State.stepFormer (s : State) (b : Nat) (c : FCmd) : State :=
  let cfg := s.fcfg b
  let step := cfg.step + 1
  let blk := cfg.mbase + 8192 * (step &&& 1)
  let s := (s.faultLost b).advanceSlots b
  let leaving := (s.former b).slots.filter (fun p => leavesSlot (s.record p.2))
  let faulted := leaving.filter (fun p => Record.state (s.record p.2) == stFAULTED)
  let s := s.retireSlots b c
  let used := (s.former b).slots
  let opened := (List.range (if cfg.slots < 512 then cfg.slots else 512)).filter (fun k =>
    (Tbl.find? used k).isNone && (Tbl.find? faulted k).isNone)
  let (admitted, s) := s.admitSlots b opened
  let s := s.updFormer b (fun f => { f with lens := [], sample := [] })
  let s := (s.former b).slots.foldl (fun s p => s.fillSlot b c p.1 p.2) s
  let a : Actor := { core := c.core, dom := cfg.dom, svc := true }
  let s := (s.attempt a (writeBlock a blk (s.manifest b step admitted faulted))).2
  let s := s.devPut (formerReg b 6) step
  let s := s.updFormer b (fun f => { f with published := true })
  let s := s.pushFor c.core c.q (manifestItem blk step (s.activeIn b).length admitted.length leaving.length b)
  if cfg.pools.all (fun p => p == 0xFFFF) then s else s.postOnce 1 (.poolCoreMove (BitVec.ofNat 2 b))

/-- BFSTEP_EXECUTE (R366, R378): the oldest command is a step, and no merge is in progress. -/
def execBfstepExecute (bf : BitVec 2) (s : State) :=
  happen (
    let b := bf.toNat
    match (s.former b).queue with
    | c :: _ => match c.op with
      | .step => if (s.former b).merge.isSome then s
                 else if s.moving then s.postOnce 1 (.bfstepExecute bf)
                 else (s.stepFormer b c).popFormer b
      | _ => s
    | [] => s)

/-- R387. -/
def execBfstep (d a : Reg) (s : State) :=
  run (straight 4 (do
    let q ← completionQueue d
    let x ← rd a
    checkReq (fieldOf x 63 2 == 0)
    needFormer (fieldOf x 1 0)
    issueFormer (fieldOf x 1 0) q .step)) s

/-! ## Forks (R381, R386) -/

/-- The completion of a fork. -/
def forkItem (h : BitVec 32) (status : BitVec 8) : Item := dataItem (0#88 ++ status ++ h)

/-- Copy the penalty counts of a vocabulary. -/
def copyCounts (a : Actor) (from_ to_ : Word) (vocab : Nat) : Op Unit :=
  (List.range vocab).forM (fun v => do
    let n ← unitRead a (from_ + word (2 * v)) 2
    unitWrite a (to_ + word (2 * v)) 2 n 0xFFFF)

/-- The child of a fork as a record: the SET fields and SOFT of its parent, its own map, counts, seed and lineage. -/
def forkRecord (new p : Record) (parent : BitVec 32) (index : Nat) (kvmap penptr : Word) (now : Nat) : Record :=
  let m := setMask ||| softMask
  let r : Record := (new &&& ~~~m) ||| (p &&& m)
  let r := ((r.put 128 64 kvmap.toNat).put 448 64 penptr.toNat).put 320 64 (forkMix p.seed index).toNat
  let r := ((r.put 96 32 p.commit).put 544 32 parent.toNat).put 528 16 index
  let r := Record.setKvlen r (if p.kvlen < p.commit then p.kvlen else p.commit)
  (Record.setState r stQUEUED).put 576 64 now

/-- What the former does to the maps, pages and counts of a fork (R381): the parent's entries are read, the child's written. -/
def forkMaps (a pa : Actor) (cfg : FCfg) (r p : Record) (pages shared : List Nat) (last : Option Nat) (penptr : Word) : Op Unit := do
  (List.range shared.length).forM (fun j => do
    readMap pa p j
    let x ← pageAddr a cfg (shared.getD j 0)
    writeMap a r j x)
  match last with
  | none => pure ()
  | some k => do
    readMap pa p shared.length
    let x ← pageAddr a cfg (pages.getD shared.length 0)
    let y ← pageAddr a cfg k
    copyPage a x y
    writeMap a r shared.length y
  if p.penptr ≠ 0 then copyCounts a p.penptr penptr cfg.vocab

/-- A fork at the parent's point (R381). An empty pool refuses it, whether or not it needs a page (R381, R393). A parent that has become FREE meanwhile leaves nothing to fork: the status is
open. -/
def State.fork (s : State) (b : Nat) (c : FCmd) (parent : BitVec 32) (index : Nat) (kvmap penptr : Word) : State :=
  match s.validRecord parent c.dom c.svc with
  | none => s.pushFor c.core c.q (forkItem 0 (s.openDetail.setWidth 8))
  | some (pi, p) => match s.freeRecord with
    | none => s.pushFor c.core c.q (forkItem 0 2)
    | some i =>
      let cfg := s.fcfg b
      let r := forkRecord (s.newRecord i (Record.domain p)) p parent index kvmap penptr s.time
      let whole := Record.kvlen r / cfg.tpp
      let part := decide (Record.kvlen r % cfg.tpp ≠ 0)
      let pages := s.kvOf b pi
      match s.freePage b with
      | none => s.pushFor c.core c.q (forkItem 0 3)
      | some k =>
        let s := { s with tick := s.tick + 1 }
        let a := recordActor c.core c.svc r
        let shared := pages.take whole
        let own := shared ++ (if part then [k] else [])
        let s := own.foldl (fun s k => s.holdPage b k) s
        match s.attempt a (forkMaps a (recordActor c.core c.svc p) cfg r p pages shared (if part then some k else none) penptr) with
        | (0, s) =>
          let s := (s.setKv b i own).setRecord i (Record.setPages r own.length)
          s.pushFor c.core c.q (forkItem (Record.handle r) 0)
        | (code, s) =>
          -- only the child is affected (R365, R371)
          let s := own.foldl (fun s k => s.dropPage b k) s
          let s := s.setRecord i (Record.setCode (Record.setState (Record.setKvlen r 0) stFAULTED) code.toNat)
          s.pushFor c.core c.q (forkItem (Record.handle r) 0)

/-- RQFORK_EXECUTE (R381). -/
def execRqforkExecute (bf : BitVec 2) (s : State) :=
  happen (
    let b := bf.toNat
    match (s.former b).queue with
    | c :: _ => match c.op with
      | .fork parent index kvmap penptr =>
        if s.moving then s.postOnce 1 (.rqforkExecute bf)
        else (s.fork b c parent index kvmap penptr).popFormer b
      | _ => s
    | [] => s)

/-- R386. -/
def execRqfork (d a b : Reg) (s : State) :=
  run (straight 4 (do
    let q ← completionQueue d
    let x ← rd a
    let addr ← rd b
    let (_, r) ← useRecord ((x.setWidth 32 : BitVec 32).setWidth 64)
    checkReq (fieldOf x 63 48 == 0)
    needFormer r.bf
    let bs ← loadRange addr 16 16
    let v := natOfBytes bs
    issueFormer r.bf q (.fork (x.setWidth 32) (fieldOf x 47 32) (word v) (word (v / 2 ^ 64))))) s

/-! ## Pools (R382) -/

/-- The cores of a role in a cluster. -/
def State.coresIn (s : State) (r k : Nat) : List CoreId := (s.role r).cores.filter (fun c => clusterOf c == k)

/-- The items on a pool's queues in a cluster that no instance owns. -/
def State.poolItems (s : State) (r k : Nat) : Nat :=
  ((s.queues.filter (fun q => q.1 < 16384 && qcluster q.1 == k && q.2.st == .active && q.2.role == r)).map (fun q =>
    (q.2.items.filter (fun i => i.owner.isNone)).length + q.2.spill.length)).sum

/-- The pair and cluster that R382 chooses: to pool X, from pool Y, the core. Clusters in ascending order. -/
def State.poolChoice (s : State) (b : Nat) : Option (CoreId × Nat × Nat) :=
  let cfg := s.fcfg b
  let ps := cfg.pools.filter (fun p => p != 0xFFFF)
  (ps.flatMap (fun x => ps.flatMap (fun y => (List.range 32).map (fun k => (x, y, k))))).findSome? (fun t =>
    let nx := (s.coresIn t.1 t.2.2).length
    let ys := s.coresIn t.2.1 t.2.2
    if t.1 ≠ t.2.1 ∧ nx > 0 ∧ ys.length ≥ 2 ∧
        s.poolItems t.1 t.2.2 * ys.length ≥ 2 * s.poolItems t.2.1 t.2.2 * nx + cfg.thr * nx * ys.length then
      (ys.foldl (fun best c => match best with
        | none => some c
        | some d => if (s.core c).index > (s.core d).index then some c else some d) none).map (fun c => (c, t.2.1, t.1))
    else none)

/-- Change the consumers of a role's plain queues in a cluster. -/
def State.setConsumers (s : State) (r k : Nat) (f : List CoreId → List CoreId) : State :=
  { s with queues := s.queues.map (fun q =>
      (q.1, if q.1 < 16384 ∧ qcluster q.1 = k ∧ q.2.role = r ∧ !q.2.mcast then { q.2 with consumers := f q.2.consumers } else q.2)) }

/-- A core owns and holds nothing of a role: no instance of it, and no item reserved to it on the role's queues. -/
def State.coreClear (s : State) (c : CoreId) (r : Nat) : Bool :=
  let x := s.core c
  (x.cond == .idle || x.inst.role != r) && !x.held.any (fun h => h.inst.role == r) &&
  !s.queues.any (fun q => q.2.role == r && q.2.items.any (fun i => i.core == c))

/-- The move is done (R382): rows, membership, index and s16–s31. -/
def State.joinPool (s : State) (c : CoreId) (y x : Nat) : State :=
  let bound := s.boundBy c
  let ry := s.role y
  let rx := s.role x
  let next := (rx.cores.map (fun d => (s.core d).index + 1)).foldl (fun m n => if m < n then n else m) 0
  let s := s.setRole y { ry with cores := ry.cores.filter (fun d => d ≠ c) }
  let s := s.setRole x { rx with cores := rx.cores ++ [c] }
  let s := s.updCore c (fun k => { k with
    role := some x, index := next, joining := none,
    rows := (k.pooled.get ([], []) x).1.map (fun r => (r.1, { r.2 with en := true })),
    handles := (k.pooled.get ([], []) x).2,
    pooled := (k.pooled.erase x).set y (k.rows.map (fun r => (r.1, { r.2 with en := false })), k.handles),
    regs := Vector.ofFn (fun i : Fin 32 => if i.val < 16 then k.regs[i.val] else 0) })
  (s.setConsumers x (clusterOf c) (fun l => l ++ [c])).freeAll bound

/-- POOL_CORE_MOVE (R382): the choice after a step, and the move once the core is clear. -/
def execPoolCoreMove (bf : BitVec 2) (s : State) :=
  happen (
    let b := bf.toNat
    match (s.former b).moving with
    | some (c, y, x) =>
      if s.coreClear c y then (s.joinPool c y x).updFormer b (fun f => { f with moving := none })
      else s.postOnce 1024 (.poolCoreMove bf)
    | none => match s.poolChoice b with
      | none => s
      | some (c, y, x) =>
        let s := s.setConsumers y (clusterOf c) (fun l => l.filter (fun d => d ≠ c))
        let s := s.updCore c (fun k => { k with joining := some x })
        (s.updFormer b (fun f => { f with moving := some (c, y, x) })).postOnce 1 (.poolCoreMove bf))

end Sys2Proof.Machine
end

