-- ==== Sys2Proof/Machine/Pages.lean ====
section
/-!
DEFINITION. The pages that the native services hand out (20 R413): frames, leaves, virtual ranges, and the invalidation
that goes with taking a page away (08 R183).
-/
namespace Sys2Proof.Machine

/-! ## Frames of 64 KiB (08 R170) -/

abbrev frameSize : Nat := 65536
/-- Frames of the package's 1 TiB of HBM (01). -/
abbrev frameCount : Nat := 2 ^ 24

/-- The listed bytes of a range, by offset. -/
def Memory.cellsIn (m : Memory) (p n : Nat) : List Host.Cell :=
  (m.filter (fun c => p ≤ c.1 && c.1 < p + n)).map (fun c => (c.1 - p, c.2))

/-- Every byte of a range zero. -/
def Memory.clear (m : Memory) (p n : Nat) : Memory := m.filter (fun c => !(p ≤ c.1 && c.1 < p + n))

/-- The range holds these listed bytes, and zeros elsewhere. -/
def Memory.restore (m : Memory) (p n : Nat) (cells : List Host.Cell) : Memory :=
  cells.foldl (fun m c => if c.1 < n then Memory.set m (p + c.1) c.2 else m) (Memory.clear m p n)

/-- A frame that no service has handed out and that holds nothing. -/
def State.frameFree (s : State) (f : Nat) : Bool :=
  !s.usedFrames.contains f && !s.mem.any (fun c => c.1 / frameSize == f)

/-- A free frame: which one is open (log 9). -/
def State.takeFrame (s : State) : Option (Nat × State) :=
  let start := Config.frameChoice s.tick
  match ((List.range (s.usedFrames.length + s.mem.length + 1)).map (fun i => (start + i) % frameCount)).find? (fun f => s.frameFree f) with
  | some f => some (f, { s with usedFrames := s.usedFrames ++ [f] })
  | none => none

/-- A frame is free again, and reads zero (log 61). -/
def State.giveFrame (s : State) (f : Nat) : State :=
  { s with usedFrames := s.usedFrames.filter (· ≠ f), mem := Memory.clear s.mem (f * frameSize) frameSize }

/-! ## Leaves (08 R171) -/

/-- Leaf bits: code pages are execute and read only (02 R28); pinned pages (R171 PIN). -/
abbrev leafCODE : Word := 0x37
abbrev leafPINNED : Word := 0x2F
abbrev leafPLAIN : Word := 0x0F

/-- The table that a pointer at `a` names, made when there is none; nothing when something else stands there. -/
def State.tableAt (s : State) (a : Nat) : Option (Nat × State) :=
  let e := word (s.peek (s.redirect a) 8)
  if pteV e then (if pteLeaf e then none else some (ptePA e, s))
  else match s.takeFrame with
    | some (f, s) => some (f * frameSize, s.storeNat (s.redirect a) 8 (f * frameSize + 1))
    | none => none

/-- Where the level-3 entry of a virtual page stands, its tables made as needed. -/
def State.leafSlot (s : State) (dom : BitVec 12) (page : Nat) : Option (Nat × State) :=
  let root := s.devGet (rootReg dom)
  if !root.getLsbD 0 then none
  else match s.tableAt (fieldOf root 39 13 * 8192 + 8 * (page / 2 ^ 22 % 1024)) with
    | none => none
    | some (t2, s) => match s.tableAt (t2 + 8 * (page / 2 ^ 9 % 8192)) with
      | none => none
      | some (t3, s) => some (t3 + 8 * (page % 512), s)

/-- Map a virtual page to a frame. -/
def State.mapTo (s : State) (dom : BitVec 12) (page frame : Nat) (flags : Word) : Option State :=
  (s.leafSlot dom page).map (fun a => a.2.storeNat (a.2.redirect a.1) 8 (word (frame * frameSize) ||| flags).toNat)

/-- Map a virtual page to a fresh frame. -/
def State.mapPage (s : State) (dom : BitVec 12) (page : Nat) (flags : Word) : Option State :=
  match s.takeFrame with
  | some (f, s) => s.mapTo dom page f flags
  | none => none

/-- Map a list of pages. -/
def State.mapPages (s : State) (dom : BitVec 12) (pages : List Nat) (flags : Word) : Option State :=
  pages.foldl (fun s p => s.bind (fun s => s.mapPage dom p flags)) (some s)

/-- The frame of a mapped page of 64 KiB, and its leaf's place; a page of 32 MiB has none here. -/
def State.pageFrame (s : State) (dom : BitVec 12) (page : Nat) : Option (Nat × Nat) :=
  match s.walk dom (page * frameSize) with
  | .leaf e 3 at_ => some (ptePA e / frameSize, at_)
  | _ => none

/-- Is a virtual page mapped? -/
def State.pageMapped (s : State) (dom : BitVec 12) (page : Nat) : Bool :=
  match s.walk dom (page * frameSize) with
  | .leaf _ _ _ => true
  | .stopped _ _ => false

/-- The virtual pages that a range touches. -/
def pagesOf (va n : Nat) : List Nat := if n = 0 then [] else (List.range ((va % frameSize + n + frameSize - 1) / frameSize)).map (fun i => va / frameSize + i)

/-! ## Invalidation by a service (08 R183) -/

/-- The accesses issued under a domain's translations are applied, so that a service may take one away (08 R183); none while
one cannot be. -/
def State.settledDomain (s : State) (dom : BitVec 12) : Option State :=
  let s := s.drainDomain dom
  if s.domainBusy dom s.nextId then none else some s

/-- The steps of R183 for a page, or for a whole domain, complete: accesses under the older translation are applied. -/
def State.invalNow (s : State) (dom : BitVec 12) (page : Option Nat) : State :=
  let s := s.drainDomain dom
  let s := s.meetPages (fun w => match page with
    | some p => watchCovers w dom (p * frameSize)
    | none => w.1 == dom)
  { s.dropTlb (fun e => match page with
      | some p => e.covers dom (p * frameSize)
      | none => e.dom == dom) with
    gens := s.gens.set dom.toNat (s.gen dom + 1)
    redirects := s.redirects.filter (fun r => !(r.dom == dom && (match page with
      | some p => if r.large then r.va.toNat / 2 ^ 25 == p / 512 else r.va.toNat / frameSize == p
      | none => true))) }

/-- Unmap a page of 64 KiB: its leaf is cleared, its translations are invalidated, and its frame is free. -/
def State.unmapPage (s : State) (dom : BitVec 12) (page : Nat) : State :=
  match s.pageFrame dom page with
  | some (f, at_) => (((s.storeNat (s.redirect at_) 8 0).invalNow dom (some page))).giveFrame f
  | none => s

/-! ## Virtual ranges (20 R413) -/

/-- The ranges that the allocator holds in a domain, as pages (first, count). -/
def State.rangesOf (s : State) (dom : BitVec 12) : List (Nat × Nat) := (s.mapped.filter (fun r => r.1 == dom)).map (·.2)

/-- Are `n` pages from `p` free in a domain, above the 2 GiB of code and data (02 R49)? -/
def State.rangeFree (s : State) (dom : BitVec 12) (p n : Nat) : Bool :=
  32768 ≤ p && p + n ≤ 2 ^ 32 && !(s.rangesOf dom).any (fun r => r.1 < p + n && p < r.1 + r.2) &&
  (List.range n).all (fun i => !s.pageMapped dom (p + i))

/-- A free virtual range of `n` pages: which one is open (log 9). -/
def State.takeRange (s : State) (dom : BitVec 12) (n : Nat) : Option (Nat × State) :=
  let start := 32768 + Config.virtualChoice s.tick % (2 ^ 32 - 32768)
  match (start :: 32768 :: (s.rangesOf dom).map (fun r => r.1 + r.2)).find? (fun p => s.rangeFree dom p n) with
  | some p => some (p, { s with mapped := s.mapped ++ [(dom, p, n)] })
  | none => none

/-- A new range with its pages mapped to frames that read zero; pinned or not. -/
def State.newRange (s : State) (dom : BitVec 12) (n : Nat) (pin : Bool) : Option (Nat × State) :=
  match s.takeRange dom n with
  | some (p, s) => (s.mapPages dom ((List.range n).map (p + ·)) (if pin then leafPINNED else leafPLAIN)).map (fun s => (p, s))
  | none => none

/-- Pages leave their range, and are unmapped; none when they are not pages of one range. -/
def State.dropRange (s : State) (dom : BitVec 12) (p n : Nat) : Option State :=
  match (s.rangesOf dom).find? (fun r => r.1 ≤ p && p + n ≤ r.1 + r.2) with
  | none => none
  | some r =>
    let rest := ([(r.1, p - r.1), (p + n, r.1 + r.2 - (p + n))] : List (Nat × Nat)).filter (fun x => x.2 ≠ 0)
    let s := { s with mapped := s.mapped.filter (fun x => !(x.1 == dom && x.2 == r)) ++ rest.map (fun x => (dom, x)) }
    some ((List.range n).foldl (fun s i => s.unmapPage dom (p + i)) s)

/-- Write bytes at a virtual address whose pages are mapped, page by page. -/
def State.writeVirt (s : State) (dom : BitVec 12) (va : Nat) (bs : List Byte) : State :=
  (pagesOf va bs.length).foldl (fun s p =>
    match s.pageFrame dom p with
    | some (f, _) =>
      let lo := if p * frameSize < va then va - p * frameSize else 0
      let from_ := p * frameSize + lo - va
      s.storeAt (s.redirect (f * frameSize + lo)) ((bs.drop from_).take (frameSize - lo))
    | none => s) s

end Sys2Proof.Machine
end

