-- ==== Sys2Proof/Machine/Placement.lean ====
section
/-!
DEFINITION. Where an image's parts go (20 R407–R410): cores, queues, groups, tensor entries, banks, tiles, router slots,
pages; and what the loader writes into a core.
-/
namespace Sys2Proof.Machine

/-! ## Cores (R409) -/

/-- A role as placed: its number, its record, and its cores in the order of their indices, with their weights. -/
structure Placed where
  num   : Nat
  role  : RoleRec
  cores : List (CoreId × Nat)
  deriving DecidableEq, Repr

abbrev Placed.ids (p : Placed) : List CoreId := p.cores.map (·.1)

/-- What a load has allotted so far: the state, the roles, the queues by image index and key, the groups, the INDEX of
each tensor, the outputs of router slots, and the calderas. -/
structure Plan where
  s       : State
  roles   : List Placed := []
  queues  : List (Nat × QKey) := []
  groups  : List Nat := []
  tensors : List Nat := []
  slots   : List (Nat × BitVec 6) := []
  ranges  : List (Nat × Nat) := []

/-- A weight of 0 means 1. -/
def weightOf1 (w : Nat) : Nat := if w = 0 then 1 else w

/-- The cores of the placement words, in order. -/
def RoleRec.explicit (r : RoleRec) : List (CoreId × Nat) :=
  r.places.flatMap (fun p => (List.range p.count).map (fun i => (p.die * 4096 + p.cluster * 256 + p.first + i, weightOf1 p.weight)))

/-- The cores that the loader picks with AUTO: the lowest of the first cluster with enough, else across clusters. -/
def autoCores (free : CoreId → Bool) (n : Nat) : Option (List CoreId) :=
  let per := (List.range 32).map (fun k => ((List.range 256).map (fun i => k / 16 * 4096 + k % 16 * 256 + i)).filter free)
  match per.find? (fun l => n ≤ l.length) with
  | some l => some (l.take n)
  | none => if n ≤ per.flatten.length then some (per.flatten.take n) else none

/-- The cores of a role, none when they cannot be placed. -/
def RoleRec.choose (r : RoleRec) (free : CoreId → Bool) : Option (List (CoreId × Nat)) :=
  match r.auto with
  | some w => (autoCores free r.count).map (fun l => l.map (fun c => (c, weightOf1 w)))
  | none =>
    let l := r.explicit
    if l.length = r.count ∧ distinct (l.map (·.1)) ∧ l.all (fun c => free c.1) then some l else none

/-- The lowest role number that is free. -/
def lowestFree (used : List Nat) : Nat := ((List.range (used.length + 1)).find? (fun n => !used.contains n)).getD 0

/-- An array that the power service has marked unusable is not allotted, nor a core that no understudy replaces (22
R446, R447). -/
def State.usable (s : State) (kind n : Nat) : Bool := !s.unusable.contains (kind, n)

/-- Place every role of an image. -/
def State.placeRoles (s : State) (img : Image) : Option (List Placed) :=
  img.roles.foldl (fun acc r => acc.bind (fun l =>
    let taken := l.flatMap Placed.ids
    let num := lowestFree (s.roles.map (·.1) ++ l.map (·.num))
    if num > 65535 then none
    else (r.choose (fun c => (s.core c).role.isNone && !taken.contains c && s.usable 0 (s.coreArray c))).map (fun cs => l ++ [{ num := num, role := r, cores := cs }]))) (some [])

/-- The cores of roles of an image, in the order of the roles. -/
def coresOf (roles : List Placed) (l : List Nat) : List CoreId := l.flatMap (fun j => ((roles[j]?).map Placed.ids).getD [])

/-- The clusters of a list of cores, ascending. -/
def clustersOf (cs : List CoreId) : List ClusterId := (List.range 32).filter (fun k => cs.any (fun c => clusterOf c == k))

/-- The ensembles of a list of cores, ascending. -/
def enssOf (cs : List CoreId) : List EnsId := ((cs.map ensOf).eraseDups).mergeSort (· ≤ ·)

/-- The cores that carry a role: its own, or for a pool role every core of the image's pool roles (18 R382). -/
def membersOf (roles : List Placed) (p : Placed) : List CoreId :=
  if p.role.pool = 0 then p.ids else (roles.filter (fun q => q.role.pool ≠ 0)).flatMap Placed.ids

/-- A multicast queue's group lies in one cluster (06 R126). -/
def multicastOk (img : Image) (roles : List Placed) : Bool :=
  img.queues.all (fun d => let x := imageQueue d 0
    !x.2.1 || (clustersOf (coresOf roles (((img.groups[x.2.2]?).map (·.2)).getD []))).length ≤ 1)

/-! ## Rates (R408) -/

def ratesOk (img : Image) : Bool :=
  (List.range img.queues.length).all (fun i =>
    let x := (imageQueue (img.queues.getD i 0) 0).1
    match img.rates.filter (fun r => r.1 == i) with
    | [] => x.elastic
    | [r] => !x.elastic && 1 ≤ r.2.1 && r.2.1 == r.2.2.1 && 1 ≤ r.2.2.2 && r.2.2.2 ≤ x.cap
    | _ => false)

/-! ## Groups, queues, tensors (09 R213; 14 R321; 12 R267) -/

/-- Groups get the lowest free indices; a core belongs to at most four. -/
def Plan.addGroups (p : Plan) (img : Image) (load : Nat) : Option Plan :=
  let add := fun (p : Plan) (g : Nat × List Nat) =>
    match (List.range 256).find? (fun i => !(p.s.group i).valid) with
    | none => none
    | some i =>
      let cs := coresOf p.roles g.2
      some { p with groups := p.groups ++ [i], s := p.s.setGroup i { valid := true, stagger := g.1, members := cs.length, cores := cs, load := load } }
  let full := fun (p : Plan) => (p.roles.flatMap Placed.ids).any (fun c => (p.groups.filter (fun g => (p.s.group g).cores.contains c)).length > 4)
  (img.groups.foldl (fun p g => p.bind (fun p => add p g)) (some p)).filter (fun p => !full p)

/-- One queue in one cluster, with its caldera pinned (06 R132, R133). A domain without a root gets none: DOMAIN comes
later. -/
def Plan.addQueue (p : Plan) (i : Nat) (x : Queue) (k : ClusterId) (cs : List CoreId) : Option Plan :=
  let cal : Option (Word × List (Nat × Nat) × State) :=
    if x.elastic ∧ (p.s.devGet (rootReg x.dom)).getLsbD 0 then
      let n := (16 * x.g * x.calItems + frameSize - 1) / frameSize
      (p.s.newRange x.dom n true).map (fun r => (word (r.1 * frameSize), [(r.1, n)], r.2))
    else some (0, [], p.s)
  match cal with
  | none => none
  | some (base, rs, s) =>
    if !s.usable 3 k then none
    else match s.createQueue k { x with consumers := cs, calBase := base } with
      | .ok (q, s) => some { p with s := s, queues := p.queues ++ [(i, q)], ranges := p.ranges ++ rs }
      | .error _ => none

/-- Every queue of an image in each cluster of its consumer. -/
def Plan.addQueues (p : Plan) (img : Image) (dom : BitVec 12) (load : Nat) : Option Plan :=
  (List.range img.queues.length).foldl (fun p i => p.bind (fun p =>
    let (x, mcast, who) := imageQueue (img.queues.getD i 0) dom
    let cs := if mcast then coresOf p.roles (((img.groups[who]?).map (·.2)).getD []) else coresOf p.roles [who]
    let x := { x with load := some load, group := if mcast then p.groups.getD who 0 else 0, role := ((p.roles[if mcast then fieldOf (img.queues.getD i 0) 79 64 else who]?).map (·.num)).getD 0 }
    (clustersOf cs).foldl (fun p k => p.bind (fun p => p.addQueue i x k (cs.filter (fun c => clusterOf c == k)))) (some p))) (some p)

/-- Each tensor at one INDEX in every cluster of its role. -/
def Plan.addTensors (p : Plan) (img : Image) (dom : BitVec 12) : Option Plan :=
  img.tensors.foldl (fun p t => p.bind (fun p =>
    let role := p.roles[t.1]?
    let ks := clustersOf ((role.map (membersOf p.roles)).getD [])
    match (List.range 1024).find? (fun i => ks.all (fun k => !(p.s.tensor (k * 1024 + i)).taken)) with
    | none => none
    | some i => some { p with tensors := p.tensors ++ [i], s := ks.foldl (fun s k =>
        s.setTensor (k * 1024 + i) { taken := true, owner := dom, role := role.map (·.num), entry := t.2 }) p.s })) (some p)

/-! ## Banks and tiles (12 R269, R270) -/

/-- The roles that a core carries. -/
def Core.carries (x : Core) : List Nat := x.role.toList ++ x.pooled.map (·.1)

/-- The live roles of an ensemble. -/
def State.rolesIn (s : State) (e : EnsId) : List Nat := ((List.range 8).flatMap (fun i => (s.core (8 * e + i)).carries)).eraseDups

/-- No physical bank of an ensemble is allotted to two roles; an unusable array is allotted to none. `except` is a role
that is being recast. -/
def banksOk (s : State) (roles : List Placed) (except : Option Nat) : Bool :=
  roles.all (fun p => p.role.banks == 0 || (enssOf (membersOf roles p)).all (fun e =>
    s.usable 4 e &&
    (s.rolesIn e).all (fun r => some r == except || (s.role r).banks &&& p.role.banks == 0) &&
    roles.all (fun q => q.num == p.num || q.role.banks &&& p.role.banks == 0 || !(enssOf (membersOf roles q)).contains e)))

/-- Give each used accumulator name of a list of cores the next free tile of its ensemble, set to +0; none when an
ensemble needs more than eight. -/
def State.mapTiles (s : State) (cs : List (CoreId × List Nat)) : Option State :=
  cs.foldl (fun s c => s.bind (fun s =>
    c.2.foldl (fun s a => s.bind (fun s =>
      let e := ensOf c.1
      let used := (List.range 8).flatMap (fun i => (s.core (8 * e + i)).accs.map (·.2))
      match (List.range 8).find? (fun t => !used.contains t) with
      | none => none
      | some t => some ((s.updCore c.1 (fun x => { x with accs := x.accs.set a t })).updEns e (fun y => { y with tiles := y.tiles.erase t })))) (some s))) (some s)

/-- The cores that carry a live role, ascending. -/
def State.carriers (s : State) (role : Nat) : List CoreId :=
  ((s.cores.filter (fun c => c.2.carries.contains role)).map (·.1)).mergeSort (· ≤ ·)

/-- The tiles of a role that a recast gives other names: on every core that carries it, the names of its other roles keep their
tiles, and each name of the new version has a tile set to +0 (R270). -/
def State.recastTiles (s : State) (role : Nat) (names : List Nat) : Option State :=
  let cs := s.carriers role
  let s := cs.foldl (fun s c => s.updCore c (fun x => { x with accs := x.accs.filter (fun a =>
    x.carries.any (fun r => r != role && (s.role r).accs.contains a.1)) })) s
  (s.mapTiles (cs.map (fun c => (c, names.filter (fun a => !(s.core c).accs.any (fun x => x.1 == a)))))).map (fun s =>
    cs.foldl (fun s c => names.foldl (fun s a => match Tbl.find? (s.core c).accs a with
      | some t => s.updEns (ensOf c) (fun y => { y with tiles := y.tiles.erase t })
      | none => s) s) s)

/-- The accumulator names that each core needs, cores ascending. -/
def tileNeeds (roles : List Placed) : List (CoreId × List Nat) :=
  ((roles.flatMap Placed.ids).mergeSort (· ≤ ·)).map (fun c =>
    let used := (roles.filter (fun p => (membersOf roles p).contains c)).flatMap (fun p => p.role.accs)
    (c, (List.range 8).filter (fun a => used.contains a)))

/-! ## Router slots (15 R347–R349) -/

/-- Output k of a slot entry. -/
def slotOut (e : Word) (k : Nat) : Nat := fieldOf e (8 * k + 7) (8 * k)
abbrev outKind (b : Nat) : Nat := b / 64
abbrev outInput (b : Nat) : Nat := b / 8 % 8
abbrev outClass (b : Nat) : Nat := b % 8

/-- Does a router have an EDGE port: the rim of the mesh of four by four (log 63)? -/
def hasEdge (router : Nat) : Bool := let k := router % 16
  k % 4 == 0 || k % 4 == 3 || k / 4 == 0 || k / 4 == 3

/-- One entry keeps the rules of R349. -/
def slotEntryOk (router : Nat) (e : Word) : Bool :=
  let outs := (List.range 6).map (fun k => (k, slotOut e k))
  let circuits := outs.filter (fun o => outKind o.2 == 1)
  outs.all (fun o =>
    (match outKind o.2 with
      | 0 => o.2 == 0
      | 1 => outInput o.2 ≤ 5 && outInput o.2 != o.1 && outClass o.2 == 0 && (outInput o.2 != 5 || hasEdge router)
      | 2 => outInput o.2 == 0 && outClass o.2 ≤ 2
      | _ => false) && (o.1 != 5 || o.2 == 0 || hasEdge router)) &&
  distinct (circuits.map (fun o => outInput o.2))

/-- The entry of a router's slot. -/
def State.slot (s : State) (router n : Nat) : Word := s.slots.get 0 (router * 256 + n)

/-- Eight CLASS slots for each class at every output of a router. -/
def State.classesOk (s : State) (router : Nat) : Bool :=
  (List.range 6).all (fun k => (k == 5 && !hasEdge router) || (List.range 3).all (fun c =>
    8 ≤ ((List.range 256).filter (fun n => let b := slotOut (s.slot router n) k
      outKind b == 2 && outClass b == c)).length))

/-- Set a router's slot; the outputs that are no longer open belong to the load. -/
def Plan.setSlot (p : Plan) (router n : Nat) (e : Word) : Plan :=
  let mine := (List.range 6).foldl (fun (m : BitVec 6) k => if slotOut e k ≠ 0 ∧ slotOut e k ≠ slotOut (p.s.slot router n) k then m ||| (1#6 <<< k) else m) 0
  { p with s := { p.s with slots := p.s.slots.set (router * 256 + n) e }, slots := p.slots ++ [(router * 256 + n, mine)] }

/-- The slots that the image names: none conflicts with a live circuit. -/
def Plan.addSlots (p : Plan) (img : Image) : Option Plan :=
  img.slots.foldl (fun p r => p.bind (fun p =>
    r.2.foldl (fun p x => p.bind (fun p =>
      let live := p.s.slot r.1 x.1
      let clash := (List.range 6).any (fun k => outKind (slotOut live k) == 1 && slotOut x.2 k != slotOut live k)
      if !slotEntryOk r.1 x.2 ∨ clash then none else some (p.setSlot r.1 x.1 x.2))) (some p))) (some p)

/-- The router beyond an output, and the port by which it is entered (log 63): north 1, east 2, south 3, west 4. -/
def neighbour (router out : Nat) : Option (Nat × Nat) :=
  let k := router % 16
  match out with
  | 1 => if k / 4 = 0 then none else some (router - 4, 3)
  | 2 => if k % 4 = 3 then none else some (router + 1, 4)
  | 3 => if k / 4 = 3 then none else some (router + 4, 1)
  | 4 => if k % 4 = 0 then none else some (router - 1, 2)
  | _ => none

/-- Does the circuit that enters a router by a port in a slot lead to the LOCAL output of the router `to`? -/
def State.circuitTo (s : State) (to_ : Nat) : Nat → Nat → Nat → Nat → Bool
  | 0, _, _, _ => false
  | fuel + 1, router, port, n =>
    match (List.range 6).find? (fun k => let b := slotOut (s.slot router n) k
      outKind b == 1 && outInput b == port) with
    | some 0 => router == to_
    | some k => match neighbour router k with
      | some (r, i) => State.circuitTo s to_ fuel r i ((n + 2) % 256)
      | none => false
    | none => false

/-- Is there a circuit from a cluster to another of its die? -/
def State.hasCircuit (s : State) (from_ to_ : ClusterId) : Bool := (List.range 256).any (fun n => s.circuitTo to_ 16 from_ 0 n)

/-- The outputs on the way from a router to another of its die: along the row, then along the column (log 63). -/
def wayTo (to_ : Nat) : Nat → Nat → List (Nat × Nat)
  | 0, _ => []
  | fuel + 1, router =>
    if router = to_ then [(router, 0)]
    else
      let out := if router % 4 < to_ % 4 then 2 else if to_ % 4 < router % 4 then 4 else if router % 16 < to_ % 16 then 3 else 1
      (router, out) :: (match neighbour router out with
        | some (r, _) => wayTo to_ fuel r
        | none => [])

/-- The hops of a circuit that starts in slot n: router, slot, output and input. -/
def hopsFrom (way : List (Nat × Nat)) (n : Nat) : List (Nat × Nat × Nat × Nat) :=
  (List.range way.length).map (fun i =>
    let h := way.getD i (0, 0)
    let input := if i = 0 then 0 else match neighbour (way.getD (i - 1) (0, 0)).1 (way.getD (i - 1) (0, 0)).2 with
      | some x => x.2
      | none => 0
    (h.1, (n + 2 * i) % 256, h.2, input))

/-- The loader's own circuit for a role placed with AUTO: the first slot in which every hop is open (R405). -/
def Plan.addCircuit (p : Plan) (from_ to_ : ClusterId) : Option Plan :=
  let way := wayTo to_ 16 from_
  let open_ := fun (h : Nat × Nat × Nat × Nat) => let e := p.s.slot h.1 h.2.1
    slotOut e h.2.2.1 == 0 && (List.range 6).all (fun k => outKind (slotOut e k) != 1 || outInput (slotOut e k) != h.2.2.2)
  match (List.range 256).find? (fun n => (hopsFrom way n).all open_) with
  | none => none
  | some n => some ((hopsFrom way n).foldl (fun p h =>
      p.setSlot h.1 h.2.1 (p.s.slot h.1 h.2.1 ||| word ((64 + 8 * h.2.2.2) * 256 ^ h.2.2.1))) p)

/-- CLASS slots that a router lacks, in its open slots from the last down. -/
def Plan.addClasses (p : Plan) (router : Nat) : Plan :=
  (List.range 24).foldl (fun p i =>
    let n := 255 - i
    let e := p.s.slot router n
    let e' := (List.range 6).foldl (fun (e : Word) k => if slotOut e k = 0 ∧ (k ≠ 5 ∨ hasEdge router) then e ||| word ((128 + i % 3) * 256 ^ k) else e) e
    p.setSlot router n e') p

/-- The copy of a queue that a core maps (14 R321). -/
def copyFor (qs : List (Nat × QKey)) (i : Nat) (c : CoreId) : Option QKey :=
  let mine := (qs.filter (fun q => q.1 == i)).map (·.2)
  (mine.find? (fun q => qcluster q == clusterOf c)).orElse (fun _ =>
    (mine.filter (fun q => qcluster q / 16 == dieOf c)).head?.orElse (fun _ => mine.head?))

/-- The queue of this package that a handle word gives a core: the core's copy of an image queue, an existing queue, or what
a recast keeps (`old`). -/
def Plan.target (p : Plan) (old : CoreId → Tbl HandleMap) (h : Nat × Nat × Nat) (c : CoreId) : Option QKey :=
  let here := fun (id : BitVec 32) => if p.s.qidPkg id = p.s.pkg then some (qkeyOf id) else none
  match h.1 with
  | 0 => copyFor p.queues h.2.2 c
  | 1 => here (BitVec.ofNat 32 h.2.2)
  | 2 => match (old c).get .unmapped h.2.1 with
    | .queue id => here id
    | _ => none
  | _ => none

/-- The pairs of clusters of one die between which rated queues need a circuit (R408); the flag: one of the
two roles is placed with AUTO. -/
def Plan.needs (p : Plan) (img : Image) (old : CoreId → Tbl HandleMap) : List (ClusterId × ClusterId × Bool) :=
  let auto := fun (h : Nat × Nat × Nat) => h.1 == 0 &&
    ((p.roles[fieldOf (img.queues.getD h.2.2 0) 79 64]?).map (fun x => x.role.auto.isSome)).getD false
  (p.roles.flatMap (fun r => r.role.handles.flatMap (fun h =>
    r.ids.filterMap (fun c => match p.target old h c with
      | some q => if (p.s.queue q).st = .active ∧ !(p.s.queue q).elastic ∧ qcluster q ≠ clusterOf c ∧ qcluster q / 16 = dieOf c then
          some (clusterOf c, qcluster q, r.role.auto.isSome || auto h) else none
      | none => none)))).eraseDups

/-- Slots: the image's, then the loader's own for roles placed with AUTO, then the circuits that rated queues need. -/
def Plan.doSlots (p : Plan) (img : Image) (old : CoreId → Tbl HandleMap) : Option Plan :=
  match p.addSlots img with
  | none => none
  | some p =>
    let needs := p.needs img old
    let mine := needs.filter (fun n => n.2.2 && !p.s.hasCircuit n.1 n.2.1)
    match mine.foldl (fun p n => p.bind (fun p => p.addCircuit n.1 n.2.1)) (some p) with
    | none => none
    | some p =>
      let routers := (mine.flatMap (fun n => (wayTo n.2.1 16 n.1).map (·.1))).eraseDups
      let p := routers.foldl Plan.addClasses p
      if needs.all (fun n => p.s.hasCircuit n.1 n.2.1) && ((img.slots.map (·.1)) ++ routers).all p.s.classesOk then some p else none

/-! ## Pages (R407 OVERLAP) -/

/-- The pages of a role's code. -/
def RoleRec.codePages (r : RoleRec) : List Nat := pagesOf r.codeVa.toNat (4 * r.code.length)

/-- The pages of its hbm data. -/
def RoleRec.dataPages (r : RoleRec) : List Nat := ((r.datas.filter (fun d => d.1 == 3)).flatMap (fun d => pagesOf d.2.1 (8 * d.2.2.length))).eraseDups

/-- Nothing falls on a page mapped in the domain (`own` aside), and code shares no page. -/
def pagesOk (s : State) (dom : BitVec 12) (img : Image) (own : List Nat) : Bool :=
  let code := img.roles.flatMap RoleRec.codePages
  let data := (img.roles.flatMap RoleRec.dataPages).eraseDups
  distinct code && !data.any code.contains && (code ++ data).all (fun p => own.contains p || !s.pageMapped dom p)

/-! ## Rows and handles of a core (R400, R401; 22 R436) -/

/-- The handle map of a core of role j; `old` is the live one, for handles that a recast keeps. -/
def State.handleMap (s : State) (qs : List (Nat × QKey)) (r : RoleRec) (old : Tbl HandleMap) (c : CoreId) : Tbl HandleMap :=
  r.handles.foldl (fun m h => match h.1 with
    | 0 => match copyFor qs h.2.2 c with
      | some q => m.set h.2.1 (.queue (s.qidOf q))
      | none => m
    | 1 => let id := BitVec.ofNat 32 h.2.2
      m.set h.2.1 (.queue (if s.qidPkg id = s.pkg then s.qidOf (qkeyOf id) else id))
    | 2 => m.set h.2.1 (old.get .unmapped h.2.1)
    | _ => m.set h.2.1 .faultQueue) []

/-- The rows of role j, their entries made addresses. -/
def rowsFor (img : Image) (j : Nat) (r : RoleRec) : Tbl Row :=
  (img.binds.filter (fun b => b.1 == j)).foldl (fun t b => t.set b.2.1 { b.2.2 with entry := 0xFFF0000000000000 + r.codeVa + b.2.2.entry }) []

/-- The bindings of a role keep R80 on every core, and name one fault handle at most (22 R436). -/
def State.bindsOk (s : State) (img : Image) (qs : List (Nat × QKey)) (j : Nat) (p : Placed) (old : CoreId → Tbl HandleMap) : Bool :=
  (p.role.handles.filter (fun h => h.1 == 3)).length ≤ 1 &&
  (img.binds.filter (fun b => b.1 == j)).all (fun b => b.2.2.entry.toNat < 4 * p.role.code.length) &&
  p.ids.all (fun c => s.rowsOk c (s.handleMap qs p.role (old c) c) p.role.codeVa (4 * p.role.code.length) (rowsFor img j p.role))

/-- The membership slots of a core (09 R213): its rank in each group. -/
def State.membership (s : State) (groups : List Nat) (c : CoreId) : List Member :=
  (groups.filter (fun g => (s.group g).cores.contains c)).map (fun g =>
    { group := g, pending := false, rank := BitVec.ofNat 16 ((enssOf (s.group g).cores).idxOf (ensOf c)) })

/-- The handle words of kind 1 name queues of the domain, or open ones (06 R128); one of another package is taken as it
stands. -/
def State.existingOk (s : State) (dom : BitVec 12) (r : RoleRec) : Bool :=
  r.handles.all (fun h => h.1 != 1 || (
    let id := BitVec.ofNat 32 h.2.2
    let q := s.queue (qkeyOf id)
    !qidReserved id && (s.qidPkg id != s.pkg || (q.st == .active && (q.dom == dom || q.openAll)))))

end Sys2Proof.Machine
end

