-- ==== Sys2Proof/Machine/Loader.lean ====
section
/-!
DEFINITION. The Igzel loader and the other native services (20 R407–R413): LOAD, REMOVE, QUERY, MAP, UNMAP, LIFETIME,
APPEND, and how a service takes a call and replies.
-/
namespace Sys2Proof.Machine

/-! ## Calls and replies (R412, Tables 20.6, 20.7) -/

abbrev stSIGNATURE : Nat := 1
abbrev stFORMAT : Nat := 2
abbrev stPLACE : Nat := 3
abbrev stRATE : Nat := 4
abbrev stNOSPACE : Nat := 5
abbrev stSLOTS : Nat := 6
abbrev stLEVEL : Nat := 7
abbrev stOVERLAP : Nat := 8
abbrev stDOMAIN : Nat := 9
abbrev stBINDING : Nat := 10
abbrev stSFU : Nat := 11
abbrev stPRELOAD : Nat := 12
abbrev stNOSUCH : Nat := 13
abbrev stBUSY : Nat := 14
abbrev stPEER : Nat := 15
abbrev stBADCALL : Nat := 16

/-- The argument of `n` bytes at byte b of ARGS. -/
def argOf (call : BitVec 1024) (b n : Nat) : Nat := fieldOf call (128 + 8 * b + 8 * n - 1) (128 + 8 * b)
/-- The caller's domain. -/
abbrev callDom (call : BitVec 1024) : BitVec 12 := call.extractLsb' 80 12
abbrev callFunc (call : BitVec 1024) : Nat := fieldOf call 79 64

/-- The completion path of a host page, as a queue id that no queue has (R422, log 64). -/
def hostPath (page : Nat) : BitVec 32 := BitVec.ofNat 32 (page * 2 ^ 20) ||| 0x7E00

/-- Submissions of a page accepted and not completed. -/
def State.pageOut (s : State) (page : Nat) : Nat := s.accepted.get 0 page - s.completed.get 0 page

/-- A service pushes its reply (R412): REPLY 0 asks for none; a reply that is refused is reported to fumarole (01 R13; log
65). -/
def State.replyTo (s : State) (call : BitVec 1024) (status result : Nat) : State :=
  let id : BitVec 32 := call.extractLsb' 96 32
  let item : BitVec 128 := BitVec.ofNat 56 result ++ BitVec.ofNat 8 status ++ call.extractLsb' 0 64
  let page := fieldOf id 29 20
  if id = 0 then s
  else if id = hostPath page then (if s.pageOut page > 0 then s.post 0 (.hostReply page item) else s.serviceReport id cQGONE)
  else if s.qidPkg id ≠ s.pkg then
    s.send (s.qidPkg id) (.push { qid := id, item := dataItem item, domain := 0, checked := true, srcPkg := s.pkg, core := byService,
                                  serial := 0, curtain := false, notice := false })
  else if qidReserved id then s.serviceReport id cQGONE
  else match s.acceptPush (qkeyOf id) (dataItem item) 0 true with
    | .ok s => s
    | .error code => s.serviceReport id code

/-- A service takes what stands at the head of its queue and is no call (15 R332). -/
def State.takeNotes (s : State) (q : QKey) : State := ((s.queue q).items.takeWhile (·.item.note)).foldl (fun s i => s.takeCopy q i) s

/-- A service takes the call at the head of its queue when the event is the one that answers it; otherwise the event
comes again. -/
def State.serve (s : State) (q : QKey) (e : Instr) (mine : Nat → Bool) (f : BitVec 1024 → State → State) : State :=
  let s := s.takeNotes q
  let x := s.queue q
  match x.items with
  | [] => if x.spill = [] then s else s.post 64 e
  | i :: _ => if mine (callFunc i.item.data) then f i.item.data (s.takeCopy q i) else s.post 64 e

/-- For whom a service reads and writes. -/
def serviceActor (dom : BitVec 12) : Actor := { core := 0, dom := dom, svc := true }

/-- `n` bytes at a virtual address of a domain, as a service reads them. -/
def State.readFor (s : State) (dom : BitVec 12) (va n : Nat) : Except Stop (List Byte × State) :=
  match s.awake (unitRead (serviceActor dom) (0xFFF0000000000000 + word (va % 2 ^ 48)) n) 300 with
  | .ok (v, t) => .ok (bytesOf (BitVec.ofNat (8 * n) v) n, t)
  | .error st => .error st

/-- The status of a call whose image cannot be read: DOMAIN when the caller's domain has no valid root (R407, log 24). -/
def State.unreadable (s : State) (dom : BitVec 12) : Stop → Nat
  | .page _ => if (s.devGet (rootReg dom)).getLsbD 0 then stBADCALL else stDOMAIN
  | _ => stBADCALL

/-- Words from bytes. -/
def wordsOf (bs : List Byte) : List Word := (List.range (bs.length / 8)).map (fun i => word (natOfBytes ((bs.drop (8 * i)).take 8)))

/-! ## Writing a load (R410 steps 2 and 3) -/

/-- The value of a load-time symbol (02 R46): the id of a queue, a group, or the LOCAL id of a tensor. -/
def State.symbolValue (s : State) (qs : List (Nat × QKey)) (groups tensors : List Nat) (kind i : Nat) : BitVec 32 :=
  match kind with
  | 0 => s.qidOf (((qs.find? (fun q => q.1 == i)).map (·.2)).getD 0)
  | 1 => s.pkg.setWidth 32 <<< 20 ||| BitVec.ofNat 32 (groups.getD i 0)
  | _ => 0xFFF04000 + BitVec.ofNat 32 (tensors.getD i 0)

/-- The code of role j with its load-time symbols written: each is an IX-form `ADDI` (02 R46, R47). -/
def patchCode (sym : List (Nat × Nat × Nat × Nat × Nat × Nat)) (val : Nat → Nat → BitVec 32) (j : Nat) (code : List IWord) : List IWord :=
  (sym.filter (fun y => y.1 == j && y.2.1 == 0)).foldl (fun code y =>
    let k := y.2.2.1 / 4
    let v := val y.2.2.2.1 y.2.2.2.2.1
    (code.set k (0xFC400000 ||| ((v >>> 13) &&& 0x7FFFF))).set (k + 1) ((code.getD (k + 1) 0 &&& 0xFFFFE000) ||| (v &&& 0x1FFF))) code

/-- Data record d of role j with its load-time symbols written. -/
def patchData (sym : List (Nat × Nat × Nat × Nat × Nat × Nat)) (val : Nat → Nat → BitVec 32) (j d : Nat) (bs : List Byte) : List Byte :=
  (sym.filter (fun y => y.1 == j && y.2.1 == d + 1)).foldl (fun bs y =>
    let off := y.2.2.1
    bs.take off ++ bytesOf ((val y.2.2.2.1 y.2.2.2.2.1).setWidth 64) y.2.2.2.2.2 ++ bs.drop (off + y.2.2.2.2.2)) bs

/-- Bytes of instruction words. -/
def instrBytes (code : List IWord) : List Byte := code.flatMap (fun w => bytesOf w 4)

/-- Write a role's data into the spaces of these cores, and its hbm data at `hbm` (02 R49). -/
def State.writeData (s : State) (sym : List (Nat × Nat × Nat × Nat × Nat × Nat)) (val : Nat → Nat → BitVec 32) (j : Nat) (r : RoleRec) (cs : List CoreId)
    (hbm : State → Nat → List Byte → State) : State :=
  (List.range r.datas.length).foldl (fun s d =>
    let x := r.datas.getD d (0, 0, [])
    let bs := patchData sym val j d (wordBytes x.2.2)
    match x.1 with
    | 0 => cs.foldl (fun s c => s.storeAt (tcmPlace c x.2.1) bs) s
    | 1 => (clustersOf cs).foldl (fun s k => s.storeAt (spadPlace k x.2.1) bs) s
    | 2 => ((List.range 2).filter (fun die => cs.any (fun c => dieOf c == die))).foldl (fun s die => s.storeAt (sramPlace die x.2.1) bs) s
    | _ => hbm s x.2.1 bs) s

/-- What the loader writes into core i of a role: rows, handles, memberships and the resets of 02 R23 and 03 R60, with the
other pool roles of its model beside them (18 R382). -/
def State.setupCore (s : State) (img : Image) (qs : List (Nat × QKey)) (groups : List Nat) (roles : List Placed) (j : Nat) (p : Placed) (i : Nat) : State :=
  let c := (p.cores.getD i (0, 1)).1
  let old := (s.core c).handles
  let others := if p.role.pool = 0 then [] else (List.range roles.length).filterMap (fun k => match roles[k]? with
    | some q => if q.role.pool ≠ 0 ∧ q.num ≠ p.num then
        some (q.num, ((rowsFor img k q.role).map (fun r => (r.1, { r.2 with en := false })), s.handleMap qs q.role [] c)) else none
    | none => none)
  s.updCore c (fun x =>
    { x with role := some p.num, index := i, weight := (p.cores.getD i (0, 1)).2, frames := p.role.frames,
             rows := rowsFor img j p.role, handles := s.handleMap qs p.role old c, members := s.membership groups c,
             regs := Vector.replicate 32 0, nmode := 0, note := {}, closed := [], lastRow := none,
             pooled := others.foldl (fun t o => Tbl.set t o.1 o.2) [] })

/-- Load a role's special-function tables into its ensembles; none when another role of one has different contents
(11 R250). -/
def State.loadTables (s : State) (img : Image) (roles : List Placed) (replace : Bool) : Option State :=
  img.tables.foldl (fun s t => s.bind (fun s => match roles[t.1]? with
    | none => some s
    | some p => (enssOf (membersOf roles p)).foldl (fun s e => s.bind (fun s =>
        let old := (s.ens e).sfu.get {} t.2.1
        let others := if replace then old.roles.filter (· ≠ p.num) else old.roles
        if others ≠ [] ∧ (old.seg, old.lo, old.inv) ≠ (t.2.2.seg, t.2.2.lo, t.2.2.inv) then none
        else some (s.updEns e (fun y => { y with sfu := y.sfu.set t.2.1 { t.2.2 with roles := others ++ [p.num] } })))) (some s))) (some s)

/-- Preload one bank name in one ensemble (12 R269): a failed read or illegal metadata is PRELOAD; a page that is MOVING is
waited for (0). -/
def State.preloadBank (s : State) (img : Image) (p : Placed) (dom : BitVec 12) (t : Entry) (x : Nat × Nat × Nat × Nat) (c : CoreId) : Except Nat State :=
  let ent := s.captured c t
  let mbase := if x.2.1 = 0 then ent.withPkg ent.sparse
    else ((img.tensors[x.2.1 - 1]?).map (fun m => Entry.base (s.captured c m.2))).getD 0
  match s.awake (loadCols { core := c, dom := dom, svc := p.role.svc } (modesOf 0) ent mbase 0 0 0) 300 with
  | .ok (cols, s) => .ok ((s.wake 4 (ensOf c)).updEns (ensOf c) (fun y => (y.beginLoad x.2.2.1 ent.fmt).loaded x.2.2.1 ent cols.1 false))
  | .error st => .error (if st.waits then 0 else stPRELOAD)

/-- The preloads of an image, as (tensor entry, preload word, core of an ensemble). -/
def preloadsOf (img : Image) (roles : List Placed) : List (Placed × Entry × (Nat × Nat × Nat × Nat) × CoreId) :=
  img.preloads.flatMap (fun x => match img.tensors[x.1]?, roles[x.2.2.2]? with
    | some t, some p => (enssOf (membersOf roles p)).filterMap (fun e =>
        ((membersOf roles p).find? (fun c => ensOf c == e)).map (fun c => (p, t.2, x, c)))
    | _, _ => [])

/-- Preload the banks of an image: the first that fails refuses it. -/
def State.preload (s : State) (img : Image) (roles : List Placed) (dom : BitVec 12) : Except Nat State :=
  (preloadsOf img roles).foldlM (fun s x => s.preloadBank img x.1 dom x.2.1 x.2.2.1 x.2.2.2) s

/-- A role that a former names as a pool role is in the former's domain (18 R382). -/
def State.poolsOk (s : State) (roles : List Placed) (dom : BitVec 12) : Bool :=
  roles.all (fun p => p.role.pool == 0 || (List.range 4).all (fun b => !(s.fcfg b).pools.contains p.num || (s.fcfg b).dom == dom))

/-- Invalidate every bank that a role is allotted in an ensemble (12 R269). -/
def Ens.invalidateBanks (e : Ens) (banks : BitVec 32) : Ens :=
  (List.range 32).foldl (fun e b => if banks.getLsbD b then ((e.invalid b).invalid (b + 32)) else e) e

/-- Steps 2 and 3 of R410: pages, code, data, roles, rows, handles, tables and preloads. -/
def Plan.write (p : Plan) (ws : List Word) (img : Image) (dom : BitVec 12) (load : Nat) : Except Nat State :=
  let sym := Config.symbols ws
  let val := p.s.symbolValue p.queues p.groups p.tensors
  let code := img.roles.flatMap RoleRec.codePages
  let data := (img.roles.flatMap RoleRec.dataPages).eraseDups
  match (p.s.mapPages dom code leafCODE).bind (fun s => s.mapPages dom data leafPINNED) with
  | none => .error stNOSPACE
  | some s =>
    let js := List.range p.roles.length
    let s := js.foldl (fun s j => match p.roles[j]? with
      | none => s
      | some r =>
        let s := s.setRole r.num { version := 0, svc := r.role.svc, dom := dom, pool := r.role.pool, cores := r.ids, banks := r.role.banks, load := load,
                                   codeVa := r.role.codeVa, codeLen := 4 * r.role.code.length, accs := r.role.accs, pages := r.role.codePages ++ r.role.dataPages }
        let s := (List.range r.cores.length).foldl (fun s i => s.setupCore img p.queues p.groups p.roles j r i) s
        let s := (enssOf (membersOf p.roles r)).foldl (fun s e => s.updEns e (fun y => y.invalidateBanks r.role.banks)) s
        s.writeVirt dom r.role.codeVa.toNat (instrBytes (patchCode sym val j r.role.code))) s
    let put := fun (own : Bool) (s : State) => js.foldl (fun s j => match p.roles[j]? with
      | none => s
      | some r => s.writeData sym val j r.role (if own then r.ids else membersOf p.roles r) (fun s va bs => s.writeVirt dom va bs)) s
    let s := put true (put false s)
    match s.mapTiles (tileNeeds p.roles) with
    | none => .error stNOSPACE
    | some s => match s.loadTables img p.roles false with
      | none => .error stSFU
      | some s => s.preload img p.roles dom

/-! ## The checks, in the order of Table 20.5 (R407) -/

/-- The image of a list of words, when its signature, with the class that it needs, and its form are right. -/
def checkImage (ws : List Word) (recast : Bool) : Except Nat (Image × Bool) :=
  match signedClass ws with
  | none => .error stSIGNATURE
  | some cls =>
    if asksService ws && !cls then .error stSIGNATURE
    else match readImage ws with
      | none => .error stFORMAT
      | some img =>
        if (!recast && img.roles.any (fun r => r.handles.any (fun h => h.1 == 2))) || !img.roles.all RoleRec.handlesOk then .error stFORMAT
        else .ok (img, cls)

/-- PRIO 7 in a binding or on a queue asks for the service level (01 R20; 04 R80; 06 R125). -/
def Image.levelOk (img : Image) (cls : Bool) : Bool :=
  img.binds.all (fun b => prioOk (((img.roles[b.1]?).map (·.svc)).getD false) b.2.2) &&
  img.queues.all (fun d => cls || (imageQueue d 0).1.prio != 7)

/-- Check and place an image: the first check that fails gives the status, and nothing changes. -/
def State.place (s : State) (ws : List Word) (dom : BitVec 12) (load launch : Nat) : Except Nat Plan := do
  let (img, cls) ← checkImage ws false
  let roles ← match s.placeRoles img with
    | some l => pure l
    | none => throw stPLACE
  if !multicastOk img roles then throw stPLACE
  if !ratesOk img then throw stRATE
  let p : Plan := { s := s, roles := roles }
  let p ← match (p.addGroups img load).bind (fun p => (p.addQueues img dom load).bind (fun p => p.addTensors img dom)) with
    | some p => pure p
    | none => throw stNOSPACE
  if !banksOk s roles none ∨ (s.mapTiles (tileNeeds roles)).isNone then throw stNOSPACE
  let p ← match p.doSlots img (fun _ => []) with
    | some p => pure p
    | none => throw stSLOTS
  if !img.levelOk cls then throw stLEVEL
  if !pagesOk s dom img [] then throw stOVERLAP
  if !(s.devGet (rootReg dom)).getLsbD 0 ∨ !s.poolsOk roles dom then throw stDOMAIN
  if !(List.range roles.length).all (fun j => match roles[j]? with
      | some r => p.s.bindsOk img p.queues j r (fun _ => [])
      | none => true) then throw stBINDING
  let t ← p.write ws img dom load
  if !img.roles.all (s.existingOk dom) ∨ launch > img.queues.length then throw stNOSUCH
  pure { p with s := t }

/-- The cycles of a number of milliseconds (00 R4). -/
abbrev msCycles (ms : Nat) : Nat := ms * 2000000

/-- Keep a load that is placed: its entry, and its place in the checkpoint store. -/
def Plan.keep (p : Plan) (ws : List Word) (dom : BitVec 12) (load : Nat) (packages : List (BitVec 12)) (origin : BitVec 12) (serial : Nat) : State :=
  let s := p.s
  let s := { s with loads := s.loads.set load { dom := dom, roles := p.roles.map Placed.num, queues := p.queues.map Prod.snd, groups := p.groups,
                                                image := ws, packages := packages, pages := p.ranges, slots := p.slots, origin := origin,
                                                serial := serial } }
  let old := s.store.get {} load
  { s with store := s.store.set load { old with dom := dom, image := ws, packages := packages, origin := origin, serial := serial } }

/-- The copies of the launch queue (14 R321), by its image index + 1. -/
def Plan.launchQueues (p : Plan) (n : Nat) : List QKey := (p.queues.filter (fun q => q.1 + 1 == n)).map Prod.snd

/-- Push the launch item to every copy of the launch queue; one that is refused is reported to fumarole (01 R13; log 65). -/
def State.launch (s : State) (qs : List QKey) (payload : BitVec 128) : State :=
  qs.foldl (fun s q => match s.accept q (dataItem payload) 0 true with
    | .ok s => s
    | .error code => s.serviceReport (s.qidOf q) code) s

/-- A load serial that no load has: the one after the last given (log 66). -/
def State.nextSerial (s : State) : Nat :=
  let from_ := s.nextLoad.toNat
  ((List.range (s.loads.length + 1)).map (fun i => (from_ + i) % 65536)).find? (fun n => (Tbl.find? s.loads n).isNone) |>.getD from_

/-- The other packages of a load (R410): the 16-bit ids at an address of any space, this package aside. -/
def State.peersOf (s : State) (dom : BitVec 12) (n addr : Nat) : Except Stop (List (BitVec 12) × State) :=
  if n = 0 then .ok ([], s)
  else match s.awake (unitRead (serviceActor dom) (word addr) (2 * n)) 300 with
    | .ok (v, s) => .ok ((((List.range n).map (fun i => s.realPkg (BitVec.ofNat 12 (v / 2 ^ (16 * i))))).filter (· ≠ s.pkg)).eraseDups, s)
    | .error st => .error st

/-- Place an image in this package (R410 steps 1 to 4): its serial, its launch queues, and the state; or the status. `origin` is
the package and the serial that the load comes from, when that is another. -/
def State.placeLoad (s : State) (ws : List Word) (dom : BitVec 12) (launch : Nat) (packages : List (BitVec 12))
    (origin : Option (BitVec 12 × Nat)) : Except Nat (Nat × List QKey × State) :=
  let load := s.nextSerial
  match s.place ws dom load launch with
  | .error st => .error st
  | .ok p =>
    let o := origin.getD (s.pkg, load)
    let u := p.keep ws dom load packages o.1 o.2
    .ok (load, p.launchQueues launch, ({ u with nextLoad := BitVec.ofNat 16 (load + 1) } : State).post (msCycles 1000) (.epochTimer load))

/-- The result of a LOAD: its serial, and the number of its first role. -/
def State.loadResult (s : State) (load : Nat) : Nat := load + 65536 * (((s.loads.get {} load).roles.head?).getD 0)

/-- A load is placed in this package: it is launched, or when it names other packages, sent to the loader of each (R410). -/
def State.sendLoad (s : State) (call : BitVec 1024) (ws : List Word) (dom : BitVec 12) (others : List (BitVec 12)) (load : Nat)
    (qs : List QKey) : State :=
  let payload := call.extractLsb' 320 128
  if others = [] then (s.launch qs payload).replyTo call 0 (s.loadResult load)
  else
    let s := { s with orders := s.orders ++ [{ origin := s.pkg, serial := load, load := load, queues := qs, payload := payload, call := call,
                                               waiting := others, refused := false }] }
    others.foldl (fun s p => s.send p (.service (.load (.order
      { origin := s.pkg, serial := load, dest := p, dom := dom, image := ws, launch := argOf call 12 2, payload := payload,
        packages := s.pkg :: others })))) s

/-- LOAD, a call (R410, R413). -/
def State.loadCall (s t : State) (call : BitVec 1024) : State :=
  let dom := callDom call
  let bytes := argOf call 8 4
  let n := argOf call 14 2
  if callFunc call ≠ 1 ∨ n > 64 then t.replyTo call stBADCALL 0
  else match t.peersOf dom n (argOf call 16 8) with
    | .error st => if st.waits then s.post 64 (.load .call) else t.replyTo call stBADCALL 0
    | .ok (others, t) => match t.readFor dom (argOf call 0 8) bytes with
      | .error st => if st.waits then s.post 64 (.load .call) else t.replyTo call (t.unreadable dom st) 0
      | .ok (bs, t) =>
        let ws := if bytes % 8 = 0 then wordsOf bs else []
        match t.placeLoad ws dom (argOf call 12 2) (t.pkg :: others) none with
        | .error 0 => s.post 64 (.load .call)
        | .error st => t.replyTo call st 0
        | .ok (load, qs, u) => u.sendLoad call ws dom others load qs

/-- Another package's loader sends a load: it is placed or refused, and the answer goes back (R410). -/
def State.loadOrder (s : State) (x : LoadOrder) : State :=
  let answer := fun (t : State) (placed : Bool) => t.send x.origin (.service (.load (.answer x.serial s.pkg placed)))
  match s.placeLoad x.image x.dom x.launch x.packages (some (x.origin, x.serial)) with
  | .error 0 => s.post 64 (.load (.order x))
  | .error _ => answer s false
  | .ok (load, qs, u) =>
    let o : Pending := { origin := x.origin, serial := x.serial, load := load, queues := qs, payload := x.payload, call := 0,
                         waiting := [], refused := false }
    answer { u with orders := u.orders ++ [o] } true

/-! ## REMOVE (R411) -/

/-- A role leaves its cores. -/
def Core.leaveRole (x : Core) : Core :=
  { x with role := none, index := 0, weight := 1, rows := [], handles := [], members := [], accs := [], pooled := [], closed := [],
           frames := 4, lastRow := none, joining := none }

/-- Take a load away: its cores killed, its queues destroyed, and everything it held freed. What removed cores still had
reserved goes with them (log 67). -/
def State.removeLoad (s : State) (load : Nat) : State :=
  let l := s.loads.get {} load
  let cores := l.roles.flatMap (fun r => (s.role r).cores)
  let bound := cores.flatMap s.boundBy
  let s := cores.foldl (fun s c => (s.killCore c).2.2) s
  let s := l.queues.foldl (fun s q => s.failQueue q) s
  let pages := l.roles.flatMap (fun r => (s.role r).pages)
  let s := (cores.foldl (fun s c => s.updCore c Core.leaveRole) s).freeAll bound
  let s := l.queues.foldl (fun s q =>
    let x := s.queue q
    (if x.st = .failed then s.setQueue q { x with items := x.items.filter (fun i => !cores.contains i.core) } else s).freeIfDone q) s
  let s := { s with groups := l.groups.foldl (fun t g => Tbl.erase t g) s.groups,
                    tensors := s.tensors.filter (fun t => match t.2.role with
                      | some r => !l.roles.contains r
                      | none => true),
                    ensembles := s.ensembles.map (fun e => (e.1, { e.2 with sfu := e.2.sfu.map (fun t => (t.1, { t.2 with roles := t.2.roles.filter (fun r => !l.roles.contains r) })) })),
                    slots := l.slots.foldl (fun t x =>
                      let e := (List.range 6).foldl (fun (e : Word) k => if x.2.getLsbD k then e &&& ~~~(0xFF#64 <<< (8 * k)) else e) (Tbl.get t 0 x.1)
                      if e = 0 then Tbl.erase t x.1 else Tbl.set t x.1 e) s.slots,
                    roles := l.roles.foldl (fun t r => Tbl.erase t r) s.roles,
                    loads := s.loads.erase load }
  let s := pages.eraseDups.foldl (fun s p => s.unmapPage l.dom p) s
  let s := l.pages.foldl (fun s r => (s.dropRange l.dom r.1 r.2).getD s) s
  if s.roles.any (fun r => r.2.dom == l.dom) then s
  else { s with tensors := s.tensors.filter (fun t => !(t.2.role.isNone && t.2.owner == l.dom)) }

/-- The load of this package that comes from a package and has a serial there. -/
def State.loadFrom (s : State) (origin : BitVec 12) (serial : Nat) : Option (Nat × Load) :=
  List.find? (fun (x : Nat × Load) => x.2.origin == origin && x.2.serial == serial) s.loads

/-- Take a load away, once every access under its domain's translations is applied (08 R183); none while one cannot be. -/
def State.tryRemove (s : State) (load : Nat) : Option State :=
  (s.settledDomain (s.loads.get {} load).dom).map (fun s => ({ s with store := s.store.erase load } : State).removeLoad load)

/-- What a load of several packages comes to, in one of them (R410): its launch items are pushed, or it is removed. Nothing,
when it does not stand here; none, while an access of its domain cannot be applied. -/
def State.endLoad (s : State) (origin : BitVec 12) (serial : Nat) (launch : Bool) : Option State :=
  let mine := fun (o : Pending) => o.origin == origin && o.serial == serial
  let drop := fun (s : State) => { s with orders := s.orders.filter (fun o => !mine o) }
  if launch then match s.orders.find? mine with
    | some o => some ((drop s).launch o.queues o.payload)
    | none => some s
  else match s.loadFrom origin serial with
    | some l => (s.tryRemove l.1).map drop
    | none => some (drop s)

/-- A package answers the order of a load (R410): when every one has, all are told to launch it, or to remove it when one
refused, and the call is answered. -/
def State.loadAnswer (s : State) (serial : Nat) (pkg : BitVec 12) (placed : Bool) : State :=
  let mine := fun (o : Pending) => o.origin == s.pkg && o.serial == serial
  match s.orders.find? mine with
  | none => s
  | some o =>
    let o := { o with waiting := o.waiting.filter (· ≠ pkg), refused := o.refused || !placed }
    let s' := { s with orders := s.orders.map (fun x => if mine x then o else x) }
    if o.waiting ≠ [] then s'
    else
      let others := (s.loads.get {} o.load).packages.filter (· ≠ s.pkg)
      let result := s.loadResult o.load
      match s'.endLoad s.pkg serial (!o.refused) with
      | none => s.post 64 (.load (.answer serial pkg placed))
      | some t =>
        let t := others.foldl (fun t p => t.send p (.service (.load (.finish s.pkg serial (!o.refused))))) t
        t.replyTo o.call (if o.refused then stPEER else 0) (if o.refused then 0 else result)

/-- LOAD (R410, R413). -/
def execLoad (x : LoadCause) (s : State) :=
  happen (match x with
    | .call => s.serve (serviceKey 0) (.load .call) (fun f => f ≠ 2 ∧ f ≠ 3 ∧ f ≠ 4) (fun call t => s.loadCall t call)
    | .order o => s.loadOrder o
    | .answer serial pkg placed => s.loadAnswer serial pkg placed
    | .finish origin serial launch => (s.endLoad origin serial launch).getD (s.post 64 (.load x)))

/-- REMOVE (R411, R430): every package of the load removes it. -/
def execRemove (s : State) :=
  happen (s.serve (serviceKey 0) .remove (· = 2) (fun call t =>
    let n := argOf call 0 2
    match Tbl.find? t.loads n with
    | none => t.replyTo call stNOSUCH 0
    | some l =>
      if l.roles.any (fun r => (t.role r).recast.isSome) then t.replyTo call stBUSY 0
      else match t.tryRemove n with
        | none => s.post 64 .remove
        | some t =>
          let t := { t with orders := t.orders.filter (fun o => o.load ≠ n) }
          let t := (l.packages.filter (· ≠ s.pkg)).foldl (fun t p => t.send p (.service (.load (.finish l.origin l.serial false)))) t
          t.replyTo call 0 0))

/-- QUERY (R413). -/
def execQuery (s : State) :=
  happen (s.serve (serviceKey 0) .query (· = 4) (fun call s =>
    match Tbl.find? s.roles (argOf call 0 2) with
    | none => s.replyTo call stNOSUCH 0
    | some r => s.replyTo call 0 ((if r.recast.isSome then 1 else 0) + r.version.toNat * 8 + (r.cores.length - 1) * 2 ^ 19)))

/-! ## Allocator, network, fumarole (R413) -/

/-- MAP: the pages are resident at once, and read zero (log 61). -/
def execMap (s : State) :=
  happen (s.serve (serviceKey 1) .map (· ≠ 2) (fun call s =>
    let n := (argOf call 0 8 + frameSize - 1) / frameSize
    if callFunc call ≠ 1 ∨ n = 0 then s.replyTo call stBADCALL 0
    else match s.newRange (callDom call) n (argOf call 8 1 % 2 = 1) with
      | some (p, t) => t.replyTo call 0 (p * frameSize)
      | none => s.replyTo call (if (s.devGet (rootReg (callDom call))).getLsbD 0 then stNOSPACE else stDOMAIN) 0))

/-- UNMAP: the pages that the range touches, once every access under their translations is applied (08 R183); a range that the
allocator does not hold names nothing. -/
def execUnmap (s : State) :=
  happen (s.serve (serviceKey 1) .unmap (· = 2) (fun call t =>
    let ps := pagesOf (argOf call 0 8 % 2 ^ 48) (argOf call 8 8)
    match ps with
    | [] => t.replyTo call stBADCALL 0
    | p :: _ => match t.settledDomain (callDom call) with
      | none => s.post 64 .unmap
      | some t => match t.dropRange (callDom call) p ps.length with
        | some t => t.replyTo call 0 0
        | none => t.replyTo call stNOSUCH 0))

/-- The first word of another package's service that `f` reads, which is taken. -/
def State.peerWord {α : Type} (s : State) (f : SvcMsg → Option α) : Option (α × State) :=
  (s.peerWords.find? (fun x => (f x).isSome)).bind (fun x => (f x).map (fun a => (a, { s with peerWords := s.peerWords.erase x })))

/-- The domain and the time of another package's LIFETIME. -/
def lifetimeWord : SvcMsg → Option (Nat × Nat)
  | .lifetime dom us => some (dom, us)
  | _ => none

/-- LIFETIME: the register of 15 R328, here and in every other package that a route leads to. -/
def execLifetime (s : State) :=
  happen (match s.peerWord lifetimeWord with
    | some (p, s) => s.devPut (lifeReg (BitVec.ofNat 12 p.1)) (word p.2)
    | none => s.serve (serviceKey 3) .lifetime (fun _ => true) (fun call s =>
      let us := argOf call 2 4
      let dom := argOf call 0 2
      if callFunc call ≠ 1 ∨ us < 10 ∨ us > 1000 ∨ dom ≥ 4096 then s.replyTo call stBADCALL 0
      else
        let others := (s.routes.map (fun r => BitVec.ofNat 12 r.1)).filter (· ≠ s.pkg)
        (others.foldl (fun s p => s.send p (.service (.lifetime dom us))) (s.devPut (lifeReg (BitVec.ofNat 12 dom)) (word us))).replyTo call 0 0))

/-- APPEND: the record joins fumarole's log. -/
def execAppend (s : State) :=
  happen (s.serve (serviceKey 5) .append (fun _ => true) (fun call s =>
    if callFunc call ≠ 1 then s.replyTo call stBADCALL 0
    else ({ s with fumarole := s.fumarole ++ [call.extractLsb' 128 896], fumaroleSeq := s.fumaroleSeq + 1 } : State).replyTo call 0 (s.fumaroleSeq + 1)))

end Sys2Proof.Machine
end

