-- ==== Sys2Proof/Machine/Recast.lean ====
section
/-!
DEFINITION. Recasting (20 R414–R419, 14 R321, 21 R432): staging and marking, closing, quiet, forwarding, the deadline and
the install.
-/
namespace Sys2Proof.Machine

/-! ## Curtains (R415) -/

/-- The word of a recast's curtains. -/
def Recast.word (r : Recast) (role : Nat) : Word := BitVec.ofNat 64 (role * 2 ^ 48 + r.version.toNat * 2 ^ 32 + r.serial.toNat)

/-- The curtain of a recast. -/
def Recast.curtain (r : Recast) (role : Nat) : Item := { tag := tagCURTAIN, data := (r.word role).setWidth 1024 }

/-- The role as placed, for the loader's checks of its new image. -/
def State.livePlaced (s : State) (role : Nat) (r : RoleRec) : Placed :=
  { num := role, role := r, cores := (s.role role).cores.map (fun c => (c, (s.core c).weight)) }

/-- The role on every core that carries it: its own, and those of its pool (18 R382). -/
def State.everywhere (s : State) (p : Placed) : Placed :=
  { p with role := { p.role with pool := 0 }, cores := (s.carriers p.num).map (fun c => (c, 1)) }

/-- The queues with a core of the role among their consumers: its inputs (R416, R432). -/
def State.inputsOf (s : State) (role : Nat) : List QKey :=
  let cs := (s.role role).cores
  (s.queues.filter (fun q => q.1 < 16384 && q.2.st != .free && q.2.consumers.any cs.contains)).map (·.1)

/-- The device pushes a curtain to a queue: the code that refuses it, or 0; to another package it is sent, and its
acknowledgement settles it. -/
def State.pushCurtain (s : State) (role : Nat) (id : BitVec 32) : Option (BitVec 8) × State :=
  match (s.role role).recast with
  | none => (some 0, s)
  | some r =>
    if s.qidPkg id ≠ s.pkg then
      (none, s.send (s.qidPkg id) (.push { qid := id, item := r.curtain role, domain := (s.role role).dom, checked := true, srcPkg := s.pkg,
                                           core := role, serial := 0, curtain := true, notice := false }))
    else match s.accept (qkeyOf id) (r.curtain role) 0 true with
      | .ok s => (some 0, s)
      | .error c => (some c, s)

/-- Push a curtain that is owed, again after 1,024 cycles when QFULL refuses it. -/
def State.oweCurtain (s : State) (role : Nat) (id : BitVec 32) : State :=
  match s.pushCurtain role id with
  | (some c, s) => if c = cQFULL then s.post 1024 (.curtainRetry role id) else s.settled role id c
  | (none, s) => s

/-! ## Staging and marking (R414, R416 steps 1 and 2) -/

/-- A fresh frame for each of a list of virtual pages. -/
def State.stageFrames (s : State) (pages : List Nat) : Option (List (Nat × Nat) × State) :=
  pages.foldl (fun acc v => acc.bind (fun x => x.2.takeFrame.map (fun f => (x.1 ++ [(v, f.1)], f.2)))) (some ([], s))

/-- Write bytes at a virtual address into staged frames. -/
def State.stageBytes (s : State) (frames : List (Nat × Nat)) (va : Nat) (bs : List Byte) : State :=
  (pagesOf va bs.length).foldl (fun s v =>
    match frames.find? (fun f => f.1 == v) with
    | some f =>
      let lo := if v * frameSize < va then va - v * frameSize else 0
      s.storeAt (f.2 * frameSize + lo) ((bs.drop (v * frameSize + lo - va)).take (frameSize - lo))
    | none => s) s

/-- The new code and hbm data of a role stand in fresh frames (R416 step 1). -/
def Plan.stageRole (p : Plan) (ws : List Word) (r : RoleRec) : Option (List (Nat × Nat) × State) :=
  (p.s.stageFrames (r.codePages ++ r.dataPages)).map (fun x =>
    let sym := Config.symbols ws
    let val := p.s.symbolValue p.queues [] p.tensors
    let t := x.2.stageBytes x.1 r.codeVa.toNat (instrBytes (patchCode sym val 0 r.code))
    (x.1, (List.range r.datas.length).foldl (fun s d =>
      let x' := r.datas.getD d (0, 0, [])
      if x'.1 = 3 then s.stageBytes x.1 x'.2.1 (patchData sym val 0 d (wordBytes x'.2.2)) else s) t))

/-- The image's own rules for a RECAST (R414): one role record, no groups, and no queue of a group. -/
def recastForm (img : Image) : Option RoleRec :=
  match img.roles with
  | [r] => if img.groups ≠ [] ∨ img.queues.any (fun d => (imageQueue d 0).2.1) then none else some r
  | _ => none

/-- The code names no handle that the new version leaves unmapped: one kept from a live mapping that is none is not mapped (02
R26, R51; R414). -/
def State.keptOk (s : State) (live : Role) (r : RoleRec) : Bool :=
  (codeNames r.code.length r.code).1.all (fun h => r.handles.any (fun x => x.2.1 == h &&
    (x.1 != 2 || live.cores.all (fun c => (s.core c).handles.get .unmapped h != .unmapped))))

/-- The machine as the install would leave it for the preloads: the new pages and the new data of a role (12 R269, log 87). -/
def State.asInstalled (s : State) (p : Placed) (dom : BitVec 12) (frames : List (Nat × Nat)) (ws : List Word)
    (val : Nat → Nat → BitVec 32) : State :=
  let s := frames.foldl (fun s f => (s.mapTo dom f.1 f.2 leafPINNED).getD s) s
  let s := s.invalNow dom none
  s.writeData (Config.symbols ws) val 0 p.role p.ids (fun s _ _ => s)

/-- The checks of a RECAST image on a live role, and its staging: the status of the first that fails, or the plan, with the
state that has the new queues, tensor entries and frames, and no router's slots yet. -/
def State.stage (s : State) (ws : List Word) (role : Nat) : Except Nat (Plan × List (Nat × Nat)) := do
  let (img, cls) ← checkImage ws true
  let r ← match recastForm img with
    | some r => pure r
    | none => throw stFORMAT
  let live ← match Tbl.find? s.roles role with
    | some x => pure x
    | none => if ratesOk img then throw stNOSUCH else throw stRATE
  let p := s.livePlaced role r
  let old := fun (c : CoreId) => (s.core c).handles
  if r.svc != live.svc ∨ r.pool ≠ live.pool ∨ r.count ≠ live.cores.length ∨ !s.keptOk live r then throw stFORMAT
  if r.auto.isNone && r.explicit.map (·.1) != live.cores then throw stPLACE
  if !ratesOk img then throw stRATE
  let plan : Plan := { s := s, roles := [p] }
  let plan ← match (plan.addQueues img live.dom live.load).bind (fun x => x.addTensors img live.dom) with
    | some x => pure x
    | none => throw stNOSPACE
  if !banksOk s [s.everywhere p] (some role) ∨ (s.recastTiles role r.accs).isNone then throw stNOSPACE
  if (plan.doSlots img old).isNone then throw stSLOTS
  if !img.levelOk cls then throw stLEVEL
  if !pagesOk s live.dom img live.pages then throw stOVERLAP
  if !(s.devGet (rootReg live.dom)).getLsbD 0 then throw stDOMAIN
  if !plan.s.bindsOk img plan.queues 0 p old then throw stBINDING
  if (s.loadTables img [s.everywhere p] true).isNone then throw stSFU
  let (frames, t) ← match plan.stageRole ws r with
    | some x => pure x
    | none => throw stNOSPACE
  let _ ← (t.asInstalled p live.dom frames ws (t.symbolValue plan.queues [] plan.tensors)).preload img [s.everywhere p] live.dom
  if !s.existingOk live.dom r then throw stNOSUCH
  if live.recast.isSome then throw stBUSY
  pure ({ plan with s := t }, frames)

/-- Staging is done: the role becomes recasting, and the curtains are pushed (R416 steps 1 and 2). -/
def State.markRole (t : State) (role : Nat) (live : Role) (ws : List Word) (call : BitVec 1024) (us : Nat) (plan : Plan)
    (frames : List (Nat × Nat)) : State :=
  let u := plan.s
  let serial := u.nextRecast + 1
  let news := plan.queues.map Prod.snd
  let ins := (t.inputsOf role).filter (fun q => (t.queue q).st == .active && !news.contains q)
  let r : Recast :=
    { serial := serial, image := ws, version := live.version + 1, call := call, deadline := u.now + us * 2000,
      inputs := ins.map u.qidOf, outputs := [], forwarded := false, forced := false, killed := 0, installing := false, frames := frames,
      queues := plan.queues, tensors := plan.tensors }
  let load := u.loads.get {} live.load
  let u := { u with nextRecast := serial, loads := u.loads.set live.load { load with
    queues := load.queues ++ news, pages := load.pages ++ plan.ranges } }
  let u := u.setRole role { u.role role with recast := some r }
  let u := ins.foldl (fun u q => u.oweCurtain role (u.qidOf q)) u
  let pairs := live.cores.flatMap (fun c => ((t.inputsOf role).filter (fun q => (t.queue q).consumers.contains c)).map (fun q => (c, q)))
  let u := pairs.foldl (fun u x => u.post 0 (.inputClose x.1 x.2)) u
  (u.post 0 (.recastForward role)).post (us * 2000) (.recastDeadline role)

/-- RECAST (R414–R416, R430). -/
def execRecast (s : State) :=
  happen (s.serve (serviceKey 0) .recast (· = 3) (fun call t =>
    let role := argOf call 0 2
    let dom := callDom call
    let bytes := argOf call 16 4
    let us := if argOf call 20 4 = 0 then 10000 else argOf call 20 4
    match t.readFor dom (argOf call 8 8) bytes with
    | .error st => if st.waits then s.post 64 .recast else t.replyTo call (t.unreadable dom st) 0
    | .ok (bs, t) =>
      let ws := if bytes % 8 = 0 then wordsOf bs else []
      match t.stage ws role with
      | .error 0 => s.post 64 .recast
      | .error st => t.replyTo call st 0
      | .ok (plan, frames) => t.markRole role (t.role role) ws call us plan frames))

/-- CURTAIN_RETRY (R416): a curtain that QFULL refused is pushed again. -/
def execCurtainRetry (role : Nat) (qid : BitVec 32) (s : State) :=
  happen (match (s.role role).recast with
    | some r => if r.inputs.contains qid ∨ r.outputs.contains qid then s.oweCurtain role qid else s
    | none => s)

/-! ## Closing (R416 step 3) -/

/-- A curtain copy of the recast of role `role`. -/
def State.isCurtainOf (s : State) (role : Nat) (i : Copy) : Bool :=
  match (s.role role).recast with
  | some r => i.item.tag == tagCURTAIN && dwordAt i.item.data 0 == r.word role
  | none => false

/-- The input of a core is closed: its curtain stands first and is dropped, or its queue is FAILED and holds no item of
the core. -/
def State.closeInput (s : State) (c : CoreId) (q : QKey) (role : Nat) : Option State :=
  let x := s.queue q
  let close := fun (s : State) => s.updCore c (fun y => { y with closed := y.closed ++ [q] })
  match x.unowned c with
  | i :: _ => if s.isCurtainOf role i then some (close (s.takeCopy q i)) else none
  | [] => if x.st = .failed ∧ !x.items.any (fun i => i.core == c) then some (close s) else none

/-- INPUT_CLOSE (R416 step 3): while the curtain does not stand first, the closing is still to come. -/
def execInputClose (c : CoreId) (q : QKey) (s : State) :=
  happen (match (s.core c).role with
    | some role => match (s.role role).recast with
      | some r =>
        if r.forced || r.forwarded || (s.core c).closed.contains q then s
        else (s.closeInput c q role).getD (s.post 64 (.inputClose c q))
      | none => s
    | none => s)

/-! ## Quiet and forwarding (R416 steps 4 and 5) -/

/-- The core holds no instance, no queued matrix command, and nothing that will create an instance. -/
def State.holdsNothing (s : State) (c : CoreId) : Bool :=
  let x := s.core c
  x.cond == .idle && x.held.isEmpty && x.mq.isEmpty && !(s.ens (ensOf c)).accepted.any (fun m => m.core == c) && (s.create c).isNone

/-- A core is quiet: every input is closed, and it holds nothing of the old version. -/
def State.quiet (s : State) (role : Nat) (c : CoreId) (forced : Bool) : Bool :=
  s.holdsNothing c && (forced || (s.inputsOf role).all (fun q => !(s.queue q).consumers.contains c || (s.core c).closed.contains q ||
    (match (s.role role).recast with
      | some r => r.queues.any (fun n => n.2 == q)
      | none => false)))

/-- What happens at the moment of quiet: standing armaments are withdrawn, and PEND is cleared. -/
def Core.hush (x : Core) : Core :=
  { x with arms := x.arms.filter (fun a => a.2.hit.isSome || a.2.fired.isSome), rows := x.rows.map (fun r => (r.1, { r.2 with pend := 0 })) }

/-- The queues that a curtain is forwarded to: what the old version's handles map, other than its own inputs. -/
def State.forwardTo (s : State) (role : Nat) : List (BitVec 32) :=
  let ins := s.inputsOf role
  (((s.role role).cores.flatMap (fun c => (s.core c).handles.filterMap (fun h => match h.2 with
    | .queue id => if s.qidPkg id = s.pkg ∧ ins.contains (qkeyOf id) then none else some id
    | _ => none))).eraseDups)

/-- RECAST_FORWARD (R416 steps 4 and 5): cores that are quiet withdraw what stands; when every core is, and every access
of the old instances is performed, the curtains are forwarded. -/
def execRecastForward (role : Nat) (s : State) :=
  happen (match (s.role role).recast with
    | none => s
    | some r =>
      if r.forwarded then s
      else
        let cs := (s.role role).cores
        let s := cs.foldl (fun s c => if s.quiet role c r.forced then s.updCore c Core.hush else s) s
        if cs.all (fun c => s.quiet role c r.forced && (s.core c).contribs.isEmpty && !(s.core c).outst.any (·.store)) then
          let s := cs.foldl (fun s c => (s.flushPushes c s.nextId).drain c) s
          let outs := s.forwardTo role
          let s := s.updRecast role (fun r => { r with forwarded := true, outputs := outs })
          if outs = [] then (s.updRecast role (fun r => { r with installing := true })).post 0 (.recastInstall role)
          else outs.foldl (fun s id => s.oweCurtain role id) s
        else s.post 64 (.recastForward role))

/-- RECAST_DEADLINE (R418): the old instances that remain are killed, and every input counts as closed. -/
def execRecastDeadline (role : Nat) (s : State) :=
  happen (match (s.role role).recast with
    | none => s
    | some r =>
      if s.now < r.deadline then s.post (r.deadline - s.now) (.recastDeadline role)
      else if r.forwarded ∨ r.forced then s
      else
        let k := (s.role role).cores.foldl (fun (k : Nat × State) c =>
          let x := k.2.killCore c
          (k.1 + x.1, x.2.2)) (0, s)
        k.2.updRecast role (fun r => { r with forced := true, killed := k.1 }))

/-! ## Install (R416 steps 6 and 7) -/

/-- Code and data pages are swapped to their staged frames; the frames they had are free. -/
def State.swapPage (s : State) (dom : BitVec 12) (page frame : Nat) (flags : Word) : State :=
  let old := s.pageFrame dom page
  match s.mapTo dom page frame flags with
  | some s => match old with
    | some o => s.giveFrame o.1
    | none => s
  | none => s

/-- The banks that a role keeps and those it loses, in one ensemble (12 R269). -/
def Ens.recastBanks (e : Ens) (old new : BitVec 32) : Ens := (e.invalidateBanks (old &&& ~~~new)).invalidateBanks (new &&& ~~~old)

/-- Code and data pages of a recast: those of the old version's code that the new one has not are unmapped, the others are
swapped (R416 step 6). -/
def State.installPages (s : State) (live : Role) (r : Recast) (rr : RoleRec) : List Nat × State :=
  let gone := (live.pages.filter (fun v => (pagesOf live.codeVa.toNat live.codeLen).contains v)).filter (fun v => !r.frames.any (fun f => f.1 == v))
  let s := gone.foldl (fun s v => s.unmapPage live.dom v) s
  let s := r.frames.foldl (fun s f => s.swapPage live.dom f.1 f.2 (if rr.codePages.contains f.1 then leafCODE else leafPINNED)) s
  (((live.pages.filter (fun v => !gone.contains v)) ++ r.frames.map Prod.fst).eraseDups, s.invalNow live.dom none)

/-- The slots of the new image, and of the loader's own circuits for it, are set as the routers stand now (R405; log 88). -/
def State.installSlots (s : State) (load : Nat) (p : Placed) (r : Recast) (img : Image) : State :=
  let plan : Plan := { s := s, roles := [p], queues := r.queues, tensors := r.tensors }
  match plan.doSlots img (fun c => (s.core c).handles) with
  | none => s
  | some x => { x.s with loads := x.s.loads.upd {} load (fun l => { l with slots := l.slots ++ x.slots }) }

/-- The rows, handles and resets of the role's cores, and what the other cores of its pool hold for it (18 R382). -/
def State.installCores (s : State) (img : Image) (role : Nat) (p : Placed) (r : Recast) : State :=
  let s := (List.range p.cores.length).foldl (fun s i =>
    let c := (p.cores.getD i (0, 1)).1
    let was := s.core c
    (s.setupCore img r.queues [] [p] 0 p i).updCore c (fun x => { x with members := was.members, index := was.index, pooled := was.pooled })) s
  { s with cores := s.cores.map (fun (c : Nat × Core) => (c.1, { c.2 with pooled := c.2.pooled.map (fun (o : Nat × Tbl Row × Tbl HandleMap) => if o.1 = role then
      (o.1, ((rowsFor img 0 p.role).map (fun (x : Nat × Row) => (x.1, { x.2 with en := false })), s.handleMap r.queues p.role o.2.2 c.1)) else o) })) }

/-- A recast role is installed (R416 step 6): curtain copies that still stand are dropped (R418), pages swapped, rows, handles,
data, tables, tiles, slots and preloads written. A preload that fails leaves its bank invalid. -/
def State.install (s : State) (role : Nat) (r : Recast) (img : Image) (rr : RoleRec) : State :=
  let live := s.role role
  let dom := live.dom
  let p := s.livePlaced role rr
  let p := if rr.auto.isNone then { p with cores := rr.explicit } else { p with cores := p.cores.map (fun c => (c.1, weightOf1 (rr.auto.getD 0))) }
  let drops := s.queues.flatMap (fun q => (q.2.items.filter (fun i => live.cores.contains i.core && s.isCurtainOf role i)).map (fun i => (q.1, i)))
  let s := drops.foldl (fun s d => s.takeCopy d.1 d.2) s
  let bound := live.cores.flatMap s.boundBy
  let (pages, s) := s.installPages live r rr
  let s := s.installSlots live.load p r img
  let s := s.setRole role { live with version := r.version, banks := rr.banks, codeVa := rr.codeVa, codeLen := 4 * rr.code.length, accs := rr.accs,
                                      recast := none, pages := pages }
  let s := (s.installCores img role p r).freeAll bound
  let s := (enssOf (s.carriers role)).foldl (fun s e => s.updEns e (fun y => y.recastBanks live.banks rr.banks)) s
  let s := s.writeData (Config.symbols r.image) (s.symbolValue r.queues [] r.tensors) 0 rr p.ids (fun s _ _ => s)
  let s := (s.recastTiles role rr.accs).getD s
  let s := (s.loadTables img [s.everywhere p] true).getD s
  (preloadsOf img [s.everywhere p]).foldl (fun s x => match s.preloadBank img x.1 dom x.2.1 x.2.2.1 x.2.2.2 with
    | .ok s => s
    | .error _ => s) s

/-- RECAST_INSTALL (R416 steps 6 and 7): the install, once every access under the domain's translations is applied (08 R183);
then the reply. -/
def execRecastInstall (role : Nat) (s : State) :=
  happen (
    match (s.role role).recast with
    | none => s
    | some r => if !r.installing then s else
      match readImage r.image with
      | none => s
      | some img => match img.roles with
        | [rr] => match s.settledDomain (s.role role).dom with
          | none => s.post 64 (.recastInstall role)
          | some t => (t.install role r img rr).replyTo r.call 0 (r.version.toNat + 65536 * satTo 65535 r.killed)
        | _ => s)

end Sys2Proof.Machine
end

