-- ==== Sys2Proof/Machine/Service.lean ====
section
/-!
DEFINITION. The host port (20 R420–R424): submissions, posted writes to a submission page, and replies.
-/
namespace Sys2Proof.Machine

/-- The host's answers to a Deferrable Memory Write (20 R421, R422). -/
abbrev ansSUCCESS : Nat := 0
abbrev ansRETRY : Nat := 1
abbrev ansUNSUPPORTED : Nat := 2

/-- Change the control word of a page's registration (20 Table 20.12). -/
def State.updPage (s : State) (page : Nat) (f : Word → Word) : State := s.devPut (pageReg page 0) (f (s.devGet (pageReg page 0)))

/-- OUTST of a page follows its counts. -/
def State.showOut (s : State) (page : Nat) : State :=
  s.updPage page (fun w => (w &&& ~~~(0xFF#64 <<< 40)) ||| (word (s.pageOut page % 256) <<< 40))

/-- Is the offset one of a submission window's (R421)? -/
def windowAt (offset : Nat) : Bool := offset % 128 == 0 && offset ≤ 0xF7F

/-- The call item of a submission (R422): the record with REPLY and CDOMAIN set. -/
def callItem (page : Nat) (dom : BitVec 12) (r : BitVec 1024) : BitVec 1024 :=
  (r &&& ~~~((0xFFFFFFFFFFFF#1024) <<< 80)) ||| (dom.setWidth 1024 <<< 80) ||| ((hostPath page).setWidth 1024 <<< 96)

/-- What R422 asks of a submission before its queue is asked. -/
def State.submittable (s : State) (page : Nat) (r : BitVec 1024) : Bool :=
  (s.devGet (pageReg page 0)).getLsbD 63 && s.pageOut page < 32 && fieldOf r 111 96 ≤ 5 && fieldOf r 127 112 == 0 && fieldOf r 95 80 == 0

/-- A submission is accepted by its service queue; the pager's takes none (R412). -/
def State.submit (s : State) (page : Nat) (r : BitVec 1024) : Option State :=
  let dom : BitVec 12 := (s.devGet (pageReg page 0)).setWidth 12
  let q := serviceKey (fieldOf r 111 96)
  if !s.submittable page r ∨ fieldOf r 111 96 = 2 then none
  else match s.accept q { tag := 0, data := callItem page dom r } dom true with
    | .ok s => some (({ s with accepted := s.accepted.upd 0 page (· + 1) } : State).showOut page)
    | .error _ => none

/-- The bytes that a host read of a page returns (R421): the page's counts at 0xF80 to 0xFFF, and zero in the windows. A read
changes nothing, and the table has no row for one. What the rest of the counts' 128 bytes read as is open (log 89). -/
def State.hostRead (s : State) (page offset n : Nat) : List Byte :=
  (List.range n).map (fun i =>
    let o := offset + i
    if o < 0xF80 then 0
    else if o < 0xF88 then (word (s.accepted.get 0 page)).extractLsb' (8 * (o - 0xF80)) 8
    else if o < 0xF90 then (word (s.completed.get 0 page)).extractLsb' (8 * (o - 0xF88)) 8
    else (Config.freeWord (s.tick + o)).setWidth 8)

/-- HOST_SUBMISSION (R421, R422). -/
def execHostSubmission (page offset : Nat) (bytes : List Byte) (s : State) :=
  happen (
    if page ≥ 1024 ∨ bytes.length ≠ 128 ∨ !windowAt offset then s.emit (.hostAnswer page ansUNSUPPORTED)
    else match s.submit page (BitVec.ofNat 1024 (natOfBytes bytes)) with
      | some s => s.emit (.hostAnswer page ansSUCCESS)
      | none => s.emit (.hostAnswer page ansRETRY))

/-- HOST_POSTED_WRITE (R421): discarded, and counted in BADWR. -/
def execHostPostedWrite (page offset : Nat) (s : State) :=
  happen (
    if page ≥ 1024 ∨ offset > 0xF7F then s
    else s.updPage page (fun w => (w &&& ~~~(0x7FFF#64 <<< 48)) ||| (word (satTo 0x7FFF (fieldOf w 62 48 + 1)) <<< 48)))

/-- HOST_REPLY (R423): the reply to the completion ring, then NOTIFY to NADDR, then COMPLETED. -/
def execHostReply (page : Nat) (reply : BitVec 128) (s : State) :=
  happen (
    if !(s.devGet (pageReg page 0)).getLsbD 63 then { s with refusals := s.refusals + 1 }
    else
      let n := s.completed.get 0 page
      let s := s.emit (.hostWrite (s.devGet (pageReg page 3) + word (16 * (n % 256))) (bytesOf reply 16))
      let s := s.emit (.hostWrite (s.devGet (pageReg page 2)) (bytesOf (s.devGet (pageReg page 1)) 8))
      ({ s with completed := s.completed.set page (n + 1) } : State).showOut page)

end Sys2Proof.Machine
end

