-- ==== Sys2Proof/Machine/Epochs.lean ====
section
/-!
DEFINITION. The checkpoint service (22 R453, R454): epochs, what they hold, resumption, and its functions.
-/
namespace Sys2Proof.Machine

/-! ## Pages of a domain (08 R170–R172) -/

/-- The entries of a table that are not zero, by index. -/
def State.entriesAt (s : State) (a n : Nat) : List (Nat × Word) :=
  let p := s.redirect a
  (((Memory.cellsIn s.mem p (8 * n)).map (fun c => c.1 / 8)).eraseDups).map (fun i => (i, word (s.peek (p + 8 * i) 8)))

/-- The leaves of a domain: the first page of 64 KiB, whether the leaf is large, the entry, and its place. -/
def State.leavesOf (s : State) (dom : BitVec 12) : List (Nat × Bool × Word × Nat) :=
  let root := s.devGet (rootReg dom)
  if !root.getLsbD 0 then []
  else (s.entriesAt (fieldOf root 39 13 * 8192) 1024).flatMap (fun e1 =>
    if !pteV e1.2 then []
    else (s.entriesAt (ptePA e1.2) 8192).flatMap (fun e2 =>
      if !pteV e2.2 then []
      else if pteLeaf e2.2 then [((e1.1 * 8192 + e2.1) * 512, true, e2.2, ptePA e1.2 + 8 * e2.1)]
      else (s.entriesAt (ptePA e2.2) 512).filterMap (fun e3 =>
        if pteV e3.2 then some ((e1.1 * 8192 + e2.1) * 512 + e3.1, false, e3.2, ptePA e2.2 + 8 * e3.1) else none)))

/-- Where a page of 64 KiB of a domain lies. -/
def State.physPage (s : State) (dom : BitVec 12) (page : Nat) : Option Nat :=
  match s.walk dom (page * frameSize) with
  | .leaf e lvl _ => some (s.redirect (leafPA e (lvl == 2) (page * frameSize)))
  | .stopped _ _ => none

/-- The pieces of a range: place, offset in the range, length. A key below 2^48 is a virtual address of the domain, and
another is a place. -/
def State.pieces (s : State) (dom : BitVec 12) (key n : Nat) : List (Nat × Nat × Nat) :=
  if key < spaceSize then (pagesOf key n).filterMap (fun p =>
    let lo := if p * frameSize < key then key else p * frameSize
    let hi := if (p + 1) * frameSize < key + n then (p + 1) * frameSize else key + n
    (s.physPage dom p).map (fun a => (a + lo % frameSize, lo - key, hi - lo)))
  else [(key, 0, n)]

/-- The listed bytes of a range, by offset. -/
def State.rangeCells (s : State) (dom : BitVec 12) (key n : Nat) : List Host.Cell :=
  (s.pieces dom key n).flatMap (fun p => (Memory.cellsIn s.mem p.1 p.2.2).map (fun c => (c.1 + p.2.1, c.2)))

/-- A range holds these bytes again. -/
def State.rangeRestore (s : State) (dom : BitVec 12) (key n : Nat) (cells : List Host.Cell) : State :=
  (s.pieces dom key n).foldl (fun s p =>
    { s with mem := Memory.restore s.mem p.1 p.2.2 ((cells.filter (fun c => p.2.1 ≤ c.1)).map (fun c => (c.1 - p.2.1, c.2))) }) s

/-! ## Taking an epoch (R453) -/

/-- The formers that serve a domain. -/
def State.formersOf (s : State) (dom : BitVec 12) : List Nat := (List.range 4).filter (fun b => (s.fcfg b).en && (s.fcfg b).dom == dom)

/-- A former is at a step boundary: no merge is in progress, and the samples of its latest step have ended. -/
def State.atBoundary (s : State) (b : Nat) : Bool :=
  let f := s.former b
  let step := (s.fcfg b).step
  f.merge.isNone && (f.sample.isEmpty || f.merged == some step || (f.expired.map Prod.fst) == some step)

/-- An epoch of the load can be taken now: its formers stand at a step boundary, and no role of it recasts. -/
def State.canTake (s : State) (l : Load) : Bool :=
  (s.formersOf l.dom).all s.atBoundary && !l.roles.any (fun r => (s.role r).recast.isSome)

/-- The key of the range that an address word names, for the services. -/
def State.rangeKey (s : State) (addr : Word) : Option Nat := match s.resolve 0 true true addr with
  | some (.virt va) => some va
  | some (.place p) => some p
  | none => none

/-- The records of a load: those of its domain that are not FREE. -/
def State.recordsOf (s : State) (dom : BitVec 12) : List Nat :=
  s.liveRecords.filter (fun i => Record.state (s.record i) != stFREE && Record.domain (s.record i) == dom)

/-- The place of a pool page of a former. -/
def State.poolPlace (s : State) (b k : Nat) : Option Nat :=
  let cfg := s.fcfg b
  match (do
    let a ← pageAddr (serviceActor cfg.dom) cfg k
    unitPlace (serviceActor cfg.dom) a .read) s with
  | .ok (p, s) => some (s.redirect p)
  | .error _ => none

/-- The KV pages of a record up to COMMIT, with their listed bytes. -/
def State.kvSaved (s : State) (i : Nat) : List (Nat × Nat × List Host.Cell) :=
  let r := s.record i
  let b := Record.bf r
  ((s.kvOf b i).take ((Record.commit r + (s.fcfg b).tpp - 1) / (s.fcfg b).tpp)).filterMap (fun k =>
    (s.poolPlace b k).map (fun p => (b, k, Memory.cellsIn s.mem p frameSize)))

/-- The penalty array of a record. -/
def State.penaltySaved (s : State) (i : Nat) : List (Nat × Nat × List Host.Cell) :=
  let r := s.record i
  let n := 2 * (s.fcfg (Record.bf r)).vocab
  if Record.penptr r = 0 then []
  else match s.rangeKey (Record.penptr r) with
    | some k => [(k, n, s.rangeCells (Record.domain r) k n)]
    | none => []

/-- The dirty pages of a domain, with their bytes; a large page as its pages of 64 KiB. -/
def State.dirtySaved (s : State) (dom : BitVec 12) : List (Nat × List Host.Cell) :=
  ((s.leavesOf dom).filter (fun l => pteD l.2.2.1)).flatMap (fun l =>
    (List.range (if l.2.1 then 512 else 1)).map (fun j => (l.1 + j, s.rangeCells dom ((l.1 + j) * frameSize) frameSize)))

/-- D is cleared in every leaf of a domain, with the invalidation of each page (08 R183). -/
def State.clearDirty (s : State) (dom : BitVec 12) : State :=
  ((s.leavesOf dom).filter (fun l => pteD l.2.2.1)).foldl (fun s l =>
    (s.storeNat (s.redirect l.2.2.2) 8 (l.2.2.1 &&& ~~~(0x80#64)).toNat).invalNow dom (some l.1)) s

/-- The record of R441 of a core, which is stopped for it and goes on. -/
def State.ckptCore (s : State) (c : CoreId) : List Byte × State :=
  let r := s.stopCore c
  let bs := r.2.ckptRecord c r.1
  match r.1 with
  | some f => (bs, (r.2.answer c f 0).getD r.2)
  | none => (bs, r.2)

/-! ## The store (R454) -/

/-- Is there a store to write to (R454)? -/
def State.storeOn (s : State) : Bool := !Config.hostStore || (s.devGet (storeReg 2)).getLsbD 0

/-- `n` bytes of a range from its listed ones. -/
def denseBytes (cells : List Host.Cell) (n : Nat) : List Byte := (List.range n).map (fun i => Memory.get cells i)

/-- An epoch as the bytes that stand in the store of an H9-P; the manual gives no layout (log 85). -/
def epochBytes (e : Epoch) : List Byte :=
  let w := fun (n : Nat) => bytesOf (word n) 8
  w e.number ++ w e.pages.length ++ e.pages.flatMap (fun p => w p.1 ++ denseBytes p.2 frameSize) ++
    w e.ranges.length ++ e.ranges.flatMap (fun r => w r.1 ++ w r.2.1 ++ denseBytes r.2.2 r.2.1) ++
    w e.kv.length ++ e.kv.flatMap (fun k => w k.1 ++ w k.2.1 ++ denseBytes k.2.2 frameSize) ++
    w e.records.length ++ e.records.flatMap (fun r => w r.1 ++ bytesOf r.2 256) ++
    w e.ckpt.length ++ e.ckpt.flatMap (fun c => w c.1 ++ w c.2.1 ++ c.2.2) ++
    w e.accepted.length ++ e.accepted.flatMap (fun a => w a.1 ++ w a.2)

/-- A posted write to the host's memory. -/
def State.writeHost (s : State) (addr : Nat) (bs : List Byte) : State :=
  ({ s with hostMem := Memory.setBytes s.hostMem addr bs } : State).emit (.hostWrite (word addr) bs)

/-- A memory read of the host's memory. -/
def State.readHost (s : State) (addr n : Nat) : List Byte × State :=
  (Memory.getBytes s.hostMem addr n, s.emit (.hostRead (word addr) n))

/-- Where the store of an H9-P stands, and its bytes. -/
abbrev State.storeBase (s : State) : Nat := (s.devGet (storeReg 0)).toNat
abbrev State.storeSize (s : State) : Nat := (s.devGet (storeReg 1)).toNat

/-- An entry of the epoch directory: the load, the epoch's number, and where its bytes stand after the first 4 KiB. -/
structure DirEntry where
  load   : Nat
  number : Nat
  off    : Nat
  len    : Nat
  deriving DecidableEq, Repr

/-- The first 4 KiB of the store: the resume request, as load + 1 and epoch, then up to 127 entries of 32 bytes (log 85). -/
def dirBytes (request : Nat × Nat) (d : List DirEntry) : List Byte :=
  let w := fun (n : Nat) => bytesOf (word n) 8
  let bs := w request.1 ++ w request.2 ++ List.replicate 16 0 ++ (d.take 127).flatMap (fun x => w (x.load + 1) ++ w x.number ++ w x.off ++ w x.len)
  bs ++ List.replicate (4096 - bs.length) 0

/-- The directory as it is read. -/
def dirOf (bs : List Byte) : List DirEntry :=
  let w := fun (k : Nat) => natOfBytes ((bs.drop (8 * k)).take 8)
  (List.range 127).filterMap (fun i => if w (4 + 4 * i) = 0 then none else
    some { load := w (4 + 4 * i) - 1, number := w (5 + 4 * i), off := w (6 + 4 * i), len := w (7 + 4 * i) })

/-- The resume request as it is read. -/
def requestOf (bs : List Byte) : Nat × Nat := (natOfBytes (bs.take 8), natOfBytes ((bs.drop 8).take 8))

/-- Where the next epoch goes: after the last, or at the front again; none when the store is too small for it. -/
def placeEpoch (room len : Nat) (d : List DirEntry) : Option Nat :=
  let last := (d.getLast?.map (fun x => x.off + x.len)).getD 0
  if last + len ≤ room then some last else if len ≤ room then some 0 else none

/-- An epoch is kept: on an H9-P it is written to the host's memory, and entered in the directory once it stands there; epochs
that it overwrites are gone. True: it is complete. -/
def State.keepEpoch (s : State) (n : Nat) (e : Epoch) : Bool × State :=
  let kept := { s with store := s.store.upd {} n (fun x => { x with last := s.now, epochs := x.epochs ++ [e] }) }
  if !Config.hostStore then (true, kept)
  else
    let (dir, s) := kept.readHost kept.storeBase 4096
    let bs := epochBytes e
    match placeEpoch (s.storeSize - 4096) bs.length (dirOf dir) with
    | none => (false, s)
    | some off =>
      let d := ((dirOf dir).filter (fun x => x.off + x.len ≤ off || off + bs.length ≤ x.off)) ++
        [{ load := n, number := e.number, off := off, len := bs.length }]
      (true, (s.writeHost (s.storeBase + 4096 + off) bs).writeHost s.storeBase (dirBytes (requestOf dir) (d.drop (d.length - 127))))

/-- The epochs of a load that the store holds: on an H9-P, those of the directory whose bytes the host has kept. -/
def State.epochsOf (s : State) (n : Nat) : List Epoch × State :=
  let all := (s.store.get {} n).epochs
  if !Config.hostStore then (all, s)
  else
    let (dir, s) := s.readHost s.storeBase 4096
    ((dirOf dir).filter (fun d => d.load == n)).foldl (fun r d =>
      let (bs, s) := r.2.readHost (s.storeBase + 4096 + d.off) d.len
      (r.1 ++ all.filter (fun e => e.number == d.number && epochBytes e == bs), s)) ([], s)

/-- Take an epoch of a load: its number, 0 when the store cannot hold it, and the state. -/
def State.takeEpoch (s : State) (n : Nat) (l : Load) : Nat × State :=
  let saved := s.store.get {} n
  let last := saved.epochs.getLast?
  let cores := (List.range l.roles.length).flatMap (fun j => (s.role (l.roles.getD j 0)).cores.map (fun c => (j, c)))
  let r := cores.foldl (fun (r : List (Nat × Nat × List Byte) × State) x =>
    let k := r.2.ckptCore x.2
    (r.1 ++ [(x.1, (s.core x.2).index, k.1)], k.2)) ([], s)
  let recs := s.recordsOf l.dom
  let e : Epoch :=
    { number := (last.map Epoch.number).getD 0 + 1,
      pages := (s.dirtySaved l.dom).foldl (fun t p => Tbl.set t p.1 p.2) ((last.map Epoch.pages).getD []),
      ranges := recs.flatMap s.penaltySaved, kv := recs.flatMap s.kvSaved, records := recs.map (fun i => (i, s.record i)),
      formers := (s.formersOf l.dom).map (fun b => (b, s.former b)), ckpt := r.1,
      accepted := s.accepted.filter (fun a => (s.devGet (pageReg a.1 0)).setWidth 12 == l.dom) }
  let k := (r.2.clearDirty l.dom).keepEpoch n e
  (if k.1 then e.number else 0, k.2)

/-- An epoch is taken once the load stands at a step boundary and every access under its domain's translations is applied: the
stores that its cores issued before their saved pc stand in its pages (R453; 08 R183). -/
def State.tryEpoch (s : State) (n : Nat) (l : Load) : Option (Nat × State) :=
  if s.canTake l then (s.settledDomain l.dom).map (fun s => s.takeEpoch n l) else none

/-- The load a checkpoint call names, when it lives and there is a store. -/
def State.savable (s : State) (n : Nat) : Option Load := if s.storeOn then Tbl.find? s.loads n else none

/-- The load that another package takes an epoch of. -/
def takeWord : SvcMsg → Option (BitVec 12 × Nat)
  | .take origin serial => some (origin, serial)
  | _ => none

/-- TAKE (R453, R454): it waits for the step boundary; a recast answers its CKPT events BUSY (R456). The other packages of the
load take theirs. -/
def execTake (s : State) :=
  happen (match s.peerWord takeWord with
    | some (p, t) => match t.loadFrom p.1 p.2 with
      | none => t
      | some l => if !t.storeOn then t else match t.tryEpoch l.1 l.2 with
        | some r => r.2
        | none => s.post 64 .take
    | none => s.serve (serviceKey 4) .take (fun f => f ≠ 2 ∧ f ≠ 3 ∧ f ≠ 4) (fun call t =>
      let n := argOf call 0 2
      if callFunc call ≠ 1 then t.replyTo call stBADCALL 0
      else match t.savable n with
        | none => t.replyTo call stNOSUCH 0
        | some l =>
          if l.roles.any (fun r => (t.role r).recast.isSome) then t.replyTo call stBUSY 0
          else match t.tryEpoch n l with
            | none => s.post 64 .take
            | some r =>
              let u := (l.packages.filter (· ≠ t.pkg)).foldl (fun u p => u.send p (.service (.take l.origin l.serial))) r.2
              u.replyTo call (if r.1 = 0 then stNOSUCH else 0) r.1))

/-- EPOCH (R453, R454): 0 when none is complete. -/
def execEpoch (s : State) :=
  happen (s.serve (serviceKey 4) .epoch (· = 2) (fun call s =>
    let n := argOf call 0 2
    if !s.storeOn then s.replyTo call 0 0
    else match Tbl.find? s.store n with
      | none => s.replyTo call stNOSUCH 0
      | some _ =>
        let r := s.epochsOf n
        r.2.replyTo call 0 ((r.1.getLast?.map Epoch.number).getD 0)))

/-- PERIOD (R453, R454): epochs come at the new period from now on. -/
def execPeriod (s : State) :=
  happen (s.serve (serviceKey 4) .period (· = 4) (fun call s =>
    let n := argOf call 0 2
    let ms := argOf call 2 4
    match s.savable n with
    | none => s.replyTo call stNOSUCH 0
    | some _ =>
      if ms < 100 ∨ ms > 60000 then s.replyTo call stBADCALL 0
      else
        let s := { s with store := s.store.upd {} n (fun x => { x with period := ms }), happenings := s.happenings.filter (fun h => h.2 != .epochTimer n) }
        (State.post s (msCycles ms) (.epochTimer n)).replyTo call 0 0))

/-- EPOCH_TIMER (R453): an epoch every PERIOD, at a step boundary. -/
def execEpochTimer (n : Nat) (s : State) :=
  happen (match Tbl.find? s.loads n with
    | none => s
    | some l =>
      let period := msCycles (s.store.get {} n).period
      if !s.storeOn then s.post period (.epochTimer n)
      else match s.tryEpoch n l with
        | none => s.post 64 (.epochTimer n)
        | some r => r.2.post period (.epochTimer n))

/-! ## Resumption (R453) -/

/-- A domain has a page table. -/
def State.ensureRoot (s : State) (dom : BitVec 12) : State :=
  if (s.devGet (rootReg dom)).getLsbD 0 then s
  else match s.takeFrame with
    | some (f, s) => s.devPut (rootReg dom) (word (f * frameSize + 1))
    | none => s

/-- A saved page is mapped, and holds what it held. -/
def State.restorePage (s : State) (dom : BitVec 12) (p : Nat × List Host.Cell) : State :=
  let s := if s.pageMapped dom p.1 then s else (s.mapPage dom p.1 leafPLAIN).getD s
  s.rangeRestore dom (p.1 * frameSize) frameSize p.2

/-- The instance of a record of R441, on a core: its registers from the frame, its lanes granted again with free
contents. -/
def State.restoreInstance (s : State) (c : CoreId) (bs : List Byte) : State :=
  let dw := fun (i : Nat) => word (natOfBytes ((bs.drop (8 * i)).take 8))
  let st := dw 17
  let k : Ens := s.ens (ensOf c)
  let blocks := ((List.range 16).filter (fun b => !k.taken.getLsbD b)).take (fieldOf st 23 16 / 16)
  let vl := 16 * blocks.length
  let role := (s.core c).role.getD 0
  let h : Held :=
    { inst := { id := s.nextId, row := st.setWidth 6, prio := st.extractLsb' 6 3, eff := st.extractLsb' 9 3, source := st.extractLsb' 12 3,
                preempted := st.getLsbD 15, parks := st.extractLsb' 40 8, claimed := vl ≠ 0, readySince := s.now,
                version := (s.role role).version, role := role },
      st := .ready, frame := some frameS, pc := dw 0, sregs := Vector.ofFn (fun i : Fin 16 => if i.val = 0 then 0 else dw i.val),
      nflags := dw 16, vl := vl,
      vregs := Vector.ofFn (fun r : Fin 32 => (List.range vl).map (fun i => (Config.freeWord (s.tick + 128 * r.val + i)).setWidth 32)),
      masks := Vector.ofFn (fun m : Fin 8 => if m.val = 0 then 0 else BitVec.ofNat 128 (natOfBytes ((bs.drop (144 + 16 * (m.val - 1))).take 16))),
      blocks := blocks }
  let s := s.setEns (ensOf c) { k with taken := blocks.foldl (fun t b => t ||| (1#16 <<< b)) k.taken }
  let s := s.updCore c (fun x => { x with held := x.held ++ [h] })
  ({ s with nextId := s.nextId + 1, tick := s.tick + 4096 } : State).saveFrame c h

/-- A core's record is restored: the instance it stopped, s16–s31 and NMODE. -/
def State.restoreCore (s : State) (c : CoreId) (bs : List Byte) : State :=
  let dw := fun (i : Nat) => word (natOfBytes ((bs.drop (8 * i)).take 8))
  let s := s.updCore c (fun x => { x with nmode := dw 48, regs := Vector.ofFn (fun i : Fin 32 => if i.val < 16 then x.regs[i.val] else dw (32 + i.val - 16)) })
  if (bs.take 256).all (· == 0) then s else s.restoreInstance c bs

/-- COMPLETED after ACCEPTED returns to its epoch value: calls that are never answered leave OUTST within 0–32. -/
def resumedCompleted (accepted completed : Nat) : Nat := if completed ≤ accepted ∧ accepted - completed ≤ 32 then completed else accepted

/-- Restore an epoch over a load that is placed anew. -/
def State.restoreEpoch (s : State) (l : Load) (e : Epoch) : State :=
  let s := e.pages.foldl (fun s p => s.restorePage l.dom p) s
  let s := e.ranges.foldl (fun s r => s.rangeRestore l.dom r.1 r.2.1 r.2.2) s
  let s := (s.recordsOf l.dom).foldl (fun s i => s.setRecord i (Record.setState (s.record i) stFREE)) s
  let s := e.records.foldl (fun s r => s.setRecord r.1 r.2) s
  let s := { s with formers := e.formers.foldl (fun t f => Tbl.set t f.1 f.2) s.formers }
  let s := e.kv.foldl (fun s k => match s.poolPlace k.1 k.2.1 with
    | some p => { s with mem := Memory.restore s.mem p frameSize k.2.2 }
    | none => s) s
  let s := e.ckpt.foldl (fun s x => match (s.role (l.roles.getD x.1 0)).cores.find? (fun c => (s.core c).index == x.2.1) with
    | some c => s.restoreCore c x.2.2
    | none => s) s
  e.accepted.foldl (fun (s : State) a =>
    ({ s with accepted := s.accepted.set a.1 a.2, completed := s.completed.set a.1 (resumedCompleted a.2 (s.completed.get 0 a.1)) } : State).showOut a.1) s

/-- Resume a load from an epoch: its image placed anew under its serial, then the epoch restored; or a status, 0 to wait. -/
def State.resumeLoad (s : State) (n number : Nat) : Except Nat State :=
  match Tbl.find? s.store n with
  | none => .error stNOSUCH
  | some x =>
    let (epochs, s) := s.epochsOf n
    match epochs.find? (fun e => e.number == number), s.settledDomain x.dom with
    | none, _ => .error stNOSUCH
    | some _, none => .error 0
    | some e, some s =>
      let t := if (Tbl.find? s.loads n).isSome then s.removeLoad n else s
      match (t.ensureRoot x.dom).place x.image x.dom n 0 with
      | .error st => .error st
      | .ok p =>
        let u := p.keep x.image x.dom n x.packages x.origin x.serial
        let u := u.restoreEpoch (u.loads.get {} n) e
        let u := { u with happenings := u.happenings.filter (fun h => h.2 != .epochTimer n) }
        .ok (State.post u (msCycles x.period) (.epochTimer n))

/-- The other packages of a saved load are told to roll back to an epoch. -/
def State.tellResume (s : State) (x : Saved) (epoch : Nat) : State :=
  (x.packages.filter (· ≠ s.pkg)).foldl (fun s p => s.send p (.service (.resume x.origin x.serial epoch))) s

/-- The resume request in the first 4 KiB of an H9-P's store is taken up (R452 step 5, R454). -/
def State.fetchRequest (s : State) : State :=
  if Config.hostStore && s.storeOn then
    let (dir, s) := s.readHost s.storeBase 4096
    let r := requestOf dir
    if r.1 = 0 then s else ({ s with resumeReq := s.resumeReq ++ [(r.1 - 1, r.2)] } : State).writeHost s.storeBase (dirBytes (0, 0) (dirOf dir))
  else s

/-- A request in the store is resumed (R452 step 5); one that cannot be is dropped. -/
def State.resumeNext (s : State) (r : Nat × Nat) : State :=
  match s.resumeLoad r.1 r.2 with
  | .error 0 => s.post 64 .resume
  | .error _ => ({ s with resumeReq := s.resumeReq.drop 1 } : State).post 0 .resume
  | .ok u => ({ u with resumeReq := u.resumeReq.drop 1 } : State).post 0 .resume

/-- RESUME, a call (R453, R454). -/
def State.resumeCall (s t : State) (call : BitVec 1024) : State :=
  let n := argOf call 0 2
  let epoch := argOf call 8 8
  if !t.storeOn then t.replyTo call stNOSUCH 0
  else match t.resumeLoad n epoch with
    | .error 0 => s.post 64 .resume
    | .error st => t.replyTo call st 0
    | .ok u => (u.tellResume (t.store.get {} n) epoch).replyTo call 0 0

/-- The load, and the epoch of it, that another package rolls back to. -/
def resumeWord : SvcMsg → Option (BitVec 12 × Nat × Nat)
  | .resume origin serial epoch => some (origin, serial, epoch)
  | _ => none

/-- RESUME (R452–R454): another package's load of several rolls back here too; else the store's request comes before a call. -/
def execResume (s : State) :=
  happen (match s.peerWord resumeWord with
    | some (p, t) => match List.find? (fun (x : Nat × Saved) => x.2.origin == p.1 && x.2.serial == p.2.1) t.store with
      | none => t
      | some x => if !t.storeOn then t else match t.resumeLoad x.1 p.2.2 with
        | .error 0 => s.post 64 .resume
        | .error _ => t
        | .ok u => u
    | none =>
      let u := s.fetchRequest
      match (if u.storeOn then u.resumeReq else []) with
      | r :: _ => u.resumeNext r
      | [] => u.serve (serviceKey 4) .resume (· = 3) (fun call t => u.resumeCall t call))

/-- Requests to resume the latest complete epoch of each load that meets a condition (R447, R455). -/
def State.resumeLatest (s : State) (f : Nat → Saved → Bool) : State :=
  if !s.storeOn then s
  else
    let s := (List.filter (fun (x : Nat × Saved) => f x.1 x.2) s.store).foldl (fun (s : State) x =>
      let r := s.epochsOf x.1
      match r.1.getLast? with
      | some e => { r.2 with resumeReq := r.2.resumeReq ++ [(x.1, e.number)] }
      | none => r.2) s
    if s.resumeReq = [] then s else s.postOnce 0 .resume

end Sys2Proof.Machine
end

