-- ==== Sys2Proof/Machine/Fetch.lean ====
section
/-!
DEFINITION. Fetching an instruction (02 R28, R31, R35; 05 R114), the encoding that is no instruction (02 R41), and whose
turn it is (log 3).
-/
namespace Sys2Proof.Machine

/-! ## Fetch -/

/-- The role's code pages (05 R114). -/
def Role.inCode (r : Role) (va : Nat) : Bool := r.codeVa.toNat ≤ va && va < r.codeVa.toNat + (r.codeLen + 65535) / 65536 * 65536

/-- One word of the instruction stream: the checks of R15, the code pages, execute permission, translation. -/
def fetchAt (addr : Word) : Op IWord := do
  let s ← getState
  match s.resolve s.cur (s.coreSvc s.cur) true addr with
  | some (.virt va) => do
    check ((s.coreRole s.cur).inCode va) cACCESS addr
    let pa ← translateIn (s.coreDom s.cur) (.virt va) .fetch addr
    let v ← readPlace pa 4 addr (s.coreDom s.cur)
    pure (BitVec.ofNat 32 v)
  | _ => trap cACCESS addr

/-- What stands at an address: the instruction that the decoder reads there, or the encoding that it rejects. -/
noncomputable def fetchInstr (pc : Word) : Op Instr := do
  let w ← fetchAt pc
  if takesTwo w then
    let w2 ← fetchAt (pc + 4)
    match decodeLong w w2 with
    | .ok i => pure i
    | .error _ => pure (.illEncoding w (some w2))
  else if isPrefix w then pure (.illEncoding w none)
  else match decodeShort w with
    | .ok i => pure i
    | .error _ => pure (.illEncoding w none)

/-- ILL_ENCODING (02 R41): ILL with the word, or the prefix in [31:0] and the second word in [63:32]. -/
def execIllEncoding (w : IWord) (w2 : Option IWord) (s : State) :=
  run (trap cILL (match w2 with
    | some x => x ++ w
    | none => w.setWidth 64)) s

/-! ## Turns -/

/-- A happening of the hardware or the environment, not an instruction of a core. -/
noncomputable def isEvent (i : Instr) : Bool := match i with
  | .illEncoding _ _ => false
  | i => (encode i).isEmpty

/-- The pending happening that is due first, by its place. -/
def State.firstDue (s : State) : Option Nat :=
  ((List.range s.happenings.length).foldl (fun (best : Option (Nat × Nat)) k => match s.happenings[k]? with
    | some h => if h.1 ≤ s.now then
        match best with
        | some b => if h.1 < b.2 then some (k, h.1) else best
        | none => some (k, h.1)
      else best
    | none => best) none).map (·.1)

/-- The cores that run a role, in the order of their numbers. -/
def State.roleCores (s : State) : List CoreId := (s.cores.filter (fun c => c.2.role.isSome)).map (·.1)

/-- The core with a role after `cur`, in turn. -/
def State.nextCore (s : State) : Option CoreId := match s.roleCores.find? (fun c => c > s.cur) with
  | some c => some c
  | none => s.roleCores.head?

/-- Whose turn it is when nothing is scheduled: the first happening due and the cores alternate. -/
def State.defaultTurn (s : State) : Option Turn := match s.firstDue, s.nextCore with
  | some k, some c => if s.tick % 2 = 0 then some (.pending k) else some (.core c)
  | some k, none => some (.pending k)
  | none, some c => some (.core c)
  | none, none => none

/-- The turn, and the state with it taken from the schedule. -/
def State.takeTurn (s : State) : Option Turn × State := match s.schedule with
  | t :: rest => (some t, { s with schedule := rest })
  | [] => (s.defaultTurn, s)

/-- The core creates an instance if it can, and dispatches when it is idle (04 R83, R87). -/
def State.housekeep (s : State) (c : CoreId) : State := ((s.create c).getD s).dispatch c

end Sys2Proof.Machine
end

