-- ==== Sys2Proof/Machine/LongForm.lean ====
section
/-!
DEFINITION. The IX long forms (02 R33): the functions of the short words with a 32-bit immediate or displacement, as
one instruction of 8 bytes (R35).
-/
namespace Sys2Proof.Machine

/-- A function with an immediate of 32 bits, sign-extended. `d` and `a` are the fields [25:21] and [20:16]. -/
def ixOp (op : IxOp) (d a : Reg) (imm : Word) : Op Unit :=
  match op with
  | .addi => aluImm 8 d a (addImm · imm)
  | .andi => aluImm 8 d a (· &&& imm)
  | .ori => aluImm 8 d a (· ||| imm)
  | .xori => aluImm 8 d a (· ^^^ imm)
  | .slti => aluImm 8 d a (sltImm · imm)
  | .sltiu => aluImm 8 d a (sltuImm · imm)
  | .beq => branch 8 imm d a (· == ·)
  | .bne => branch 8 imm d a (· != ·)
  | .blt => branch 8 imm d a (fun x y => x.slt y)
  | .bge => branch 8 imm d a (fun x y => !x.slt y)
  | .bltu => branch 8 imm d a (fun x y => x.ult y)
  | .bgeu => branch 8 imm d a (fun x y => !x.ult y)
  | .jalr => jumpReg 8 imm d a
  | .ldB => straight 8 (loadInto d a imm 1 true)
  | .ldH => straight 8 (loadInto d a imm 2 true)
  | .ldW => straight 8 (loadInto d a imm 4 true)
  | .ldD => straight 8 (loadInto d a imm 8 true)
  | .ldBu => straight 8 (loadInto d a imm 1 false)
  | .ldHu => straight 8 (loadInto d a imm 2 false)
  | .ldWu => straight 8 (loadInto d a imm 4 false)
  | .ldQ => straight 8 (loadPair d a imm)
  | .stB => straight 8 (storeVal d a imm 1)
  | .stH => straight 8 (storeVal d a imm 2)
  | .stW => straight 8 (storeVal d a imm 4)
  | .stD => straight 8 (storeVal d a imm 8)
  | .stQ => straight 8 (storeVal d a imm 16)

/-- R33. -/
def execIxLongForm (op : IxOp) (d a : Reg) (i : BitVec 32) (s : State) := run (ixOp op d a (i.signExtend 64)) s

end Sys2Proof.Machine
end

