-- ==== Sys2Proof/Machine/Reliability.lean ====
section
/-!
DEFINITION. Storage errors, self-tests and retirement, retention, monitors, power, package failure, start-up (22
R442–R455), and register writes (00 R5).
-/
namespace Sys2Proof.Machine

/-! ## Self-tests (R446) -/

/-- The core that an array of kind 0 belongs to: an understudy's is the core in whose place it stands (R447). -/
def State.arrayCore (s : State) (n : Nat) : Option CoreId :=
  let base := n / 2 ^ 13 * 4096 + n / 512 % 16 * 256
  (List.range 256).map (base + ·) |>.find? (fun c => s.coreArray c == n)

/-- The code word of an array that an error's address names (Table 22.6): the array offset for kinds 3–6, a place otherwise,
found by a walk of the error's domain where the address is virtual (log 71). -/
def State.wordOf (s : State) (kind n : Nat) (addr : Word) (dom : BitVec 12) : Nat :=
  let inArray := fun (p : Nat) => ((s.codeWords (s.redirect p) 1).find? (fun w => w.1 == kind && w.2.1 == n)).map (·.2.2)
  let found : Option Nat := if 3 ≤ kind ∧ kind ≤ 6 then none else match s.resolve 0 true true addr with
    | some (.place p) => inArray p
    | some (.virt va) => match s.walk dom va with
      | .leaf e lvl _ => inArray (leafPA e (lvl == 2) va)
      | .stopped _ _ => none
    | none => none
  found.getD (fieldOf addr 39 0)

/-- The row of an array in which an error stands. -/
def State.errorRow (s : State) (kind n : Nat) (addr : Word) (dom : BitVec 12) : Nat := Config.rowOf kind n (s.wordOf kind n addr dom)

/-- The row logged another corrected error in the previous 60 s: an older entry of the log says so (R446). -/
def State.repeated (s : State) (x : EccErr) : Bool :=
  (List.range 3).any (fun i =>
    let r := logReg x.kind.toNat x.n (i + 1)
    let w := s.devGet (r + 1)
    fieldOf w 31 0 != 0 && fieldOf (s.devGet r) 63 62 == 0 && decide (s.time ≤ (s.devGet (r + 2)).toNat + 60000000000) &&
      s.errorRow x.kind.toNat x.n (s.devGet (r + 3)) (w.extractLsb' 36 12) == s.errorRow x.kind.toNat x.n x.addr x.domain)

/-- The TCM word that an error's address names in a core. -/
def State.lostWord (s : State) (c : CoreId) (addr : Word) : List Nat := match s.resolve c true true addr with
  | some (.place p) => if placeSpace p = 3 ∧ placeCore p = c then [p % 2 ^ 14 / 8] else []
  | _ => []

/-- A self-test starts, of a core or of the row of memory; an error in a row or a core that is under test makes that test
report lasting (R456). A core is stopped for it. Its verdict is free. -/
def State.startTest (s : State) (x : EccErr) (core : Option CoreId) : State :=
  let row := s.errorRow x.kind.toNat x.n x.addr x.domain
  let same := fun (t : Test) => match core with
    | some c => t.core == some c && !t.ended
    | none => t.core.isNone && t.kind == x.kind && t.n == x.n && t.row == row
  if s.tests.any same then { s with tests := s.tests.map (fun t => if same t then { t with again := true } else t) }
  else
    let id := s.nextId
    let r : Option Nat × State := match core with
      | some c => s.stopCore c
      | none => (none, s)
    let lost := match core with
      | some c => if x.fatal then s.lostWord c x.addr else []
      | none => []
    let t : Test := { id := id, kind := x.kind, n := x.n, core := core, frame := r.1, lost := lost, again := false, row := row,
                      count := (s.dev.get 0 (countKey x.kind.toNat x.n)).toNat, ended := false }
    let s := { r.2 with nextId := id + 1, tick := s.tick + 1, tests := r.2.tests ++ [t] }
    State.post s (if core.isSome then 300000 else 0) (.selfTestEnd id (Config.freeChoice (s.tick - 1)))

/-- TESTED and LASTING of the entry that a test was for, while the log still holds it: its COUNT names it. -/
def State.markTested (s : State) (kind n count : Nat) (lasting : Bool) : State :=
  match (List.range 4).find? (fun i => fieldOf (s.devGet (logReg kind n i + 1)) 31 0 == count && count != 0) with
  | some i => s.devPut (logReg kind n i) (s.devGet (logReg kind n i) ||| (if lasting then 3#64 <<< 59 else 1#64 <<< 60))
  | none => s

/-- Where the spare rows of a bank are counted. -/
def spareKey (kind n row : Nat) : Nat := (kind * 2 ^ 24 + n) * 2 ^ 40 + Config.bankOf kind n row

/-- A row of memory is lasting bad: a spare row of its bank takes its place for good, or the bank is marked unusable; HBM uses
its own repair. -/
def State.mendRow (s : State) (kind n row : Nat) : State :=
  let key := spareKey kind n row
  if kind = 7 then s
  else if kind ≠ 0 ∧ s.spares.get 0 key < 4 then { s with spares := s.spares.upd 0 key (· + 1) }
  else { s with unusable := (s.unusable ++ [(kind, n)]).eraseDups }

/-- SELF_TEST_END (R446): a transient fault leaves everything as it was; a lasting one takes a spare row, marks its bank
unusable, or retires its core. -/
def execSelfTestEnd (id : Nat) (lasting : Bool) (s : State) :=
  happen (match s.tests.find? (fun t => t.id == id && !t.ended) with
    | none => s
    | some t =>
      let bad := lasting || t.again
      let s := s.markTested t.kind.toNat t.n t.count bad
      let rest := { s with tests := s.tests.filter (fun x => x.id ≠ id) }
      match t.core with
      | some c =>
        if bad then ({ s with tests := s.tests.map (fun x => if x.id = id then { x with ended := true } else x) } : State).post 0 (.coreRetire c t.lost)
        else match t.frame with
          | some f => (State.answer rest c f 0).getD rest
          | none => rest
      | none => if bad then State.mendRow rest t.kind.toNat t.n t.row else rest)

/-! ## Errors met (R442, R443, Table 22.5) -/

/-- A queue item that is lost becomes POISON with payload zero, in its place (06 R155); a service takes a lost call as one
of no function it has. -/
def State.poisonAt (s : State) (q : QKey) (k : Nat) (spilled : Bool) : State :=
  let x := s.queue q
  let p : Item := { tag := tagPOISON, data := 0 }
  let s := s.setQueue q (if spilled then { x with spill := x.spill.modify k (fun _ => p) }
                         else { x with items := x.items.modify k (fun i => { i with item := p }) })
  if 500 ≤ q ∧ q < 506 then (match callEvent (q - 500) 0 with
    | some e => s.post 0 e
    | none => s) else s

/-- A core's masked write or contribution that is on its way finds its word bad: it is discarded, the oldest first, and the
word stays as it is. -/
def State.dropMasked (s : State) (c : CoreId) : State :=
  let x := s.core c
  match x.stbuf.find? (fun e => !e.plain) with
  | some e => (s.setCore c { x with stbuf := x.stbuf.filter (fun y => y.id ≠ e.id) }).wakeOrder c
  | none => (s.setCore c { x with contribs := x.contribs.drop 1 }).wakeOrder c

/-- Words of an array are bad from now on, as each access to them finds; the error is in the log already. -/
def State.spoil (s : State) (ws : List (Nat × Nat × Nat)) : State :=
  { s with injected := s.injected ++ ws.map (fun w => { kind := BitVec.ofNat 3 w.1, n := w.2.1, word := w.2.2, fatal := true, inj := false }) }

/-- The code words of request record i, in the primary or the mirror (01 R16; 18 R361). -/
def recordWords (i : Nat) (copy : Nat) : List (Nat × Nat × Nat) := (List.range 32).map (fun k => (6, copy, 32 * i + k))

/-- The effect of an uncorrectable error where it is met. -/
def State.lose (s : State) (x : EccErr) : State :=
  match x.site with
  | .access c => if (s.core c).cond = .running then s.takeFault c cECC x.addr else s
  | .masked c => (s.dropMasked c).report c cECC x.addr x.addr
  | .met c => s.report c cECC x.addr x.addr
  | .item q k spilled => s.poisonAt q k spilled
  | .bank e name => s.updEns e (fun y => match Tbl.find? y.banks name with
      | some b => { y with banks := y.banks.set name { b with bad := true } }
      | none => y)
  | .frame c f => match (s.core c).held.find? (fun h => h.frame == some f) with
    | some h => s.faultHeld c h cECC x.addr
    | none => s
  | .pte pa => s.spoil (s.codeWords (s.redirect pa.toNat) 8)
  | .record i both => if both then s.spoil (recordWords i 0 ++ recordWords i 1) else s
  | .row _ | .scrub => s
  | .held id => match s.hold.find? (fun h => h.id == id) with
    | some h => ({ s with hold := s.hold.filter (fun y => y.id ≠ id) } : State).discardHeld h.req cCUEBAD
    | none => s
  | .cue slot => match (s.cue slot).st with
    | .pending => s.settleCue (s.pkg.setWidth 32 <<< 20 ||| BitVec.ofNat 32 slot <<< 8 ||| (s.cue slot).gen.setWidth 32) false
    | _ => s

/-- The core that a test after an uncorrectable error concerns: an error in kind 0, or in a binding row. -/
def State.testedCore (s : State) (x : EccErr) : Option CoreId := match x.site with
  | .row c => some c
  | _ => if x.kind = 0 ∧ x.fatal then s.arrayCore x.n else none

/-- Is e an injected error of the word that an error names? -/
def State.injectedWith (s : State) (x : EccErr) (e : Bad) : Bool :=
  e.inj && e.kind == x.kind && e.n == x.n && e.word == s.wordOf x.kind.toNat x.n x.addr x.domain

/-- ECC_ERROR (R442–R444, R446): logged; corrected and written back, or its uncorrectable effect; a self-test unless it was
injected. With an injected error at one word it makes one entry, with INJ = 1, and no test (R456). -/
def execEccError (x : EccErr) (s : State) :=
  happen (
    let there := s.injectedWith x
    let inj := x.inj || s.injected.any there
    let s := s.logError x.kind.toNat x.n (if x.fatal then 1 else 0) inj x.addr x.synd x.domain
    let s := if x.fatal then s.lose x else s
    let s := if !inj && (x.fatal || s.repeated x) then s.startTest x (s.testedCore x) else s
    if x.fatal then s else { s with injected := s.injected.filter (fun e => e.fatal || !there e) })

/-- ERROR_LOG_CLEAR (R443). -/
def execErrorLogClear (kind : BitVec 3) (n entry : Nat) (s : State) :=
  happen (if n < arrayCount kind.toNat ∧ entry < 4 then s.devWrite (logReg kind.toNat n entry) (BitVec.allOnes 64) 0 else s)

/-- INJECTION_ARM (R444). -/
def execInjectionArm (kind : BitVec 3) (n : Nat) (v : Word) (s : State) :=
  happen (if n < arrayCount kind.toNat then s.devWrite (injReg kind.toNat n) (BitVec.allOnes 64) v else s)

/-! ## Retirement (R447) -/

/-- Every instance of a core is terminated with ECC. -/
def State.eccAll (s : State) (c : CoreId) : State :=
  let s := if (s.core c).cond = .idle then s else s.takeFault c cECC s.openDetail
  (s.core c).held.foldl (fun s h => s.faultHeld c h cECC s.openDetail) s

/-- A lost TCM word reads zero, is reported with ECC, and ends the instance whose frame it lies in. -/
def State.loseWord (s : State) (c : CoreId) (w : Nat) : State :=
  let p := tcmPlace c (8 * w)
  let s := { s with mem := Memory.setBytes s.mem p (List.replicate 8 0) }
  let s := State.report s c cECC (0xFFF3000000000000 + word (p % spaceSize)) (0xFFF3000000000000 + word (p % spaceSize))
  match (s.core c).held.find? (fun h => match h.frame with
    | some f => frameOffset (s.core c).frames f ≤ 8 * w && 8 * w < frameOffset (s.core c).frames f + 256
    | none => false) with
  | some h => s.faultHeld c h cECC (0xFFF3000000000000 + word (p % spaceSize))
  | none => s

/-- The entries of an error log, with its count, are copied to another array of kind 0 (R447 step 3). -/
def State.copyLog (s : State) (old new : Nat) : State :=
  let s := s.devPuts (logReg 0 new 0) (s.devGets (logReg 0 old 0) 16)
  { s with dev := s.dev.set (countKey 0 new) (s.dev.get 0 (countKey 0 old)) }

/-- The words of a core's array are read to be copied: a correctable error is corrected and logged, and the others are lost
(R447 step 3). -/
def State.readOut (s : State) (c : CoreId) : List Nat × State :=
  let a := s.coreArray c
  let mine := s.injected.filter (fun e => e.kind == 0 && e.n == a)
  let s := mine.foldl (fun s e => s.logError 0 a (if e.fatal then 1 else 0) e.inj (s.globalOf (tcmPlace c (8 * e.word))) (s.openDetail.setWidth 16) 0) s
  ((mine.filter (·.fatal)).map (·.word), { s with injected := s.injected.filter (fun e => !(e.kind == 0 && e.n == a)) })

/-- The instances that a core's test and its retirement stopped resume. -/
def State.answerAll (s : State) (c : CoreId) (fs : List (Option Nat)) : State :=
  (fs.filterMap id).eraseDups.foldl (fun s f => (s.answer c f 0).getD s) s

/-- An understudy of the cluster takes a core's state and place. DESIGN CHOICE (log 97): RETIRED, CYCLE, DBGCTL and DBGQ, which R447's
list does not name, go on with their values. -/
def State.takeOver (s : State) (c : CoreId) (lost : List Nat) : State :=
  let k := clusterOf c
  let old := s.coreArray c
  let tests := s.tests.filter (fun t => t.core == some c && t.ended)
  let r := ({ s with tests := s.tests.filter (fun t => !(t.core == some c && t.ended)) } : State).stopCore c
  let w := r.2.readOut c
  let s := State.updCore { w.2 with understudies := w.2.understudies.upd 0 k (· + 1) } c (fun x =>
    { x with replaced := true, understudy := s.understudies.get 0 k, itlb := [], dtlb := [] })
  let s := s.copyLog old (s.coreArray c)
  let s := ((lost.filter (· < 2048)) ++ w.1).eraseDups.foldl (fun s i => s.loseWord c i) s
  s.answerAll c (tests.map (·.frame) ++ [r.1])

/-- The latest epoch of a load is asked for, here and in its other packages. -/
def State.restart (s : State) (n : Nat) : State :=
  let s := s.resumeLatest (fun m _ => m == n)
  let x := s.store.get {} n
  match s.resumeReq.find? (fun r => r.1 == n) with
  | some r => s.tellResume x r.2
  | none => s

/-- No understudy is left: every instance of the core is terminated with ECC, its load is removed, and restarted from its
latest complete epoch; the removal waits for the accesses of its domain (08 R183). -/
def State.dropCore (s : State) (c : CoreId) (lost : List Nat) : State :=
  let n := (s.coreRole c).load
  let live := (s.core c).role.isSome
  let s := ({ s with tests := s.tests.filter (fun t => !(t.core == some c && t.ended)) } : State).eccAll c
  let s := { s with unusable := (s.unusable ++ [(0, s.coreArray c)]).eraseDups }
  if live ∧ (Tbl.find? s.loads n).isSome then match State.settledDomain s (s.loads.get {} n).dom with
    | some s => (s.removeLoad n).restart n
    | none => State.post s 64 (.coreRetire c lost)
  else s

/-- CORE_RETIRE (R447). -/
def execCoreRetire (c : CoreId) (lost : List Nat) (s : State) :=
  happen (if s.understudies.get 0 (clusterOf c) < 8 then s.takeOver c lost else s.dropCore c lost)

/-! ## Retention (R445) -/

/-- RETENTION_CONTROL (R445). -/
def execRetentionControl (kind : BitVec 3) (n : Nat) (on : Bool) (s : State) :=
  happen (if (kind = 1 ∨ kind = 2 ∨ kind = 4) ∧ n < arrayCount kind.toNat then s.setRetention kind.toNat n on else s)

/-- RETENTION_TRANSITION_END (R445): the re-encoding is over; whether the retention code corrected an error is open. -/
def execRetentionTransitionEnd (kind : BitVec 3) (n : Nat) (s : State) := happen (s.retentionEnd kind.toNat n)

/-! ## Monitors (R448, R449) -/

/-- MONITOR_CONTROL (R448). -/
def execMonitorControl (m : Nat) (ctl : Word) (s : State) :=
  happen (if m < 2048 then s.devWrite (monReg m 0) (BitVec.allOnes 64) ctl else s)

/-- A timed sample of monitor m's source (R449): for the first monitor of that source every one of them takes it. The
occupancy of a queue counts its slots on-chip and its spilled items (log 90). -/
def State.timedSample (s : State) (m : Nat) : State :=
  let ctl := s.devGet (monReg m 0)
  let arg := fieldOf ctl 47 0
  let k := m / 64
  if fieldOf ctl 55 48 = 2 then
    let x := s.queue (k * 512 + arg)
    if arg < 512 ∧ (s.monitors 2 arg (some k)).head? = some m then s.samples 2 arg (some k) (x.onchip + x.spill.length) else s
  else if arg < 64 ∧ (s.monitors 8 arg none).head? = some m then
    (s.samples 8 arg none (s.trunk arg).recent).setTrunk arg { s.trunk arg with recent := 0 }
  else s

/-- MONITOR_SAMPLE (R448, R449): a hot-spot sensor's reading `v`, which every enabled monitor of that sensor takes; or the
time of a sample of SRC 2 or 8 has come, and the next is set. The other sources are sampled where they occur. -/
def execMonitorSample (m v : Nat) (s : State) :=
  happen (
    let ctl := s.devGet (monReg m 0)
    if !ctl.getLsbD 63 ∨ m ≥ 2048 then s
    else match sampleCycles (fieldOf ctl 55 48) with
      | some n => if s.posted (.monitorSample m 0) then s else (s.timedSample m).post n (.monitorSample m 0)
      | none => if fieldOf ctl 55 48 = 9 ∧ fieldOf ctl 47 0 < 64 then s.samples 9 (fieldOf ctl 47 0) none v else s)

/-! ## Power (R450) -/

/-- POWER_INTERVAL (R450): `hot` are the hot-spot readings in quarters of a degree. -/
def execPowerInterval (watts : Nat) (hot : List Nat) (s : State) :=
  happen (
    let tooMuch := watts > s.powerLimit || hot.any (· > 420)
    let s := if tooMuch then { s with throttle := satTo 15 (s.throttle + 1), powerClear := 0 }
      else if s.powerClear + 1 = 100 then { s with throttle := s.throttle - 1, powerClear := 0 }
      else { s with powerClear := s.powerClear + 1 }
    if hot.any (· ≥ 460) then
      (s.cores.foldl (fun s c => if c.2.role.isSome then (s.stopCore c.1).2 else s) s).emit (.control 1 watts 0)
    else s)

/-! ## A package fails (R455) -/

/-- What a failed package was to answer fails with LINK: requests on the way to it, and orders of loads (20 R410). -/
def State.answerFor (s : State) (pkg : BitVec 12) : State :=
  let lost := s.egress.filter (fun o => !o.waiting && o.dst == pkg && State.awaited s o.msg)
  let s := lost.foldl (fun s o => s.unsent o.msg) s
  (s.orders.filter (fun o => o.origin == s.pkg && o.waiting.contains pkg)).foldl (fun s o => s.post 0 (.load (.answer o.serial pkg false))) s

/-- PACKAGE_FAILURE (R455): its route is fenced, what it was to answer fails with LINK, and each load that it carried
rolls back to its latest complete epoch. -/
def execPackageFailure (pkg : BitVec 12) (s : State) :=
  happen (
    if pkg = s.pkg then s
    else
      let s := { s with failedPkgs := (s.failedPkgs ++ [pkg]).eraseDups, routes := s.routes.erase pkg.toNat }
      ((State.answerFor s pkg).releaseEgress).resumeLatest (fun _ x => x.packages.contains pkg))

/-! ## Start-up (R452; 20 R412) -/

/-- Firmware is run only when a service-class key signed it (R406). -/
def firmwareOk (bs : List Byte) : Bool := signedClass (if bs.length % 8 = 0 then wordsOf bs else []) == some true

/-- The package id that the loader assigns, below 0xFFF (01 R18). -/
def State.pkgId : BitVec 12 := if Config.packageId = 0xFFF then 0xFFE else Config.packageId

/-- The queue of service n: elastic, open, 8 granules wide (20 R412); its capacity and its caldera are the model's. -/
def serviceQueue (n : Nat) (base : Word) : Queue :=
  { st := .active, elastic := true, cap := 16, g := 8, dom := 0, openAll := true, calBase := base, calItems := 8192, lowmark := 8,
    granule := 128 * n }

/-- The services are placed: domain 0 has a page table, and each service its queue. -/
def State.placeServices (s : State) : State :=
  (List.range 6).foldl (fun s n =>
    match s.newRange 0 16 true with
    | some (p, s) => s.setQueue (serviceKey n) (serviceQueue n (word (p * frameSize)))
    | none => s) (s.ensureRoot 0)

/-- A trunk is set up from its lowest port: 1, 2 or 4 ports, at a multiple of their count; trunks that shared a port with
it are none any more. Other values set nothing. -/
def State.setUpTrunk (s : State) (base ports : Nat) : State :=
  if (ports = 1 ∨ ports = 2 ∨ ports = 4) ∧ base % ports = 0 ∧ base + ports ≤ 64 then
    let rest := s.trunks.filter (fun t => t.1 + t.2.ports ≤ base || base + ports ≤ t.1)
    { s with trunks := Tbl.set rest base { ports := ports, inuse := laneMask 0 (4 * ports) } }
  else s

/-- The trunks that the network service sets up at start-up, by the board's wiring (log 86). -/
def State.setUpTrunks (s : State) : State := (List.range 64).foldl (fun s b => s.setUpTrunk b (Config.trunkPorts b)) s

/-- The firmware runs: the trunks are trained, the services placed, the machine reports ready, and a resume request is
looked for. -/
def State.startFirmware (s : State) : State :=
  (State.placeServices (State.setUpTrunks { s with boot := .running, pkg := State.pkgId })).post 0 .resume

/-- START_UP (R452): slot A, or slot B when A fails; an H9-P reads its firmware through the host port, and with both slots
bad an H9-M waits for a host image too. -/
def execStartUp (s : State) :=
  happen (
    if s.boot ≠ .rom then s
    else if !Config.hostStore && (firmwareOk s.flashA || firmwareOk s.flashB) then s.startFirmware
    else { s with boot := .waitHost })

/-- HOST_IMAGE_ARRIVAL (R452): verified, and run when it is right. -/
def execHostImageArrival (bytes : List Byte) (s : State) :=
  happen (if s.boot = .waitHost ∧ firmwareOk bytes then s.startFirmware else s)

/-! ## Register writes (00 R5; 15 R340, R346, R348; 22 R446, R450) -/

/-- REGISTER_WRITE (00 R5): a device register; a route (64 and above marks the package unreachable); a trunk's port count; a
router's slot; the power limit; an array marked unusable, as kind × 2^32 + instance. -/
def execRegisterWrite (t : RegTarget) (v : Word) (s : State) :=
  happen (match t with
    | .dev offset => s.devWrite (offset.toNat / 8) (BitVec.allOnes 64) v
    | .route pkg =>
      let s := { s with routes := if v.toNat < 64 then s.routes.set pkg.toNat (v.setWidth 6) else s.routes.erase pkg.toNat }
      State.releaseEgress s
    | .trunk base => (s.setUpTrunk base.toNat v.toNat).releaseEgress
    | .slot router n =>
      let e := v &&& 0x0000FFFFFFFFFFFF
      let k := router % 32 * 256 + n.toNat
      { s with slots := if e = 0 then s.slots.erase k else s.slots.set k e }
    | .powerLimit => { s with powerLimit := satTo 4600 v.toNat }
    | .bankUnusable => { s with unusable := (s.unusable ++ [(fieldOf v 63 32, fieldOf v 31 0)]).eraseDups })

end Sys2Proof.Machine
end

