-- ==== Sys2Proof/Machine/Special.lean ====
section
/-!
DEFINITION. The special functions (11 R250–R256): the ROM segment tables, the recipes, and VFN. The tables' entries are
rounded from fixed-point values of the real functions with 200 fraction bits, far finer than any entry's distance from
a rounding boundary (log 52).
-/
namespace Sys2Proof.Machine

/-! ## Real functions in fixed point -/

abbrev fixW : Nat := 200

/-- Sum of a series: each term is the last one times `z`, over the next divisor. -/
def fixSeries (z : Int) : List Nat → Int → Int → Int
  | [], _, acc => acc
  | d :: ds, term, acc =>
    let t := term * z / (2 ^ fixW * (d : Int))
    fixSeries z ds t (acc + t)

/-- e^t for small t. -/
def fixExp (t : Int) : Int := fixSeries t ((List.range 60).map (· + 1)) (2 ^ fixW) (2 ^ fixW)

/-- sin t and cos t for |t| ≤ 0.8. -/
def fixSin (t : Int) : Int :=
  fixSeries (-(t * t / 2 ^ fixW)) ((List.range 30).map (fun k => (2 * k + 2) * (2 * k + 3))) t t
def fixCos (t : Int) : Int :=
  fixSeries (-(t * t / 2 ^ fixW)) ((List.range 30).map (fun k => (2 * k + 1) * (2 * k + 2))) (2 ^ fixW) (2 ^ fixW)

/-- w + w³/3 + w⁵/5 + …, by the square of w. -/
def fixAtanh (w2 : Int) : List Nat → Int → Int → Int
  | [], _, acc => acc
  | d :: ds, p, acc => fixAtanh w2 ds (p * w2 / 2 ^ fixW) (acc + p / (d : Int))

/-- ln (n / d) for 1 ≤ n / d ≤ 2. -/
def fixLog (n : Int) (d : Nat) : Int :=
  let w := (n - d) * 2 ^ fixW / (n + d)
  2 * fixAtanh (w * w / 2 ^ fixW) ((List.range 70).map (fun k => 2 * k + 1)) w 0

/-- The square, k times over. -/
def fixSquares : Nat → Int → Int
  | 0, x => x
  | k + 1, x => fixSquares k (x * x / 2 ^ fixW)

/-- tanh (n / d), from e^(2t) as the 64th power of e^(t / 32). -/
def fixTanh (n : Int) (d : Nat) : Int :=
  let e := fixSquares 6 (fixExp (n * 2 ^ fixW / (32 * d)))
  (e - 2 ^ fixW) * 2 ^ fixW / (e + 2 ^ fixW)

/-! ## The ROM tables (R252 Table 11.12) -/

inductive Rom where
  | rcp | rsq | exp | log | tana | tanb | sin | cos
  deriving DecidableEq, Repr

/-- lo = L / D and h = H / D, as (L, H, D). -/
def Rom.span : Rom → Int × Nat × Nat
  | .rcp => (256, 1, 256)
  | .rsq => (256, 3, 256)
  | .exp => (-384, 3, 1024)
  | .log => (256, 1, 256)
  | .tana => (0, 1, 256)
  | .tanb => (32, 1, 32)
  | .sin => (-128, 1, 160)
  | .cos => (-128, 1, 160)

/-- f (n / d) in fixed point. -/
def Rom.f (T : Rom) (n : Int) (d : Nat) : Int :=
  match T with
  | .rcp => (d : Int) * 2 ^ fixW / n
  | .rsq => isqrt (d * 2 ^ (2 * fixW) / n.toNat)
  | .exp => fixExp (n * 2 ^ fixW / d)
  | .log => fixLog n d
  | .tana => fixTanh n d
  | .tanb => fixTanh n d
  | .sin => fixSin (n * 2 ^ fixW / d)
  | .cos => fixCos (n * 2 ^ fixW / d)

/-- A rational rounded once to FP32 under RNE, as a value. -/
def roundRat (n : Int) (d : Nat) (e : Int) : Num :=
  decodeFloat .fp32 (encodeMag .fp32 plainModes (n < 0) n.natAbs d e).1

/-- slope[j] of a table. -/
def Rom.slope (T : Rom) (j : Nat) : Num :=
  let (L, H, D) := T.span
  roundRat ((T.f (L + H * (j + 1)) D - T.f (L + H * j) D) * D) H (-(fixW : Int))

/-- icpt[j] of a table: f(m) − slope × m at the midpoint m = (2 L + H (2 j + 1)) / (2 D). -/
def Rom.icpt (T : Rom) (j : Nat) : Num :=
  let (L, H, D) := T.span
  let m : Int := 2 * L + H * (2 * j + 1)
  match T.slope j with
  | .fin neg ms es =>
    roundRat (T.f m (2 * D) * (2 * D : Nat) - signMant neg ms * 2 ^ ((fixW : Int) + es).toNat * m) (2 * D) (-(fixW : Int))
  | x => x

/-- The segment of a value: clamp(floor((t − lo) / h), 0, 255), exact. -/
def Rom.index (T : Rom) (t : Num) : Nat :=
  match t with
  | .fin neg m e =>
    let (L, H, D) := T.span
    let (a, b) := shiftQ m 1 e
    let j := ((signMant neg a * D - L * b) / ((H : Int) * b)).toNat
    if j < 255 then j else 255
  | _ => 0

/-! ## Steps that round to FP32 under RNE (R252) -/

/-- A value rounded to FP32, with INX when that is inexact. -/
def stepRound (v : Num) : Num × Flags :=
  let (c, f) := encodeNum .fp32 plainModes v
  (decodeFloat .fp32 c, f &&& flagINX)

/-- x × y + z before rounding; a NaN input propagates without INV, even beside 0 × ∞ (03 R64). -/
def fmaNum (rm : BitVec 2) (x y z : Num) : Num × Flags :=
  if x.isNan || y.isNan || z.isNan then (.nan false, 0) else
  let (p, f) := mulNum x y
  let (v, g) := addNum rm p z
  (v, f ||| g)

/-- fma, rounded once. -/
def stepFma (x y z : Num) : Num × Flags := stepRound (fmaNum 0 x y z).1

/-- seg(T, t). -/
def Rom.seg (T : Rom) (t : Num) : Num × Flags := let j := T.index t; stepFma (T.slope j) t (T.icpt j)

/-- The value of an FP32 code. -/
abbrev fp (c : Nat) : Num := decodeFloat .fp32 c
abbrev oneF : Num := .fin false 1 0
abbrev halfF : Num := .fin false 1 (-1)

/-- mm in [1, 2) and ex of a nonzero magnitude. -/
def normed (m : Nat) (e : Int) : Num × Int := let ex := Num.exp m e; (.fin false m (e - ex), ex)

/-- A result by the final rounding: RNE, with SAT and FLUSH32 as NMODE has them (R252, R63). -/
def finish (md : Modes) (v : Num) (f : Flags) : Nat × Flags :=
  let (c, g) := encodeNum .fp32 md.rne v
  (c, f ||| g)

abbrev nan32 : Nat := 0x7FC00000
abbrev inf32 : Nat := 0x7F800000
abbrev negInf32 : Nat := 0xFF800000

/-! ## The recipes (R253–R256) -/

/-- VRCP. -/
def vrcpOf (md : Modes) (x : Num) : Nat × Flags :=
  match x with
  | .nan _ => (nan32, 0)
  | .inf s => (Fmt.fp32.signed s 0, 0)
  | .fin s m e =>
    if m = 0 then (Fmt.fp32.signed s inf32, flagDIVZ)
    else
      let (mm, ex) := normed m e
      let (y0, f0) := Rom.rcp.seg mm
      let (c, f1) := stepFma mm.negate y0 oneF
      let (y1, f2) := stepFma y0 c y0
      finish md ((if s then y1.negate else y1).scale (-ex)) (f0 ||| f1 ||| f2)

/-- VRSQ. -/
def vrsqOf (md : Modes) (x : Num) : Nat × Flags :=
  match x with
  | .nan _ => (nan32, 0)
  | .inf s => if s then (nan32, flagINV) else (0, 0)
  | .fin s m e =>
    if m = 0 then (Fmt.fp32.signed s inf32, flagDIVZ)
    else if s then (nan32, flagINV)
    else
      let (mm, ex) := normed m e
      let (mm, ex) := if ex % 2 = 0 then (mm, ex) else (mm.scale 1, ex - 1)
      let (y0, f0) := Rom.rsq.seg mm
      let (t, f1) := stepRound (mulNum y0 y0).1
      let (c, f2) := stepFma mm.negate t oneF
      let (y1, f3) := stepFma (y0.scale (-1)) c y0
      finish md (y1.scale (-(ex / 2))) (f0 ||| f1 ||| f2 ||| f3)

/-- VEXP up to seg(EXP, r): the table's value, n, and INX (also the sampler's weight, 18 R374). -/
def expCore (x : Num) : Num × Int × Flags :=
  let (p, f0) := stepRound (mulNum x (fp 0x3FB8AA3B)).1
  let n := roundToGrid p 0
  let nn := Num.ofInt (-n) 0
  let (r, f1) := stepFma nn (fp 0x3F317180) x
  let (r, f2) := stepFma nn (fp 0x3717F7D1) r
  let (y, f3) := Rom.exp.seg r
  (y, n, f0 ||| f1 ||| f2 ||| f3)

/-- VEXP. -/
def vexpOf (md : Modes) (x : Num) : Nat × Flags :=
  match x with
  | .nan _ => (nan32, 0)
  | .inf s => (if s then 0 else inf32, 0)
  | .fin s m e =>
    if m ≠ 0 ∧ Num.exp m e ≥ 10 then
      if s then (0, flagUNF ||| flagINX) else overflowCode .fp32 md.rne false
    else
      let (y, n, f) := expCore x
      finish md (y.scale n) f

/-- VLOG. -/
def vlogOf (md : Modes) (x : Num) : Nat × Flags :=
  match x with
  | .nan _ => (nan32, 0)
  | .inf s => if s then (nan32, flagINV) else (inf32, 0)
  | .fin s m e =>
    if m = 0 then (negInf32, flagDIVZ)
    else if s then (nan32, flagINV)
    else if eqNum x oneF then (0, 0)
    else
      let (mm, ex) := normed m e
      let (y, f) := Rom.log.seg mm
      finish md (fmaNum 0 (Num.ofInt ex 0) (fp 0x3F317218) y).1 f

/-- tanh of a value, before the final rounding. -/
def tanhCore (x : Num) : Num × Flags :=
  match x with
  | .nan s => (.nan s, 0)
  | .inf s => (.fin s 1 0, 0)
  | .fin s m e =>
    let a : Num := .fin false m e
    let (y, f) : Num × Flags :=
      if m = 0 then (a, 0)
      else if Num.exp m e < -12 then (a, flagINX)
      else if Num.exp m e < 0 then Rom.tana.seg a
      else if ltNum a (.fin false 9 0) then Rom.tanb.seg a
      else (oneF, flagINX)
    (if s then y.negate else y, f)

/-- VTANH. -/
def vtanhOf (md : Modes) (x : Num) : Nat × Flags :=
  if x.isNan then (nan32, 0) else
  let (y, f) := tanhCore x
  finish md y f

/-- VSIGM. -/
def vsigmOf (md : Modes) (x : Num) : Nat × Flags :=
  if x.isNan then (nan32, 0) else
  let (h, f0) := stepRound (x.scale (-1))
  let (t, f1) := tanhCore h
  finish md (fmaNum 0 halfF t halfF).1 (f0 ||| f1)

/-- floor(π × 2^240). -/
def piBits : Nat := 0x3243F6A8885A308D313198A2E03707344A4093822299F31D0082EFA98EC4E

/-- k mod 4 and r of R256 for a magnitude below 2^24, exact to far below r's last place. -/
def reducePi (s : Bool) (m : Nat) (e : Int) : Nat × Num × Flags :=
  let N := m * 2 ^ (e + 241).toNat
  let k := roundInt 0 false N piBits
  if k = 0 then (0, .fin s m e, 0)
  else
    let d : Int := (N : Int) - k * piBits
    let (r, f) := stepRound (.fin ((d < 0) != s) (2 * d.natAbs + 1) (-242))
    (if s then (4 - k % 4) % 4 else k % 4, r, f)

/-- VSIN and VCOS. -/
def vtrigOf (cosine : Bool) (md : Modes) (x : Num) : Nat × Flags :=
  match x with
  | .nan _ => (nan32, 0)
  | .inf _ => (nan32, flagINV)
  | .fin s m e =>
    if m ≠ 0 ∧ Num.exp m e ≥ 24 then (nan32, flagRANGE)
    else
      let (q, r, f0) := reducePi s m e
      let (sn, cs, f1) : Num × Num × Flags := match r with
        | .fin _ rm re =>
          if rm = 0 then (r, oneF, 0)
          else if Num.exp rm re < -12 then (r, oneF, flagINX)
          else
            let (a, g) := Rom.sin.seg r
            let (b, h) := Rom.cos.seg r
            (a, b, g ||| h)
        | _ => (r, oneF, 0)
      let pick := match (if cosine then q + 1 else q) % 4 with
        | 0 => sn
        | 1 => cs
        | 2 => sn.negate
        | _ => cs.negate
      finish md pick (f0 ||| f1)

/-- VFN (R251): the table's segments by index, LO and INV, as FP32 codes. -/
def vfnOf (seg : Nat → Nat × Nat) (lo inv : Nat) (md : Modes) (x : Num) : Nat × Flags :=
  if x.isNan then (nan32, 0) else
  let (d, _) := addNum 0 x (fp lo).negate
  let (d, _) := stepRound d
  let (u, _) := mulNum d (fp inv)
  let (u, _) := stepRound u
  let j : Nat := match u with
    | .nan _ => 0
    | .inf s => if s then 0 else 255
    | .fin s m e =>
      let (a, b) := shiftQ m 1 e
      if s then 0 else if a / b < 255 then a / b else 255
  if u.isNan then (nan32, flagINV) else
  let (v, f) := fmaNum 0 (fp (seg j).1) x (fp (seg j).2)
  let (c, g) := encodeNum .fp32 md.rne v
  (c, f ||| g)

end Sys2Proof.Machine
end

