-- ==== Sys2Proof/Machine/Sampler.lean ====
section
/-!
DEFINITION. Sampling and beams (18 R374–R380, R388, R389): values and weights, shards, the merge and its deadline, and the
beam engine.
-/
namespace Sys2Proof.Machine

/-! ## Wide values (R374) -/

/-- A positive value as a 24-bit significand and an exponent, rounded to nearest even. -/
def wideOf (x : Num) : Num := match x with
  | .fin _ m e =>
    if m = 0 then Num.zero false
    else
      let sh := Nat.log2 m
      if sh ≤ 23 then .fin false (m * 2 ^ (23 - sh)) (e + sh - 23)
      else
        let q := roundInt 0 false m (2 ^ (sh - 23))
        if q = 2 ^ 24 then .fin false (2 ^ 23) (e + sh - 22) else .fin false q (e + sh - 23)
  | x => x

/-- A sum of wide values. A term below half a unit of the other changes nothing. -/
def wideAdd (x y : Num) : Num := match x, y with
  | .fin _ m1 e1, .fin _ m2 e2 =>
    if m1 = 0 then y
    else if m2 = 0 then x
    else if e1 > e2 + 26 then x
    else if e2 > e1 + 26 then y
    else if e1 ≥ e2 then wideOf (.fin false (m1 * 2 ^ (e1 - e2).toNat + m2) e2)
    else wideOf (.fin false (m1 + m2 * 2 ^ (e2 - e1).toNat) e1)
  | x, _ => x

/-- A draw tests a candidate: U × m < w × 2^24, exactly. -/
def drawHits (u : Nat) (mass w : Num) : Bool := match mass, w with
  | .fin _ m e, .fin _ n k =>
    let d := e - (k + 24)
    if u * m = 0 then n != 0
    else if d > 80 then false
    else if d < -80 then n != 0
    else if d ≥ 0 then decide (u * m * 2 ^ d.toNat < n) else decide (u * m < n * 2 ^ (-d).toNat)
  | _, _ => false

/-- The weight of a value (R374). -/
def weightOf (l : Num) : Num := match l with
  | .fin _ _ _ => let (y, n, _) := expCore l
    wideOf (y.scale n)
  | _ => Num.zero false

/-! ## Values (R374) -/

/-- What a request's parameters make of its logits; none: REQ. -/
structure SamplePars where
  temp   : Num
  greedy : Bool
  rep    : Num
  pres   : Num

/-- A positive, zero or +∞ parameter. -/
def goodPar (x : Num) : Bool := !x.isNan && (x.isZero || !x.isNeg)

def samplePars (r : Record) : Option SamplePars :=
  let t := decodeFloat .fp16 r.temp
  let p := decodeFloat .fp16 r.rep
  if goodPar t ∧ goodPar p then
    some { temp := t, greedy := t.isZero, rep := if p.isZero then .fin false 1 0 else p, pres := decodeFloat .fp16 r.pres }
  else none

/-- A value that faults its slot. -/
def badValue (x : Num) : Bool := match x with
  | .nan _ => true
  | .inf n => !n
  | _ => false

/-- The value of an entry from its logit and its count; none: REQ. -/
def valueOf (p : SamplePars) (l : Nat) (count : Nat) : Option (BitVec 32) :=
  let v := decodeFloat .fp32 l
  if badValue v then none
  else
    let c := if count = 0 then l
      else
        let a := if ltNum (Num.zero false) v then (divNum .fp32 plainModes v p.rep).1 else (encodeNum .fp32 plainModes (mulNum v p.rep).1).1
        (encodeNum .fp32 plainModes (addNum 0 (decodeFloat .fp32 a) p.pres.negate).1).1
    let c := if p.greedy then c else (divNum .fp32 plainModes (decodeFloat .fp32 c) p.temp).1
    if badValue (decodeFloat .fp32 c) then none else some (BitVec.ofNat 32 c)

/-- The value that a code stands for. -/
abbrev codeNum (c : BitVec 32) : Num := decodeFloat .fp32 c.toNat

/-- −∞. -/
def isMinusInf (c : BitVec 32) : Bool := match codeNum c with
  | .inf n => n
  | _ => false

/-! ## Reservoirs and trees (R375, R376) -/

/-- The reservoir over entries in ascending order: the candidate and the mass. -/
def reservoir (seed : Word) (pos : Nat) (es : List (BitVec 32 × Nat)) : Nat × Num :=
  es.foldl (fun acc e =>
    let w := weightOf (codeNum e.1)
    if w.isZero then acc
    else
      let mass := wideAdd acc.2 w
      if acc.2.isZero ∨ drawHits (uniform seed pos e.2 0) mass w then (e.2, mass) else (acc.1, mass)) (0, Num.zero false)

/-- One level of the tree: nodes 2i and 2i + 1 merge; `lv` is the level made. -/
def mergeLevel (seed : Word) (pos lv : Nat) (ns : List (Nat × Num)) : List (Nat × Num) :=
  (List.range ((ns.length + 1) / 2)).map (fun i =>
    let l := ns.getD (2 * i) (0, Num.zero false)
    match ns[2 * i + 1]? with
    | none => l
    | some r =>
      if r.2.isZero then l
      else if l.2.isZero then r
      else
        let mass := wideAdd l.2 r.2
        let first := (2 * i + 1) * 2 ^ (lv - 1) * 1024
        if drawHits (uniform seed pos first lv) mass r.2 then (r.1, mass) else (l.1, mass))

/-- The root of the tree. -/
def treeRoot (seed : Word) (pos : Nat) : Nat → Nat → List (Nat × Num) → Nat × Num
  | 0, _, ns => ns.getD 0 (0, Num.zero false)
  | n + 1, lv, ns => if ns.length ≤ 1 then ns.getD 0 (0, Num.zero false) else treeRoot seed pos n (lv + 1) (mergeLevel seed pos lv ns)

/-- Entry order of R376: greater value first, ties to the lower entry. -/
def betterEntry (x y : BitVec 32 × Nat) : Bool :=
  let a := codeNum x.1
  let b := codeNum y.1
  ltNum b a || (!ltNum a b && x.2 < y.2)

/-- The k best of a list, best first. -/
def bestOf : Nat → List (BitVec 32 × Nat) → List (BitVec 32 × Nat)
  | 0, _ => []
  | k + 1, es => match es.foldl (fun best e => match best with
      | none => some e
      | some b => if betterEntry e b then some e else some b) none with
    | none => []
    | some b => b :: bestOf k (es.filter (fun e => e.2 ≠ b.2))

/-- Entries in ascending order. -/
def byEntry : List (BitVec 32 × Nat) → List (BitVec 32 × Nat)
  | [] => []
  | e :: t =>
    let rest := byEntry t
    rest.takeWhile (fun x => x.2 < e.2) ++ e :: rest.dropWhile (fun x => x.2 < e.2)

/-! ## Shards (R377, R388) -/

/-- The record that stands ACTIVE in a slot still. -/
def State.inSlot (s : State) (b slot i : Nat) : Option Record :=
  if Tbl.find? (s.former b).slots slot = some i ∧ Record.state (s.record i) = stACTIVE then some (s.record i) else none

/-- Why a slot's row gives no values: what stopped a read, or nothing for a fault in the values (REQ); with whether reading the
tensor met it. -/
abbrev RowStop := Option Stop × Bool

/-- The values of one slot's row, entry by entry: the codes, or why there are none. -/
def rowValues (a ra : Actor) (ent : Entry) (r : Record) (p : SamplePars) (slot v0 : Nat) :
    List Nat → State → Except RowStop (List (BitVec 32 × Nat)) × State
  | [], s => (.ok [], s)
  | i :: t, s =>
    match (do
        let out ← outside a ent [i, slot, 0, 0, 0, 0]
        if out then pure 0 else readCode a ent [i, slot, 0, 0, 0, 0] : Op Nat) s with
    | .error st => (.error (some st, true), s)
    | .ok (l, s) => match (if r.penptr = 0 then pure 0 else unitRead ra (r.penptr + word (2 * (v0 + i))) 2 : Op Nat) s with
      | .error st => (.error (some st, false), s)
      | .ok (n, s) => match valueOf p l n with
        | none => (.error (none, false), s)
        | some c => match rowValues a ra ent r p slot v0 t s with
          | (.ok rest, s) => (.ok ((c, v0 + i) :: rest), s)
          | (.error e, s) => (.error e, s)

/-- What a slot of a shard gives from its values (R375, R376). -/
def slotPart (r : Record) (p : SamplePars) (ent : Entry) (v0 spec slot : Nat) (vs : List (BitVec 32 × Nat)) : ShardSlot :=
  let pos := r.spos + spec
  if p.greedy then { slot := slot, blocks := [], best := bestOf 1 vs, fault := 0 }
  else if r.topk ≠ 0 then { slot := slot, blocks := [], best := bestOf r.topk (vs.filter (fun e => !isMinusInf e.1)), fault := 0 }
  else
    let blocks := (List.range ((ent.ext 0 + 1023) / 1024)).map (fun k =>
      let x := reservoir r.seed pos ((vs.drop (1024 * k)).take 1024)
      (v0 / 1024 + k, x.1, x.2))
    { slot := slot, blocks := blocks, best := [], fault := 0 }

/-- One slot's part of a shard, with the code of a failed read of the tensor; or what the slot waits for. -/
def State.shardSlot (s : State) (c : FCmd) (ent : Entry) (v0 spec slot : Nat) (r : Record) :
    Except Stop (ShardSlot × BitVec 8) × State :=
  let fault := fun (code : BitVec 8) (read : Bool) =>
    (({ slot := slot, blocks := [], best := [], fault := code } : ShardSlot), if read then code else 0)
  match samplePars r with
  | none => (.ok (fault cREQ false), s)
  | some p =>
    let a : Actor := { core := c.core, dom := c.dom, svc := c.svc }
    let ra := recordActor c.core c.svc r
    match rowValues a ra ent r p slot v0 (List.range (ent.ext 0)) s with
    | (.ok vs, s) => (.ok (slotPart r p ent v0 spec slot vs, 0), s)
    | (.error (none, read), s) => (.ok (fault cREQ read), s)
    | (.error (some st, read), s) =>
      if st.waits then (.error st, s)
      else
        let (code, _, s) := s.unitStop (if read then a else ra) st
        (.ok (fault code read), s)

/-- The parts of a shard, over the slots that sample and still hold their records. -/
def State.shardParts (s : State) (b : Nat) (c : FCmd) (ent : Entry) (v0 spec : Nat) :
    List (Nat × Nat) → Except Stop (List (ShardSlot × BitVec 8)) × State
  | [] => (.ok [], s)
  | p :: t => match s.inSlot b p.1 p.2 with
    | none => State.shardParts s b c ent v0 spec t
    | some r => match s.shardSlot c ent v0 spec p.1 r with
      | (.error st, s) => (.error st, s)
      | (.ok x, s) => match State.shardParts s b c ent v0 spec t with
        | (.ok l, s) => (.ok (x :: l), s)
        | e => e

/-- A completion of the sampler or the beam engine (Table 18.6). -/
def sampleItem (step : Word) (status : BitVec 8) (done faulted b : Nat) (detail : BitVec 32) : Item :=
  dataItem (step ++ status ++ BitVec.ofNat 10 done ++ BitVec.ofNat 10 faulted ++ 0#2 ++ BitVec.ofNat 2 b ++ detail)

/-- A merge ends without its tokens (R377, R378): with TIMEOUT or REQ. Every slot that samples is run again, whatever its record
has become meanwhile. -/
def State.failMerge (s : State) (b : Nat) (m : Merge) (code : BitVec 8) : State :=
  let s := s.updFormer b (fun f => { f with merge := none, expired := some (m.step, code) })
  let s := (s.former b).sample.foldl (fun s p => s.setRecord p.2 (Record.setRerun (Record.setProvn (s.record p.2) 0) true)) s
  let s := m.shards.foldl (fun s x => s.pushFor x.cmd.core x.cmd.q (sampleItem m.step code 0 0 b 0)) s
  let s := ((m.shards.map (fun x => x.cmd.core)).eraseDups).foldl (fun s c => s.report c code s.openDetail s.openDetail) s
  s.kickFormer b

/-- Do the shards tile the vocabulary, state one count and one SPEC, and each come once (R377)? So far. -/
def shardsAgree (vocab : Nat) (xs : List Shard) : Bool := match xs with
  | [] => true
  | x :: _ =>
    xs.all (fun y => y.shards == x.shards && y.spec == x.spec && y.v0 % 1024 == 0 && y.v0 + y.count ≤ vocab &&
      (y.v0 + y.count == vocab || (y.v0 + y.count) % 1024 == 0)) &&
    (xs.map (fun y => y.shard)).eraseDups.length == xs.length &&
    xs.all (fun y => xs.all (fun z => y.shard == z.shard || y.v0 + y.count ≤ z.v0 || z.v0 + z.count ≤ y.v0)) &&
    (xs.length < x.shards || (xs.map (fun y => y.count)).sum == vocab)

/-- A shard arrives at its former (R377, R378, R388); an error is what reading its logits waits for. -/
def State.shardArrives (s : State) (b : Nat) (c : FCmd) (ent : Entry) (shards shard spec v0 : Nat) : Except Stop State :=
  let cfg := s.fcfg b
  let f := s.former b
  let refuse := fun (step : Word) (code : BitVec 8) => s.pushFor c.core c.q (sampleItem step code 0 0 b 0)
  if !f.published then .ok (refuse cfg.step cREQ)
  else if f.merged = some cfg.step then .ok (refuse cfg.step cREQ)
  else match (match f.expired with
      | some e => if e.1 = cfg.step then some e.2 else none
      | none => none) with
    | some code => .ok (refuse cfg.step code)
    | none => match s.shardParts b c ent v0 spec f.sample with
     | (.error st, _) => .error st
     | (.ok parts, s) =>
      let code := parts.foldl (fun k p => if k = 0 then p.2 else k) 0
      let x : Shard := { cmd := c, v0 := v0, count := ent.ext 0, shards := shards, shard := shard, spec := spec, code := code,
                         slots := parts.map (·.1) }
      let wait := (if cfg.deadline = 0 then 20 else cfg.deadline) * 2000
      let first := f.merge.isNone
      let m : Merge := match f.merge with
        | some m => { m with shards := m.shards ++ [x] }
        | none => { step := cfg.step, shards := [x], deadline := s.now + wait }
      let s := s.updFormer b (fun f => { f with merge := some m })
      let s := if first then s.post wait (.mergeDeadline (BitVec.ofNat 2 b)) else s
      .ok (if !shardsAgree cfg.vocab m.shards then s.failMerge b m cREQ
        else if m.shards.length ≥ shards then s.postOnce 1 (.mergeComplete (BitVec.ofNat 2 b))
        else s)

/-- SMPL_SHARD_ARRIVAL (R377). -/
def execSmplShardArrival (bf : BitVec 2) (s : State) :=
  happen (
    let b := bf.toNat
    match (s.former b).queue with
    | c :: _ => match c.op with
      | .smpl ent shards shard spec v0 => match s.shardArrives b c ent shards shard spec v0 with
        | .ok t => t.popFormer b
        | .error st => (s.waitAgain st (.smplShardArrival bf)).getD s
      | _ => s
    | [] => s)

/-- The token of one slot from its shards (R375–R377): the token, or the code of its fault. -/
def pickToken (r : Record) (spec : Nat) (parts : List ShardSlot) : Except (BitVec 8) Nat :=
  match parts.find? (fun p => p.fault != 0) with
  | some p => .error p.fault
  | none =>
    let pos := r.spos + spec
    let best := parts.flatMap (fun p => p.best)
    if (decodeFloat .fp16 r.temp).isZero then match bestOf 1 best with
      | e :: _ => if isMinusInf e.1 then .error cREQ else .ok e.2
      | [] => .error cREQ
    else
      let x := if r.topk ≠ 0 then reservoir r.seed pos (byEntry (bestOf r.topk best))
        else
          let blocks : Tbl (Nat × Num) := parts.flatMap (fun p => p.blocks)
          let n := (blocks.map (fun t => t.1 + 1)).foldl (fun a k => if a < k then k else a) 0
          treeRoot r.seed pos 32 1 ((List.range n).map (fun k => Tbl.get blocks (0, Num.zero false) k))
      if x.2.isZero then .error cREQ else .ok x.1

/-- The merge's effect on one slot (R379): the state, and whether it has a token. -/
def State.mergeSlot (s : State) (b : Nat) (m : Merge) (slot i : Nat) : State × Option Bool :=
  match s.inSlot b slot i with
  | none => (s, none)
  | some r =>
    let parts := m.shards.filterMap (fun x => x.slots.find? (fun p => p.slot == slot))
    let spec := ((m.shards.head?).map (fun x => x.spec)).getD 0
    if parts.length ≠ m.shards.length then (s, none)
    else match pickToken r spec parts with
      | .ok tok =>
        let n := if Record.provn r < spec + 1 then spec + 1 else Record.provn r
        (s.setRecord i (Record.setProvn (r.put (768 + 32 * spec) 32 tok) n), some true)
      | .error code => (s.faultRecord i code, some false)

/-- MERGE_COMPLETE (R379). -/
def execMergeComplete (bf : BitVec 2) (s : State) :=
  happen (
    let b := bf.toNat
    match (s.former b).merge with
    | none => s
    | some m =>
      if m.shards.length < ((m.shards.head?).map (fun x => x.shards)).getD 1 then s
      else
        let (s, done, bad) := (s.former b).sample.foldl (fun (acc : State × Nat × List Nat) p =>
          match acc.1.mergeSlot b m p.1 p.2 with
          | (s, some true) => (s, acc.2.1 + 1, acc.2.2)
          | (s, some false) => (s, acc.2.1, acc.2.2 ++ [p.1])
          | (s, none) => (s, acc.2)) (s, 0, [])
        let s := s.updFormer b (fun f => { f with merge := none, merged := some m.step })
        let s := m.shards.foldl (fun s x => s.pushFor x.cmd.core x.cmd.q (sampleItem m.step x.code done bad.length b
          (BitVec.ofNat 32 (bad.headD 0)))) s
        s.kickFormer b)

/-- MERGE_DEADLINE (R378). -/
def execMergeDeadline (bf : BitVec 2) (s : State) :=
  happen (
    let b := bf.toNat
    match (s.former b).merge with
    | none => s
    | some m =>
      if s.now < m.deadline then s.postOnce (m.deadline - s.now) (.mergeDeadline bf)
      else if m.shards.length < ((m.shards.head?).map (fun x => x.shards)).getD 1 then s.failMerge b m cTIMEOUT
      else s)

/-- An FP32 matrix of this package for SMPL or BEAM, captured. -/
def captureMatrix (id : BitVec 32) (spaces : List Nat) (ok : Entry → Bool) : Op Entry := do
  let e ← useTensor true id
  let s ← getState
  let t := s.captured s.cur e
  check (e.wellFormed (s.coreSvc s.cur) && e.fmt == 0 && e.rank == 2 && e.spn == 0 && spaces.contains (fieldOf t.base 51 48) &&
    t.basePkg == s.pkg && ok e) cTENSOR (id.setWidth 64)
  pure t

/-- R388. -/
def execSmpl (d a b : Reg) (s : State) :=
  run (straight 4 (do
    let q ← completionQueue d
    let x ← rd a
    let w ← rd b
    let bf := fieldOf w 1 0
    checkReq (fieldOf w 23 17 == 0 && fieldOf w 63 56 == 0 && fieldOf w 13 8 ≤ fieldOf w 7 2)
    needFormer bf
    let s ← getState
    let e ← captureMatrix (x.setWidth 32) [1, 2] (fun e => e.ext 1 ≥ (s.fcfg bf).slots)
    issueFormer bf q (.smpl e (fieldOf w 7 2 + 1) (fieldOf w 13 8) (fieldOf w 16 14) (fieldOf w 55 24)))) s

/-! ## Beams (R380, R389) -/

/-- The members of a beam group: the ACTIVE records of a domain at a former, in ascending FORKIDX and then index. -/
def State.beamMembers (s : State) (b : Nat) (dom : BitVec 12) (g : Nat) : List Nat :=
  let ms := (s.activeIn b).filter (fun i => let r : Record := s.record i
    r.beamg == g && r.domain == dom)
  let key := fun (i : Nat) => Record.forkidx (s.record i) * 2 ^ 14 + i
  ms.foldl (fun l i => l.takeWhile (fun j => key j < key i) ++ i :: l.dropWhile (fun j => key j < key i)) []

/-- A candidate: its score, the member's rank, the entry. -/
abbrev BeamCand := BitVec 32 × Nat × Nat

/-- Is `x` before `y`: greater score, then lower rank, then lower entry? -/
def beamBefore (x y : BeamCand) : Bool :=
  let a := codeNum x.1
  let b := codeNum y.1
  ltNum b a || (!ltNum a b && (x.2.1 < y.2.1 || (x.2.1 == y.2.1 && x.2.2 < y.2.2)))

/-- The k best candidates. -/
def beamBest : Nat → List BeamCand → List BeamCand
  | 0, _ => []
  | k + 1, cs => match cs.foldl (fun best c => match best with
      | none => some c
      | some b => if beamBefore c b then some c else some b) none with
    | none => []
    | some b => b :: beamBest k (cs.filter (fun c => c.2 ≠ b.2))

/-- The candidates of a group, NaN ones left out. -/
def beamCands (a : Actor) (ent : Entry) (scores : List Nat) (vocab : Nat) : Op (List BeamCand) := do
  let l ← (List.range scores.length).mapM (fun k => (List.range vocab).mapM (fun v => do
    let out ← outside a ent [v, k, 0, 0, 0, 0]
    let c ← if out then pure 0 else readCode a ent [v, k, 0, 0, 0, 0]
    pure ((BitVec.ofNat 32 (addFp32Rne (scores.getD k 0) c).1, k, v) : BeamCand)))
  pure (l.flatten.filter (fun c => !(codeNum c.1).isNan))

/-- Whose map root each member takes: a parent's own root goes to the lowest member that chose it, the roots of parents
that none chose to the other members, in ascending order (R380). -/
def beamRoots (parents : List Nat) : List Nat :=
  let k := parents.length
  let unchosen := (List.range k).filter (fun p => !parents.contains p)
  ((List.range k).foldl (fun (acc : List Nat × List Nat) i =>
    let p := parents.getD i 0
    if (parents.take i).contains p then (acc.1 ++ [acc.2.headD 0], acc.2.drop 1) else (acc.1 ++ [p], acc.2)) ([], unchosen)).1

/-- The group advances: member i takes parent, map, score and token (R380). -/
def State.beamMember (old : State) (s : State) (b : Nat) (c : FCmd) (ms roots : List Nat) (i : Nat) (w : BeamCand) : State :=
  let me := ms.getD i 0
  let p := ms.getD w.2.1 0
  let root := ms.getD (roots.getD i 0) 0
  let pr := old.record p
  let pages := old.kvOf b p
  let r := s.record me
  let r := (((r.put 128 64 (Record.kvmap (old.record root)).toNat).put 736 32 w.1.toNat).put 768 32 w.2.2)
  let r := Record.setPages (Record.setKvlen (Record.setProvn r 1) (Record.kvlen pr)) pages.length
  let s := (s.setRecord me r).setKv b me pages
  if root = p then s
  else
    let a := recordActor c.core c.svc r
    let cfg := s.fcfg b
    let gone := old.kvOf b root
    match s.attempt a ((List.range (if pages.length < gone.length then gone.length else pages.length)).forM (fun j => do
        if j < pages.length then readMap (recordActor c.core c.svc pr) pr j
        let x ← if j < pages.length then pageAddr a cfg (pages.getD j 0) else pure 0
        writeMap a r j x)) with
    | (0, s) => pages.foldl (fun s k => s.holdPage b k) s
    | (code, s) => ((s.setKv b me []).setRecord me (Record.setPages r 0)).faultRecord me code

/-- BEAM at its former (R380); an error is what reading the scores waits for. -/
def State.beam (s : State) (b : Nat) (c : FCmd) (ent : Entry) (g : Nat) : Except Stop State :=
  let cfg := s.fcfg b
  let done := fun (s : State) (status : BitVec 8) (n f : Nat) => s.pushFor c.core c.q (sampleItem cfg.step status n f b (BitVec.ofNat 32 g))
  let ms := s.beamMembers b c.dom g
  let k := ms.length
  let rs : List Record := ms.map s.record
  if k = 0 ∨ k > 16 ∨ !rs.all (fun r => r.penptr == 0 && r.commit == ((rs.head?).map Record.commit).getD 0) then .ok (done s cREQ 0 0)
  else
    let a : Actor := { core := c.core, dom := c.dom, svc := c.svc }
    match beamCands a ent (rs.map Record.bscore) cfg.vocab s with
    | .error st =>
      if st.waits then .error st
      else
        let (code, _, s) := s.unitStop a st
        .ok (done s code 0 0)
    | .ok (cs, s) =>
      if (cs.filter (fun x => !(codeNum x.1).isInf)).length < k then .ok (done (ms.foldl (fun s i => s.faultRecord i cREQ) s) 0 0 k)
      else
        let best := beamBest k cs
        let parents := best.map (fun w => w.2.1)
        let roots := beamRoots parents
        let old := s
        let lost := (List.range k).filter (fun p => !parents.contains p)
        let s := lost.foldl (fun s p => (s.kvOf b (ms.getD p 0)).foldl (fun s x => s.dropPage b x) s) s
        let s := (List.range k).foldl (fun s i => s.beamMember old b c ms roots i (best.getD i (0, 0, 0))) s
        let bad := ms.filter (fun i => Record.state (s.record i) == stFAULTED)
        .ok (done s 0 (k - bad.length) bad.length)

/-- BEAM_EXECUTE (R380). -/
def execBeamExecute (bf : BitVec 2) (s : State) :=
  happen (
    let b := bf.toNat
    match (s.former b).queue with
    | c :: _ => match c.op with
      | .beam ent g => if s.moving then s.postOnce 1 (.beamExecute bf) else match s.beam b c ent g with
        | .ok t => t.popFormer b
        | .error st => (s.waitAgain st (.beamExecute bf)).getD s
      | _ => s
    | [] => s)

/-- R389. -/
def execBeam (d a b : Reg) (s : State) :=
  run (straight 4 (do
    let q ← completionQueue d
    let x ← rd a
    let w ← rd b
    let bf := fieldOf w 17 16
    checkReq (fieldOf w 63 18 == 0 && fieldOf w 15 0 != 0)
    needFormer bf
    let s ← getState
    let e ← captureMatrix (x.setWidth 32) [0, 1, 2, 3] (fun e => e.ext 0 == (s.fcfg bf).vocab)
    issueFormer bf q (.beam e (fieldOf w 15 0)))) s

end Sys2Proof.Machine
end

