-- ==== Sys2Proof/Machine/Lanes.lean ====
section
/-!
DEFINITION. What the vector instructions share: elements and lanes (11 R226), masks (R227), operands and queues (R228,
R229), the shapes of a vector function (over lanes, over the whole vector, to a mask, to a scalar), and vector memory
(R243–R245).
-/
namespace Sys2Proof.Machine

/-! ## Elements (R226, 03 R55) -/

/-- Bits of an element. -/
def elemBits (e : BitVec 2) : Nat := 32 / 2 ^ e.toNat

/-- Element j of a lane. -/
def elemAt (w : Nat) (l : Lane) (j : Nat) : Nat := l.toNat / 2 ^ (w * j) % 2 ^ w

/-- The elements of a lane. -/
def elemsOf (w : Nat) (l : Lane) : List Nat := (List.range (32 / w)).map (elemAt w l)

/-- A lane of elements, element 0 lowest. -/
def packElems (w : Nat) (xs : List Nat) : Lane := BitVec.ofNat 32 (xs.foldr (fun x acc => x % 2 ^ w + 2 ^ w * acc) 0)

/-- The elements of a vector by their number k. -/
def flat (w : Nat) (ls : List Lane) : List Nat := ls.flatMap (elemsOf w)

/-- `n` lanes of elements by their number; a missing element is zero. -/
def unflat (w n : Nat) (xs : List Nat) : List Lane :=
  (List.range n).map (fun i => packElems w ((xs.drop (i * (32 / w))).take (32 / w)))

/-- A number from its bits, bit 0 first. -/
def natOfBits : List Bool → Nat
  | [] => 0
  | b :: t => (if b then 1 else 0) + 2 * natOfBits t

/-! ## One vector instruction -/

/-- A vector instruction: its function, its fields, its VX payload and its length in bytes. -/
structure VIns where
  op  : VOp
  f   : VFields
  x   : VxFields
  len : Word
  deriving DecidableEq, Repr

/-- Bits of its elements. -/
def VIns.w (v : VIns) : Nat := elemBits v.f.e

/-- The float format of its elements (02 R30, R32): FP32; BF16, or FP16 with ALT. -/
def VIns.fmt (v : VIns) : Fmt := if v.f.e = 0 then .fp32 else if v.x.alt = 1 then .fp16 else .bf16

/-- A vector register's lanes. -/
def Core.vreg (x : Core) (r : Reg) : List Lane := (List.range x.vl).map (fun i => (x.vregs[r.toNat]'r.isLt).getD i 0)

/-- Bit i of a mask register; `m0` is all true (02 R25). -/
def Core.maskBit (x : Core) (m i : Nat) : Bool := m == 0 || (x.masks.toList.getD m 0).getLsbD i

/-- Is a lane active (R227)? -/
def Core.active (x : Core) (v : VIns) (i : Nat) : Bool := x.maskBit v.f.m.toNat i

/-- No lanes: LANES (02 R42, 11 R259). -/
def needLanes : Op Unit := do
  let s ← getState
  check (s.me.vl != 0) cLANES s.openDetail

/-! ## Operands (R228, R229) -/

/-- Byte j of the operand lane is byte SWZ[2j+1:2j] of the register lane (02 R32). -/
def swizzle (swz : BitVec 8) (l : Lane) : Lane :=
  let byte := fun (j : Nat) => l.extractLsb' (8 * fieldOf swz (2 * j + 1) (2 * j)) 8
  byte 3 ++ byte 2 ++ byte 1 ++ byte 0

/-- The items of a handle that the running instance can pop, in order (06 R131), without those taken already. -/
def State.poppable (s : State) (h : Reg) (took : List (QKey × Copy)) : List (QKey × Copy) := match s.keyHere h with
  | some q =>
    let x := s.queue q
    ((x.ownedBy s.me.inst.id ++ s.loose s.cur q).map (fun i => (q, i))).filter
      (fun i => !took.contains i)
  | none => []

/-- The lanes of a popped item. -/
def itemLanes (g vl : Nat) (i : Item) : List Lane :=
  (List.range vl).map (fun k => if k < 4 * g then i.data.extractLsb' (32 * k) 32 else 0)

/-- A vector source: a register, or the next item of a queue, which is noted as taken. -/
def vecSource (queue : BitVec 1) (swz : BitVec 8) (r : Reg) (took : List (QKey × Copy)) :
    Op (List Lane × List (QKey × Copy)) := do
  let s ← getState
  if queue = 1 then
    match (s.poppable r took).head? with
    | some i =>
      check (i.2.item.tag == 0) cTAGBAD (i.2.item.tag.setWidth 64)
      pure ((itemLanes (s.queue i.1).g s.me.vl i.2.item).map (swizzle swz), took ++ [i])
    | none => trap (if s.handleActive r then cACCESS else cQGONE) (r.setWidth 64)
  else pure ((s.me.vreg r).map (swizzle swz), took)

/-- Both sources, a before b (R231): empty when a field names no vector. -/
def vecSources (v : VIns) : Op (List Lane × List Lane × List (QKey × Copy)) := do
  let (a, took) ← if (vspec v.op).a = .vec then vecSource v.x.qa v.x.swza v.f.a [] else pure ([], [])
  let (b, took) ← if (vspec v.op).b = .vec then vecSource v.x.qb v.x.swzb v.f.b took else pure ([], took)
  pure (a, b, took)

/-! ## Results (R227, R229, R232) -/

/-- The item of a queue destination: lanes below 4 G, inactive ones zero. -/
def laneItem (g : Nat) (ls : List Lane) : Item :=
  { tag := 0, data := BitVec.ofNat 1024 (natOfBytes ((ls.take (4 * g)).flatMap (fun l => bytesOf l 4))) }

/-- Granules in which a pushed vector's lanes are laid out: the queue's; for a queue of another package the most an item
has, since that queue cuts the item itself (06 R150). -/
def State.laneSize (s : State) (id : BitVec 32) : Nat := if s.qidPkg id = s.pkg then s.itemSize id else 8

/-- Push the result lanes as one DATA item. -/
def pushLanes (h : Reg) (ls : List Lane) : Op Unit := do
  let id ← pushId h 0
  let s ← getState
  pushItem id (laneItem (s.laneSize id) ls) true

/-- Set lanes of a vector register. -/
def Core.setVreg (x : Core) (r : Reg) (ls : List Lane) : Core := { x with vregs := x.vregs.set r.toNat ls r.isLt }

/-- Destination lanes: results where active, else the old lanes or zero. -/
def mergeLanes (active : Nat → Bool) (zero : BitVec 1) (old res : List Lane) : List Lane :=
  (List.range old.length).map (fun i => if active i then res.getD i 0 else if zero = 1 then 0 else old.getD i 0)

/-- Write a vector result, to the register or to the queue; then the pops take effect and the flags are raised. -/
def vecOut (v : VIns) (active : Nat → Bool) (res : List Lane) (took : List (QKey × Copy)) (f : Flags) : Op Unit := do
  let x ← getMe
  if v.x.qd = 1 then pushLanes v.f.d (mergeLanes active 1 (List.replicate x.vl 0) res)
  else modMe (fun x => x.setVreg v.f.d (mergeLanes active v.x.zero (x.vreg v.f.d) res))
  took.forM removeItem
  raise f

/-- Write bits of a mask register below `vl`. -/
def Core.setMask (x : Core) (r : Nat) (bits : List Bool) : Core :=
  let old := x.masks.toList.getD r 0
  let keep : BitVec 128 := BitVec.allOnes 128 <<< x.vl
  { x with masks := x.masks.setIfInBounds r ((old &&& keep) ||| (BitVec.ofNat 128 (natOfBits bits) &&& ~~~keep)) }

/-! ## Shapes of vector functions -/

/-- Each active lane from the lanes of a, of b and of the old destination, with its flags. -/
def perLane (v : VIns) (g : Lane → Lane → Lane → Lane × Flags) : Op Unit := straight v.len (do
  needLanes
  let (a, b, took) ← vecSources v
  let x ← getMe
  let old := x.vreg v.f.d
  let rs := (List.range x.vl).map (fun i => if x.active v i then g (a.getD i 0) (b.getD i 0) (old.getD i 0) else (0, 0))
  vecOut v (x.active v) (rs.map (·.1)) took (rs.foldl (fun f r => f ||| r.2) 0))

/-- Elements of width w of one lane, each from those of a, b and the destination. -/
def laneOf (w : Nat) (g : Nat → Nat → Nat → Nat × Flags) (a b d : Lane) : Lane × Flags :=
  let rs := (List.range (32 / w)).map (fun j => g (elemAt w a j) (elemAt w b j) (elemAt w d j))
  (packElems w (rs.map (·.1)), rs.foldl (fun f r => f ||| r.2) 0)

/-- An elementwise function. -/
def perElem (v : VIns) (g : Nat → Nat → Nat → Nat × Flags) : Op Unit := perLane v (laneOf v.w g)

/-- An elementwise function that raises no flag. -/
def perElemPlain (v : VIns) (g : Nat → Nat → Nat → Nat) : Op Unit := perElem v (fun x y d => (g x y d, 0))

/-- An elementwise float function under the modes of NMODE: operands decoded with their flushes, results encoded. -/
def perFloat (v : VIns) (g : Modes → Num → Num → Num → Nat × Flags) : Op Unit := do
  let md ← modes
  let two := (vspec v.op).b == .vec
  let three := (vspec v.op).d == .acc
  perElem v (fun x y d =>
    let (x, f1) := decodeNum md v.fmt x
    let (y, f2) := if two then decodeNum md v.fmt y else (Num.zero false, 0)
    let (d, f3) := if three then decodeNum md v.fmt d else (Num.zero false, 0)
    let (c, f) := g md x y d
    (c, f ||| f1 ||| f2 ||| f3))

/-- A float function whose exact result is rounded once. -/
def perFloatExact (v : VIns) (g : Modes → Num → Num → Num → Num × Flags) : Op Unit :=
  perFloat v (fun md x y d => let (r, f) := g md x y d; let (c, f') := encodeNum v.fmt md r; (c, f ||| f'))

/-- The whole vector from the whole sources, under the mask. -/
def whole (v : VIns) (g : Nat → List Lane → List Lane → List Lane) : Op Unit := straight v.len (do
  needLanes
  let (a, b, took) ← vecSources v
  let x ← getMe
  vecOut v (x.active v) (g x.vl a b) took 0)

/-- Every lane is written, from the sources and the lanes that are active. -/
def everyLane (v : VIns) (g : Nat → (Nat → Bool) → List Lane → List Lane → List Lane × Flags) : Op Unit := straight v.len (do
  needLanes
  let (a, b, took) ← vecSources v
  let x ← getMe
  let (r, f) := g x.vl (x.active v) a b
  vecOut v (fun _ => true) r took f)

/-- A compare: the bits of active lanes (R236). -/
def compareLanes (v : VIns) (g : Lane → Lane → Bool) : Op Unit := straight v.len (do
  needLanes
  let (a, b, took) ← vecSources v
  modMe (fun x => x.setMask v.f.d.toNat ((List.range x.vl).map (fun i =>
    if x.active v i then g (a.getD i 0) (b.getD i 0) else v.x.zero == 0 && x.maskBit v.f.d.toNat i)))
  took.forM removeItem)

/-- A mask function: a bit of every lane (R237). -/
def maskLanes (v : VIns) (g : Bool → Bool → Bool) : Op Unit := straight v.len (do
  needLanes
  modMe (fun x => x.setMask v.f.d.toNat ((List.range x.vl).map (fun i =>
    g (x.maskBit v.f.a.toNat i) (x.maskBit v.f.b.toNat i)))))

/-- A reduction of the elements of the active lanes to a scalar (R239). -/
def reduce (v : VIns) (g : List Nat → Word × Flags) : Op Unit := straight v.len (do
  needLanes
  let (a, _, took) ← vecSources v
  let x ← getMe
  let els := (List.range x.vl).flatMap (fun i => if x.active v i then elemsOf v.w (a.getD i 0) else [])
  let (r, f) := g els
  wr v.f.d r
  took.forM removeItem
  raise f)

/-! ## Vector memory (R243–R245) -/

/-- The checks of one access: address, alignment, translation, part by part. -/
def mapAccess (addr : Word) (n al : Nat) (kind : Kind) : Op (List Part) := do
  let _ ← checkAddress addr
  check (addr.toNat % al == 0) cALIGN addr
  mapRange addr n kind

/-- Alignment of an element in bytes. -/
def VIns.align (v : VIns) : Nat := if v.w / 8 = 0 then 1 else v.w / 8

/-- The lanes of the instance that are active. -/
def Core.activeLanes (x : Core) (v : VIns) : List Nat := (List.range x.vl).filter (x.active v)

/-- A part of a vector store, with its bits in place. -/
structure StorePart where
  addr  : Nat
  loc   : Loc
  pa    : Nat
  n     : Nat
  value : BitVec 128
  bits  : BitVec 128
  deriving DecidableEq, Repr

/-- Pieces of one aligned 16-byte block are one part (R245). -/
def joinParts (ps : List StorePart) : List StorePart :=
  ps.foldr (fun p acc => match acc with
    | q :: t =>
      if p.addr / 16 = q.addr / 16 ∧ p.addr < q.addr then
        let sh := 8 * (q.addr - p.addr)
        { p with n := q.addr + q.n - p.addr, value := p.value ||| (q.value <<< sh), bits := p.bits ||| (q.bits <<< sh) } :: t
      else p :: acc
    | [] => [p]) []

/-- The pieces of one stored value. -/
def piecesOf (ps : List Part) (v : Nat) : List StorePart :=
  ps.map (fun p =>
    let m : BitVec 128 := BitVec.allOnes 128 >>> (128 - 8 * p.n)
    { addr := p.addr.toNat, loc := p.loc, pa := p.pa, n := p.n, value := BitVec.ofNat 128 (v / 2 ^ (8 * p.off)) &&& m, bits := m })

/-- Post the parts of a vector store. -/
def storeParts (ps : List StorePart) : Op Unit := ps.forM (fun p => do
  makeRoom
  bufferStore p.loc p.pa p.n p.value p.bits)

/-- A vector load: each access as (address, bytes), all checked and mapped before any is read; the values. -/
def loadAll (v : VIns) (acc : List (Word × Nat)) : Op (List Nat) := do
  let ms ← acc.mapM (fun a => mapAccess a.1 a.2 v.align .read)
  ms.mapM (fun ps => do
    let bs ← readRange ps true
    pure (natOfBytes bs))

/-- A vector store: each access as (address, bytes, value). `joined` for the contiguous form. -/
def storeAll (v : VIns) (acc : List (Word × Nat × Nat)) (joined : Bool) : Op Unit := do
  let ms ← acc.mapM (fun a => do
    let ps ← mapAccess a.1 a.2.1 v.align .write
    pure (piecesOf ps a.2.2))
  let ps := ms.flatten
  storeParts (if joined then joinParts ps else ps)

/-- VLD. -/
def vecLoad (v : VIns) : Op Unit := straight v.len (do
  needLanes
  let x ← getMe
  let base ← rd v.f.a
  let is := x.activeLanes v
  let vs ← loadAll v (is.map (fun i => (base + word (4 * i), 4)))
  let at_ := fun (i : Nat) => ((is.zip vs).lookup i).getD 0
  vecOut v (x.active v) ((List.range x.vl).map (fun i => BitVec.ofNat 32 (at_ i))) [] 0)

/-- VST. -/
def vecStore (v : VIns) : Op Unit := straight v.len (do
  needLanes
  let x ← getMe
  let base ← rd v.f.a
  let ls := x.vreg v.f.d
  storeAll v ((x.activeLanes v).map (fun i => (base + word (4 * i), 4, (ls.getD i 0).toNat))) true)

/-- The address of element k of a strided form. -/
def strided (base stride : Word) (k : Nat) : Word := base + word k * stride

/-- The element numbers of the active lanes. -/
def Core.activeElems (x : Core) (v : VIns) : List Nat :=
  (x.activeLanes v).flatMap (fun i => (List.range (32 / v.w)).map (fun j => i * (32 / v.w) + j))

/-- VLDS. -/
def vecLoadStrided (v : VIns) : Op Unit := straight v.len (do
  needLanes
  let x ← getMe
  let base ← rd v.f.a
  let stride ← rd v.f.b
  let ks := x.activeElems v
  let vs ← loadAll v (ks.map (fun k => (strided base stride k, v.w / 8)))
  let at_ := fun (k : Nat) => ((ks.zip vs).lookup k).getD 0
  vecOut v (x.active v) (unflat v.w x.vl ((List.range (x.vl * (32 / v.w))).map at_)) [] 0)

/-- VSTS. -/
def vecStoreStrided (v : VIns) : Op Unit := straight v.len (do
  needLanes
  let x ← getMe
  let base ← rd v.f.a
  let stride ← rd v.f.b
  let els := flat v.w (x.vreg v.f.d)
  storeAll v ((x.activeElems v).map (fun k => (strided base stride k, v.w / 8, els.getD k 0))) false)

/-- The address of lane i of an indexed form. -/
def indexed (base : Word) (ix : List Lane) (i : Nat) : Word := base + (ix.getD i 0).setWidth 64

/-- VLDX. -/
def vecLoadIndexed (v : VIns) : Op Unit := straight v.len (do
  needLanes
  let x ← getMe
  let base ← rd v.f.a
  let (_, ix, _) ← vecSources v
  let is := x.activeLanes v
  let vs ← loadAll v (is.map (fun i => (indexed base ix i, 4)))
  let at_ := fun (i : Nat) => ((is.zip vs).lookup i).getD 0
  vecOut v (x.active v) ((List.range x.vl).map (fun i => BitVec.ofNat 32 (at_ i))) [] 0)

/-- VSTX. -/
def vecStoreIndexed (v : VIns) : Op Unit := straight v.len (do
  needLanes
  let x ← getMe
  let base ← rd v.f.a
  let (_, ix, _) ← vecSources v
  let ls := x.vreg v.f.d
  storeAll v ((x.activeLanes v).map (fun i => (indexed base ix i, 4, (ls.getD i 0).toNat))) false)

/-- Set element j of a lane. -/
def setElem (w : Nat) (l : Lane) (j v : Nat) : Lane := packElems w ((elemsOf w l).set j v)

/-- VLDT (R244): element c of row r to register vd + c, lane r div p, element r mod p. -/
def vecLoadTransposed (v : VIns) : Op Unit := straight v.len (do
  needLanes
  let x ← getMe
  let base ← rd v.f.a
  let stride ← rd v.f.b
  let p := 32 / v.w
  let rows := (List.range 16).filter (fun r => decide (r / p < x.vl) && x.active v (r / p))
  let vs ← loadAll v (rows.map (fun r => (strided base stride r, 2 * v.w)))
  let row := fun (r : Nat) => ((rows.zip vs).lookup r).getD 0
  modMe (fun x => (List.range 16).foldl (fun y c =>
    let d : Reg := nextReg v.f.d c
    let new := (List.range (16 / p)).map (fun i => packElems v.w ((List.range p).map (fun j => row (i * p + j) / 2 ^ (v.w * c) % 2 ^ v.w)))
    y.setVreg d (mergeLanes (fun i => i < 16 / p && x.active v i) 0
      ((x.vreg d).mapIdx (fun i l => if v.x.zero = 1 ∧ i < 16 / p ∧ !x.active v i then 0 else l)) new)) x))

/-- VLDB. -/
def vecLoadBroadcast (v : VIns) : Op Unit := straight v.len (do
  needLanes
  let x ← getMe
  let base ← rd v.f.a
  let vs ← if x.activeLanes v = [] then pure [] else loadAll v [(base, v.w / 8)]
  vecOut v (x.active v) (List.replicate x.vl (packElems v.w (List.replicate (32 / v.w) (vs.headD 0)))) [] 0)

end Sys2Proof.Machine
end

