-- ==== Sys2Proof/Machine/Vector.lean ====
section
/-!
DEFINITION. The vector instructions (11 R233–R256): each function by its shape, the short forms and the VX long form.
-/
namespace Sys2Proof.Machine

/-! ## Integer functions (R233, R234) -/

/-- A signed value clamped to [lo, hi], SAT when clamped. -/
def clampInt (w : Nat) (lo hi x : Int) : Nat × Flags :=
  if x > hi then (intCode w hi, flagSAT) else if x < lo then (intCode w lo, flagSAT) else (intCode w x, 0)

/-- Clamped to the signed range of w bits. -/
def clampSigned (w : Nat) (x : Int) : Nat × Flags := clampInt w (-(2 ^ (w - 1))) (2 ^ (w - 1) - 1) x

/-- Clamped to the unsigned range of w bits. -/
def clampUnsigned (w : Nat) (x : Int) : Nat × Flags := clampInt w 0 (2 ^ w - 1) x

/-- floor(x / 2^k). -/
def shiftDown (x : Int) (k : Nat) : Int := x / 2 ^ k

def minInt (x y : Int) : Int := if x ≤ y then x else y
def maxInt (x y : Int) : Int := if x ≤ y then y else x

/-- An elementwise function of the signed views. -/
def perSigned (v : VIns) (g : Int → Int → Int) : Op Unit :=
  perElemPlain v (fun x y _ => intCode v.w (g (signedOf v.w x) (signedOf v.w y)))

/-- An elementwise function of the unsigned views. -/
def perUnsigned (v : VIns) (g : Nat → Nat → Nat) : Op Unit := perElemPlain v (fun x y _ => g x y)

/-- Number of 1 bits of w bits. -/
def popBits (w x : Nat) : Nat := (List.range w).foldl (fun n i => n + x / 2 ^ i % 2) 0

/-- Leading zero bits of w bits. -/
def leadZeros (w x : Nat) : Nat := if x = 0 then w else w - 1 - Nat.log2 x

/-! ## Float functions (R235, R239) -/

/-- The smaller of two values, or the larger with `big`; −0 is below +0, and a NaN gives way (Table 11.3). -/
def pickNum (big : Bool) (x y : Num) : Num :=
  if x.isNan then (if y.isNan then .nan false else y)
  else if y.isNan then x
  else
    let less := ltNum x y || (eqNum x y && x.isNeg && !y.isNeg)
    if less != big then x else y

/-- The quotient and the root, rounded once. -/
def fdiv (f : Fmt) (md : Modes) (x y _d : Num) : Nat × Flags := divNum f md x y
def fsqrt (f : Fmt) (md : Modes) (x _y _d : Num) : Nat × Flags := sqrtNum f md x

/-- A canonical NaN for a NaN. -/
def canon (x : Num) : Num := if x.isNan then .nan false else x

/-- A float fold of the active elements (R239): the identity when there is none. -/
def foldFloat (v : VIns) (g : Num → Num → Num) (pre : Num → Num) (id : Nat) : Op Unit := do
  let md ← modes
  reduce v (fun els =>
    let ds := els.map (decodeNum md v.fmt)
    let f := ds.foldl (fun f d => f ||| d.2) 0
    match ds.map (fun d => pre d.1) with
    | [] => (word id, f)
    | x :: t =>
      let (c, f') := encodeNum .fp32 md.rne (canon (t.foldl g x))
      (word c, f ||| f'))

/-- VFRSUM: the exact sum rounded once to FP32 under RNE (R239, 03 R76). -/
def sumFloat (v : VIns) : Op Unit := do
  let md ← modes
  reduce v (fun els =>
    let ds := els.map (decodeNum md v.fmt)
    let f := ds.foldl (fun f d => f ||| d.2) 0
    let (r, f1) := exactSum (ds.map (·.1))
    let (c, f2) := encodeNum .fp32 md.rne r
    (word c, f ||| f1 ||| f2))

/-- An integer reduction: a fold from the identity. -/
def reduceInt (v : VIns) (pre : Nat → Int) (g : Int → Int → Int) (id : Int) : Op Unit :=
  reduce v (fun els => (BitVec.ofInt 64 ((els.map pre).foldl g id), 0))

/-- A bitwise reduction. -/
def reduceBits (v : VIns) (g : Nat → Nat → Nat) (id : Nat) : Op Unit :=
  reduce v (fun els => (word (els.foldl g id), 0))

/-- A compare of FP32 lanes, quiet (R236). DESIGN CHOICE (log 92): a subnormal that FLUSH32 reads as zero raises no UNF
here. -/
def compareFloat (v : VIns) (g : Num → Num → Bool) : Op Unit := do
  let md ← modes
  compareLanes v (fun a b => g (decodeNum md .fp32 a.toNat).1 (decodeNum md .fp32 b.toNat).1)

/-! ## Moves (R238) -/

/-- VEXT. -/
def vecExtract (v : VIns) : Op Unit := straight v.len (do
  needLanes
  let (a, _, took) ← vecSources v
  let k ← rd v.f.b
  wr v.f.d (word ((flat v.w a).getD k.toNat 0))
  took.forM removeItem)

/-- VINS. -/
def vecInsert (v : VIns) : Op Unit := straight v.len (do
  needLanes
  let x ← rd v.f.a
  let k ← rd v.f.b
  let p := 32 / v.w
  modMe (fun m => m.setVreg v.f.d ((m.vreg v.f.d).mapIdx (fun i l =>
    if k.toNat / p = i then setElem v.w l (k.toNat % p) (x.toNat % 2 ^ v.w) else l))))

/-- The elements of a vector rearranged by their number. -/
def rearrange (v : VIns) (n : Nat) (els : List Nat) (g : Nat → Option Nat) : List Lane :=
  unflat v.w n ((List.range (n * (32 / v.w))).map (fun k => match g k with
    | some j => els.getD j 0
    | none => 0))

/-- A slide by `s[b]` elements. -/
def slide (v : VIns) (up : Bool) : Op Unit := do
  let k ← rd v.f.b
  whole v (fun vl a _ => rearrange v vl (flat v.w a) (fun i =>
    if up then (if k.toNat ≤ i then some (i - k.toNat) else none) else some (i + k.toNat)))

/-- VMASKN. -/
def maskFirstN (v : VIns) : Op Unit := straight v.len (do
  needLanes
  let n ← rd v.f.a
  modMe (fun x => x.setMask v.f.d.toNat ((List.range x.vl).map (fun i => i < n.toNat))))

/-- MCOUNT and MFIRST. -/
def maskScalar (v : VIns) (g : List Bool → Nat) : Op Unit := straight v.len (do
  needLanes
  let x ← getMe
  wr v.f.d (word (g ((List.range x.vl).map (x.maskBit v.f.a.toNat)))))

/-! ## Widening, dot products, narrowing (R240–R242) -/

/-- The elements of a half of a lane. -/
def halfOf (w : Nat) (h : BitVec 1) (l : Lane) : List Nat :=
  ((elemsOf w l).drop (if h = 1 then 32 / w / 2 else 0)).take (32 / w / 2)

/-- The selected halfPairs of both sources, pairwise. -/
def halfPairs (v : VIns) (a b : Lane) : List (Nat × Nat) := (halfOf v.w v.f.ha a).zip (halfOf v.w v.f.hb b)

/-- A widening function. -/
def widen (v : VIns) (g : Nat → Nat → Int) : Op Unit :=
  perLane v (fun a b _ => (packElems (2 * v.w) ((halfPairs v a b).map (fun p => intCode (2 * v.w) (g p.1 p.2))), 0))

/-- An integer dot product into 32-bit lanes. -/
def dotInt (v : VIns) (ext : Nat → Int) : Op Unit :=
  perLane v (fun a b d => (d + BitVec.ofInt 32 ((halfPairs v a b).foldl (fun t p => t + ext p.1 * ext p.2) 0), 0))

/-- The floating dot product: one rounding under RNE (R241). -/
def dotFloat (v : VIns) : Op Unit := do
  let md ← modes
  perLane v (fun a b d =>
    let (d0, f0) := decodeNum md .fp32 d.toNat
    let ts := (halfPairs v a b).map (fun p =>
      let (x, f1) := decodeNum md v.fmt p.1
      let (y, f2) := decodeNum md v.fmt p.2
      let (z, f3) := mulNum x y
      (z, f1 ||| f2 ||| f3))
    let (r, f4) := exactSum (d0 :: ts.map (·.1))
    let (c, f5) := encodeNum .fp32 md.rne r
    (BitVec.ofNat 32 c, ts.foldl (fun f t => f ||| t.2) (f0 ||| f4 ||| f5)))

/-- A narrowing shift: nearest even, clamped. -/
def narrow (v : VIns) (sign : Bool) : Op Unit := do
  let s ← rd v.f.b
  let n := s.toNat % (2 * v.w)
  perLane v (fun a _ _ =>
    let rs := (elemsOf (2 * v.w) a).map (fun x =>
      let i : Int := if sign then signedOf (2 * v.w) x else x
      let q := signMant (i < 0) (roundInt 0 (i < 0) i.natAbs (2 ^ n))
      if sign then clampSigned v.w q else clampUnsigned v.w q)
    (packElems v.w (rs.map (·.1)), rs.foldl (fun f r => f ||| r.2) 0))

/-! ## Conversions and special functions (R246–R256) -/

/-- VCVTN: every lane encoded, packed from lane 0 (R247). -/
def vecNarrow (v : VIns) : Op Unit := do
  let md ← modes
  match fmtOf v.f.b.toNat with
  | some fmt => everyLane v (fun vl _ a _ =>
      let rs := a.map (fun l =>
        let (x, f1) := decodeNum md .fp32 l.toNat
        let (c, f2) := encodeFmt fmt md x
        (c, f1 ||| f2))
      (unflat v.w vl (rs.map (·.1)), rs.foldl (fun f r => f ||| r.2) 0))
  | none => pure ()

/-- The destination of a widening conversion (Table 11.11); none: a 16-bit integer. -/
def wideFmt (fmt : Fmt) : Option Fmt :=
  match fmt with
  | .t8 | .t6 => some .bf16
  | .k4 => some .t8
  | .int4 => some .int8
  | .int8 => none
  | _ => some .fp32

/-- VCVTW (R248). -/
def vecWiden (v : VIns) : Op Unit := do
  let md ← modes
  match fmtOf v.f.b.toNat with
  | some fmt => perLane v (fun a _ _ =>
      let rs := (halfOf v.w v.f.ha a).map (fun c =>
        let (x, f1) := decodeNum md fmt c
        let (r, f2) := match wideFmt fmt with
          | some dst => encodeFmt dst md.rne x
          | none => encodeInt 16 md x
        (r, f1 ||| f2))
      (packElems (2 * v.w) (rs.map (·.1)), rs.foldl (fun f r => f ||| r.2) 0))
  | none => pure ()

/-- VCVTF: the signed element as a float. -/
def intToFloat (v : VIns) : Op Unit := do
  let md ← modes
  perElem v (fun x _ _ => encodeNum v.fmt md (Num.ofInt (signedOf v.w x) 0))

/-- VCVTI: the float as a signed element. -/
def floatToInt (v : VIns) : Op Unit := perFloat v (fun md x _ _ => encodeInt v.w md x)

/-- VSCALE: va × 2^n (R249). -/
def vecScale (v : VIns) : Op Unit := do
  let md ← modes
  perElem v (fun x y _ =>
    let n := maxInt (-300) (minInt 300 (signedOf 32 y))
    let (z, f1) := decodeNum md .fp32 x
    let (c, f2) := encodeNum .fp32 md (canon (z.scale n))
    (c, f1 ||| f2))

/-- A fixed function of FP32 lanes. -/
def fixedFn (v : VIns) (g : Modes → Num → Nat × Flags) : Op Unit := perFloat v (fun md x _ _ => g md x)

/-- VFN with a table of the core's ensemble (R250, R251). -/
def vecTable (v : VIns) : Op Unit := do
  let s ← getState
  let t := (s.ens (ensOf s.cur)).sfu.get {} v.f.b.toNat
  fixedFn v (vfnOf (fun j => let p := t.seg.get (0, 0) j; (p.1.toNat, p.2.toNat)) t.lo.toNat t.inv.toNat)

/-! ## Every function -/

/-- The effect of a vector function (Tables 11.1–11.8, R239–R256). -/
def vecOp (v : VIns) : Op Unit :=
  let w := v.w
  let sh := fun (y : Nat) => y % w
  match v.op with
  | .vadd => perUnsigned v (fun x y => x + y)
  | .vsub => perUnsigned v (fun x y => x + 2 ^ w - y)
  | .vmul => perUnsigned v (fun x y => x * y)
  | .vmulh => perSigned v (fun x y => shiftDown (x * y) w)
  | .vmulhu => perUnsigned v (fun x y => x * y / 2 ^ w)
  | .vmin => perSigned v minInt
  | .vmax => perSigned v maxInt
  | .vminu => perUnsigned v (fun x y => if x ≤ y then x else y)
  | .vmaxu => perUnsigned v (fun x y => if x ≤ y then y else x)
  | .vadds => perElem v (fun x y _ => clampSigned w (signedOf w x + signedOf w y))
  | .vsubs => perElem v (fun x y _ => clampSigned w (signedOf w x - signedOf w y))
  | .vaddsn => perElem v (fun x y _ => clampUnsigned w ((x : Int) + y))
  | .vsubsn => perElem v (fun x y _ => clampUnsigned w ((x : Int) - y))
  | .vabsd => perSigned v (fun x y => (x - y).natAbs)
  | .vavg => perSigned v (fun x y => shiftDown (x + y + 1) 1)
  | .vmac => perElemPlain v (fun x y d => d + x * y)
  | .vand => perUnsigned v (fun x y => x &&& y)
  | .vor => perUnsigned v (fun x y => x ||| y)
  | .vxor => perUnsigned v (fun x y => x ^^^ y)
  | .vandn => perUnsigned v (fun x y => x &&& (2 ^ w - 1 - y))
  | .vsll => perUnsigned v (fun x y => x * 2 ^ sh y)
  | .vsrl => perUnsigned v (fun x y => x / 2 ^ sh y)
  | .vsra => perElemPlain v (fun x y _ => intCode w (shiftDown (signedOf w x) (sh y)))
  | .vrol => perUnsigned v (fun x y => x * 2 ^ sh y + x / 2 ^ (w - sh y))
  | .vnot => perUnsigned v (fun x _ => 2 ^ w - 1 - x)
  | .vpopc => perUnsigned v (fun x _ => popBits w x)
  | .vclz => perUnsigned v (fun x _ => leadZeros w x)
  | .vfadd => perFloatExact v (fun md x y _ => addNum md.rm x y)
  | .vfsub => perFloatExact v (fun md x y _ => addNum md.rm x y.negate)
  | .vfmul => perFloatExact v (fun _ x y _ => mulNum x y)
  | .vfma => perFloatExact v (fun md x y d => fmaNum md.rm x y d)
  | .vfms => perFloatExact v (fun md x y d => fmaNum md.rm x y d.negate)
  | .vfnma => perFloatExact v (fun md x y d => fmaNum md.rm x.negate y d)
  | .vfmin => perFloatExact v (fun _ x y _ => (pickNum false x y, 0))
  | .vfmax => perFloatExact v (fun _ x y _ => (pickNum true x y, 0))
  | .vfabs => perFloatExact v (fun _ x _ _ => (canon x.absNum, 0))
  | .vfneg => perFloatExact v (fun _ x _ _ => (canon x.negate, 0))
  | .vfdiv => perFloat v (fdiv v.fmt)
  | .vfsqrt => perFloat v (fsqrt v.fmt)
  | .vcmpeq => compareLanes v (fun a b => a == b)
  | .vcmpne => compareLanes v (fun a b => a != b)
  | .vcmplt => compareLanes v (fun a b => a.slt b)
  | .vcmple => compareLanes v (fun a b => a.sle b)
  | .vcmpltn => compareLanes v (fun a b => a.ult b)
  | .vcmplen => compareLanes v (fun a b => a.ule b)
  | .vfcmpeq => compareFloat v eqNum
  | .vfcmplt => compareFloat v ltNum
  | .vfcmple => compareFloat v (fun x y => ltNum x y || eqNum x y)
  | .vfcmpun => compareFloat v (fun x y => x.isNan || y.isNan)
  | .mand => maskLanes v (fun a b => a && b)
  | .mor => maskLanes v (fun a b => a || b)
  | .mxor => maskLanes v (fun a b => a != b)
  | .mandn => maskLanes v (fun a b => a && !b)
  | .mnot => maskLanes v (fun a _ => !a)
  | .vmov => whole v (fun _ a _ => a)
  | .vsplat => do
    let x ← rd v.f.a
    whole v (fun vl _ _ => List.replicate vl (packElems w (List.replicate (32 / w) x.toNat)))
  | .vext => vecExtract v
  | .vins => vecInsert v
  | .vslup => slide v true
  | .vsldn => slide v false
  | .vperm => whole v (fun vl a b => let ix := flat w b; rearrange v vl (flat w a) (fun k => ix[k]?))
  | .vmerge => everyLane v (fun vl act a b => ((List.range vl).map (fun i => if act i then a.getD i 0 else b.getD i 0), 0))
  | .vcomp => everyLane v (fun vl act a _ => (((List.range vl).filter act).map (fun i => a.getD i 0), 0))
  | .vidx => whole v (fun vl _ _ => unflat w vl (List.range (vl * (32 / w))))
  | .vmaskn => maskFirstN v
  | .mcount => maskScalar v (fun bs => bs.count true)
  | .mfirst => maskScalar v (fun bs => bs.findIdx (fun b => b))
  | .vrsum => reduceInt v (signedOf w) (fun x y => x + y) 0
  | .vrmin => reduceInt v (signedOf w) minInt (2 ^ (w - 1) - 1)
  | .vrmax => reduceInt v (signedOf w) maxInt (-(2 ^ (w - 1)))
  | .vrminu => reduceInt v (fun x => x) minInt (2 ^ w - 1)
  | .vrmaxu => reduceInt v (fun x => x) maxInt 0
  | .vrand => reduceBits v (fun x y => x &&& y) (2 ^ w - 1)
  | .vrior => reduceBits v (fun x y => x ||| y) 0
  | .vrxor => reduceBits v (fun x y => x ^^^ y) 0
  | .vfrsum => sumFloat v
  | .vfrmin => foldFloat v (pickNum false) (fun x => x) inf32
  | .vfrmax => foldFloat v (pickNum true) (fun x => x) negInf32
  | .vframax => foldFloat v (pickNum true) Num.absNum 0
  | .vwadd => widen v (fun x y => signedOf w x + signedOf w y)
  | .vwmul => widen v (fun x y => signedOf w x * signedOf w y)
  | .vwmuln => widen v (fun x y => x * y)
  | .vdot => if v.f.e = 1 then dotFloat v else dotInt v (signedOf w)
  | .vdotn => dotInt v (fun x => x)
  | .vnshr => narrow v true
  | .vnshrn => narrow v false
  | .vpack => perLane v (fun a b _ => (packElems w (elemsOf (2 * w) a ++ elemsOf (2 * w) b), 0))
  | .vld => vecLoad v
  | .vst => vecStore v
  | .vlds => vecLoadStrided v
  | .vsts => vecStoreStrided v
  | .vldx => vecLoadIndexed v
  | .vstx => vecStoreIndexed v
  | .vldt => vecLoadTransposed v
  | .vldb => vecLoadBroadcast v
  | .vcvtf => intToFloat v
  | .vcvti => floatToInt v
  | .vcvtn => vecNarrow v
  | .vcvtw => vecWiden v
  | .vfn => vecTable v
  | .vsin => fixedFn v (vtrigOf false)
  | .vcos => fixedFn v (vtrigOf true)
  | .vexp => fixedFn v vexpOf
  | .vlog => fixedFn v vlogOf
  | .vrcp => fixedFn v vrcpOf
  | .vrsq => fixedFn v vrsqOf
  | .vtanh => fixedFn v vtanhOf
  | .vsigm => fixedFn v vsigmOf
  | .vscale => vecScale v

/-- A short form: merge mode, no swizzle, register operands (02 R30). -/
def shortForm (op : VOp) (f : VFields) : Op Unit := vecOp { op := op, f := f, x := VxFields.short, len := 4 }

/-- A vector function under a VX prefix (02 R32): the pair is one instruction of 8 bytes. -/
def execVxLongForm (op : VOp) (f : VFields) (x : VxFields) (s : State) := run (vecOp { op := op, f := f, x := x, len := 8 }) s

/-! ## The short forms -/

/-- R233. -/
def execVadd (d a b : Reg) (m : BitVec 3) (e : BitVec 2) (s : State) := run (shortForm .vadd ⟨d, a, b, m, e, 0, 0⟩) s
/-- R233. -/
def execVsub (d a b : Reg) (m : BitVec 3) (e : BitVec 2) (s : State) := run (shortForm .vsub ⟨d, a, b, m, e, 0, 0⟩) s
/-- R233. -/
def execVmul (d a b : Reg) (m : BitVec 3) (e : BitVec 2) (s : State) := run (shortForm .vmul ⟨d, a, b, m, e, 0, 0⟩) s
/-- R233. -/
def execVmulh (d a b : Reg) (m : BitVec 3) (e : BitVec 2) (s : State) := run (shortForm .vmulh ⟨d, a, b, m, e, 0, 0⟩) s
/-- R233. -/
def execVmulhu (d a b : Reg) (m : BitVec 3) (e : BitVec 2) (s : State) := run (shortForm .vmulhu ⟨d, a, b, m, e, 0, 0⟩) s
/-- R233. -/
def execVmin (d a b : Reg) (m : BitVec 3) (e : BitVec 2) (s : State) := run (shortForm .vmin ⟨d, a, b, m, e, 0, 0⟩) s
/-- R233. -/
def execVmax (d a b : Reg) (m : BitVec 3) (e : BitVec 2) (s : State) := run (shortForm .vmax ⟨d, a, b, m, e, 0, 0⟩) s
/-- R233. -/
def execVminu (d a b : Reg) (m : BitVec 3) (e : BitVec 2) (s : State) := run (shortForm .vminu ⟨d, a, b, m, e, 0, 0⟩) s
/-- R233. -/
def execVmaxu (d a b : Reg) (m : BitVec 3) (e : BitVec 2) (s : State) := run (shortForm .vmaxu ⟨d, a, b, m, e, 0, 0⟩) s
/-- R233. -/
def execVadds (d a b : Reg) (m : BitVec 3) (e : BitVec 2) (s : State) := run (shortForm .vadds ⟨d, a, b, m, e, 0, 0⟩) s
/-- R233. -/
def execVsubs (d a b : Reg) (m : BitVec 3) (e : BitVec 2) (s : State) := run (shortForm .vsubs ⟨d, a, b, m, e, 0, 0⟩) s
/-- R233. -/
def execVaddsn (d a b : Reg) (m : BitVec 3) (e : BitVec 2) (s : State) := run (shortForm .vaddsn ⟨d, a, b, m, e, 0, 0⟩) s
/-- R233. -/
def execVsubsn (d a b : Reg) (m : BitVec 3) (e : BitVec 2) (s : State) := run (shortForm .vsubsn ⟨d, a, b, m, e, 0, 0⟩) s
/-- R233. -/
def execVabsd (d a b : Reg) (m : BitVec 3) (e : BitVec 2) (s : State) := run (shortForm .vabsd ⟨d, a, b, m, e, 0, 0⟩) s
/-- R233. -/
def execVavg (d a b : Reg) (m : BitVec 3) (e : BitVec 2) (s : State) := run (shortForm .vavg ⟨d, a, b, m, e, 0, 0⟩) s
/-- R233. -/
def execVmac (d a b : Reg) (m : BitVec 3) (e : BitVec 2) (s : State) := run (shortForm .vmac ⟨d, a, b, m, e, 0, 0⟩) s
/-- R234. -/
def execVand (d a b : Reg) (m : BitVec 3) (e : BitVec 2) (s : State) := run (shortForm .vand ⟨d, a, b, m, e, 0, 0⟩) s
/-- R234. -/
def execVor (d a b : Reg) (m : BitVec 3) (e : BitVec 2) (s : State) := run (shortForm .vor ⟨d, a, b, m, e, 0, 0⟩) s
/-- R234. -/
def execVxor (d a b : Reg) (m : BitVec 3) (e : BitVec 2) (s : State) := run (shortForm .vxor ⟨d, a, b, m, e, 0, 0⟩) s
/-- R234. -/
def execVandn (d a b : Reg) (m : BitVec 3) (e : BitVec 2) (s : State) := run (shortForm .vandn ⟨d, a, b, m, e, 0, 0⟩) s
/-- R234. -/
def execVsll (d a b : Reg) (m : BitVec 3) (e : BitVec 2) (s : State) := run (shortForm .vsll ⟨d, a, b, m, e, 0, 0⟩) s
/-- R234. -/
def execVsrl (d a b : Reg) (m : BitVec 3) (e : BitVec 2) (s : State) := run (shortForm .vsrl ⟨d, a, b, m, e, 0, 0⟩) s
/-- R234. -/
def execVsra (d a b : Reg) (m : BitVec 3) (e : BitVec 2) (s : State) := run (shortForm .vsra ⟨d, a, b, m, e, 0, 0⟩) s
/-- R234. -/
def execVrol (d a b : Reg) (m : BitVec 3) (e : BitVec 2) (s : State) := run (shortForm .vrol ⟨d, a, b, m, e, 0, 0⟩) s
/-- R234. -/
def execVnot (d a : Reg) (m : BitVec 3) (e : BitVec 2) (s : State) := run (shortForm .vnot ⟨d, a, 0, m, e, 0, 0⟩) s
/-- R234. -/
def execVpopc (d a : Reg) (m : BitVec 3) (e : BitVec 2) (s : State) := run (shortForm .vpopc ⟨d, a, 0, m, e, 0, 0⟩) s
/-- R234. -/
def execVclz (d a : Reg) (m : BitVec 3) (e : BitVec 2) (s : State) := run (shortForm .vclz ⟨d, a, 0, m, e, 0, 0⟩) s
/-- R235. -/
def execVfadd (d a b : Reg) (m : BitVec 3) (e : BitVec 1) (s : State) := run (shortForm .vfadd ⟨d, a, b, m, e.setWidth 2, 0, 0⟩) s
/-- R235. -/
def execVfsub (d a b : Reg) (m : BitVec 3) (e : BitVec 1) (s : State) := run (shortForm .vfsub ⟨d, a, b, m, e.setWidth 2, 0, 0⟩) s
/-- R235. -/
def execVfmul (d a b : Reg) (m : BitVec 3) (e : BitVec 1) (s : State) := run (shortForm .vfmul ⟨d, a, b, m, e.setWidth 2, 0, 0⟩) s
/-- R235. -/
def execVfma (d a b : Reg) (m : BitVec 3) (e : BitVec 1) (s : State) := run (shortForm .vfma ⟨d, a, b, m, e.setWidth 2, 0, 0⟩) s
/-- R235. -/
def execVfms (d a b : Reg) (m : BitVec 3) (e : BitVec 1) (s : State) := run (shortForm .vfms ⟨d, a, b, m, e.setWidth 2, 0, 0⟩) s
/-- R235. -/
def execVfnma (d a b : Reg) (m : BitVec 3) (e : BitVec 1) (s : State) := run (shortForm .vfnma ⟨d, a, b, m, e.setWidth 2, 0, 0⟩) s
/-- R235. -/
def execVfmin (d a b : Reg) (m : BitVec 3) (e : BitVec 1) (s : State) := run (shortForm .vfmin ⟨d, a, b, m, e.setWidth 2, 0, 0⟩) s
/-- R235. -/
def execVfmax (d a b : Reg) (m : BitVec 3) (e : BitVec 1) (s : State) := run (shortForm .vfmax ⟨d, a, b, m, e.setWidth 2, 0, 0⟩) s
/-- R235. -/
def execVfabs (d a : Reg) (m : BitVec 3) (e : BitVec 1) (s : State) := run (shortForm .vfabs ⟨d, a, 0, m, e.setWidth 2, 0, 0⟩) s
/-- R235. -/
def execVfneg (d a : Reg) (m : BitVec 3) (e : BitVec 1) (s : State) := run (shortForm .vfneg ⟨d, a, 0, m, e.setWidth 2, 0, 0⟩) s
/-- R235. -/
def execVfdiv (d a b : Reg) (m : BitVec 3) (e : BitVec 1) (s : State) := run (shortForm .vfdiv ⟨d, a, b, m, e.setWidth 2, 0, 0⟩) s
/-- R235. -/
def execVfsqrt (d a : Reg) (m : BitVec 3) (e : BitVec 1) (s : State) := run (shortForm .vfsqrt ⟨d, a, 0, m, e.setWidth 2, 0, 0⟩) s
/-- R236. -/
def execVcmpeq (d a b : Reg) (m : BitVec 3) (s : State) := run (shortForm .vcmpeq ⟨d, a, b, m, 0, 0, 0⟩) s
/-- R236. -/
def execVcmpne (d a b : Reg) (m : BitVec 3) (s : State) := run (shortForm .vcmpne ⟨d, a, b, m, 0, 0, 0⟩) s
/-- R236. -/
def execVcmplt (d a b : Reg) (m : BitVec 3) (s : State) := run (shortForm .vcmplt ⟨d, a, b, m, 0, 0, 0⟩) s
/-- R236. -/
def execVcmple (d a b : Reg) (m : BitVec 3) (s : State) := run (shortForm .vcmple ⟨d, a, b, m, 0, 0, 0⟩) s
/-- R236. -/
def execVcmpltn (d a b : Reg) (m : BitVec 3) (s : State) := run (shortForm .vcmpltn ⟨d, a, b, m, 0, 0, 0⟩) s
/-- R236. -/
def execVcmplen (d a b : Reg) (m : BitVec 3) (s : State) := run (shortForm .vcmplen ⟨d, a, b, m, 0, 0, 0⟩) s
/-- R236. -/
def execVfcmpeq (d a b : Reg) (m : BitVec 3) (s : State) := run (shortForm .vfcmpeq ⟨d, a, b, m, 0, 0, 0⟩) s
/-- R236. -/
def execVfcmplt (d a b : Reg) (m : BitVec 3) (s : State) := run (shortForm .vfcmplt ⟨d, a, b, m, 0, 0, 0⟩) s
/-- R236. -/
def execVfcmple (d a b : Reg) (m : BitVec 3) (s : State) := run (shortForm .vfcmple ⟨d, a, b, m, 0, 0, 0⟩) s
/-- R236. -/
def execVfcmpun (d a b : Reg) (m : BitVec 3) (s : State) := run (shortForm .vfcmpun ⟨d, a, b, m, 0, 0, 0⟩) s
/-- R237. -/
def execMand (d a b : Reg) (s : State) := run (shortForm .mand ⟨d, a, b, 0, 0, 0, 0⟩) s
/-- R237. -/
def execMor (d a b : Reg) (s : State) := run (shortForm .mor ⟨d, a, b, 0, 0, 0, 0⟩) s
/-- R237. -/
def execMxor (d a b : Reg) (s : State) := run (shortForm .mxor ⟨d, a, b, 0, 0, 0, 0⟩) s
/-- R237. -/
def execMandn (d a b : Reg) (s : State) := run (shortForm .mandn ⟨d, a, b, 0, 0, 0, 0⟩) s
/-- R237. -/
def execMnot (d a : Reg) (s : State) := run (shortForm .mnot ⟨d, a, 0, 0, 0, 0, 0⟩) s
/-- R238. -/
def execVmov (d a : Reg) (m : BitVec 3) (e : BitVec 2) (s : State) := run (shortForm .vmov ⟨d, a, 0, m, e, 0, 0⟩) s
/-- R238. -/
def execVsplat (d a : Reg) (m : BitVec 3) (e : BitVec 2) (s : State) := run (shortForm .vsplat ⟨d, a, 0, m, e, 0, 0⟩) s
/-- R238. -/
def execVext (d a b : Reg) (e : BitVec 2) (s : State) := run (shortForm .vext ⟨d, a, b, 0, e, 0, 0⟩) s
/-- R238. -/
def execVins (d a b : Reg) (e : BitVec 2) (s : State) := run (shortForm .vins ⟨d, a, b, 0, e, 0, 0⟩) s
/-- R238. -/
def execVslup (d a b : Reg) (m : BitVec 3) (e : BitVec 2) (s : State) := run (shortForm .vslup ⟨d, a, b, m, e, 0, 0⟩) s
/-- R238. -/
def execVsldn (d a b : Reg) (m : BitVec 3) (e : BitVec 2) (s : State) := run (shortForm .vsldn ⟨d, a, b, m, e, 0, 0⟩) s
/-- R238. -/
def execVperm (d a b : Reg) (m : BitVec 3) (e : BitVec 2) (s : State) := run (shortForm .vperm ⟨d, a, b, m, e, 0, 0⟩) s
/-- R238. -/
def execVmerge (d a b : Reg) (m : BitVec 3) (e : BitVec 2) (s : State) := run (shortForm .vmerge ⟨d, a, b, m, e, 0, 0⟩) s
/-- R238. -/
def execVcomp (d a : Reg) (m : BitVec 3) (s : State) := run (shortForm .vcomp ⟨d, a, 0, m, 0, 0, 0⟩) s
/-- R238. -/
def execVidx (d : Reg) (m : BitVec 3) (e : BitVec 2) (s : State) := run (shortForm .vidx ⟨d, 0, 0, m, e, 0, 0⟩) s
/-- R238. -/
def execVmaskn (d a : Reg) (s : State) := run (shortForm .vmaskn ⟨d, a, 0, 0, 0, 0, 0⟩) s
/-- R238. -/
def execMcount (d a : Reg) (s : State) := run (shortForm .mcount ⟨d, a, 0, 0, 0, 0, 0⟩) s
/-- R238. -/
def execMfirst (d a : Reg) (s : State) := run (shortForm .mfirst ⟨d, a, 0, 0, 0, 0, 0⟩) s
/-- R239. -/
def execVrsum (d a : Reg) (m : BitVec 3) (e : BitVec 2) (s : State) := run (shortForm .vrsum ⟨d, a, 0, m, e, 0, 0⟩) s
/-- R239. -/
def execVrmin (d a : Reg) (m : BitVec 3) (e : BitVec 2) (s : State) := run (shortForm .vrmin ⟨d, a, 0, m, e, 0, 0⟩) s
/-- R239. -/
def execVrmax (d a : Reg) (m : BitVec 3) (e : BitVec 2) (s : State) := run (shortForm .vrmax ⟨d, a, 0, m, e, 0, 0⟩) s
/-- R239. -/
def execVrminu (d a : Reg) (m : BitVec 3) (e : BitVec 2) (s : State) := run (shortForm .vrminu ⟨d, a, 0, m, e, 0, 0⟩) s
/-- R239. -/
def execVrmaxu (d a : Reg) (m : BitVec 3) (e : BitVec 2) (s : State) := run (shortForm .vrmaxu ⟨d, a, 0, m, e, 0, 0⟩) s
/-- R239. -/
def execVrand (d a : Reg) (m : BitVec 3) (e : BitVec 2) (s : State) := run (shortForm .vrand ⟨d, a, 0, m, e, 0, 0⟩) s
/-- R239. -/
def execVrior (d a : Reg) (m : BitVec 3) (e : BitVec 2) (s : State) := run (shortForm .vrior ⟨d, a, 0, m, e, 0, 0⟩) s
/-- R239. -/
def execVrxor (d a : Reg) (m : BitVec 3) (e : BitVec 2) (s : State) := run (shortForm .vrxor ⟨d, a, 0, m, e, 0, 0⟩) s
/-- R239. -/
def execVfrsum (d a : Reg) (m : BitVec 3) (e : BitVec 1) (s : State) := run (shortForm .vfrsum ⟨d, a, 0, m, e.setWidth 2, 0, 0⟩) s
/-- R239. -/
def execVfrmin (d a : Reg) (m : BitVec 3) (e : BitVec 1) (s : State) := run (shortForm .vfrmin ⟨d, a, 0, m, e.setWidth 2, 0, 0⟩) s
/-- R239. -/
def execVfrmax (d a : Reg) (m : BitVec 3) (e : BitVec 1) (s : State) := run (shortForm .vfrmax ⟨d, a, 0, m, e.setWidth 2, 0, 0⟩) s
/-- R239. -/
def execVframax (d a : Reg) (m : BitVec 3) (e : BitVec 1) (s : State) := run (shortForm .vframax ⟨d, a, 0, m, e.setWidth 2, 0, 0⟩) s
/-- R240. -/
def execVwadd (d a b : Reg) (m : BitVec 3) (e : BitVec 2) (h k : BitVec 1) (s : State) := run (shortForm .vwadd ⟨d, a, b, m, e, h, k⟩) s
/-- R240. -/
def execVwmul (d a b : Reg) (m : BitVec 3) (e : BitVec 2) (h k : BitVec 1) (s : State) := run (shortForm .vwmul ⟨d, a, b, m, e, h, k⟩) s
/-- R240. -/
def execVwmuln (d a b : Reg) (m : BitVec 3) (e : BitVec 2) (h k : BitVec 1) (s : State) := run (shortForm .vwmuln ⟨d, a, b, m, e, h, k⟩) s
/-- R241. -/
def execVdot (d a b : Reg) (m : BitVec 3) (e : BitVec 2) (h k : BitVec 1) (s : State) := run (shortForm .vdot ⟨d, a, b, m, e, h, k⟩) s
/-- R241. -/
def execVdotn (d a b : Reg) (m : BitVec 3) (e : BitVec 2) (h k : BitVec 1) (s : State) := run (shortForm .vdotn ⟨d, a, b, m, e, h, k⟩) s
/-- R242. -/
def execVnshr (d a b : Reg) (m : BitVec 3) (e : BitVec 2) (s : State) := run (shortForm .vnshr ⟨d, a, b, m, e, 0, 0⟩) s
/-- R242. -/
def execVnshrn (d a b : Reg) (m : BitVec 3) (e : BitVec 2) (s : State) := run (shortForm .vnshrn ⟨d, a, b, m, e, 0, 0⟩) s
/-- R242. -/
def execVpack (d a b : Reg) (m : BitVec 3) (e : BitVec 2) (s : State) := run (shortForm .vpack ⟨d, a, b, m, e, 0, 0⟩) s
/-- R243. -/
def execVld (d a : Reg) (m : BitVec 3) (e : BitVec 2) (s : State) := run (shortForm .vld ⟨d, a, 0, m, e, 0, 0⟩) s
/-- R243. -/
def execVst (d a : Reg) (m : BitVec 3) (e : BitVec 2) (s : State) := run (shortForm .vst ⟨d, a, 0, m, e, 0, 0⟩) s
/-- R243. -/
def execVlds (d a b : Reg) (m : BitVec 3) (e : BitVec 2) (s : State) := run (shortForm .vlds ⟨d, a, b, m, e, 0, 0⟩) s
/-- R243. -/
def execVsts (d a b : Reg) (m : BitVec 3) (e : BitVec 2) (s : State) := run (shortForm .vsts ⟨d, a, b, m, e, 0, 0⟩) s
/-- R243. -/
def execVldx (d a b : Reg) (m : BitVec 3) (s : State) := run (shortForm .vldx ⟨d, a, b, m, 0, 0, 0⟩) s
/-- R243. -/
def execVstx (d a b : Reg) (m : BitVec 3) (s : State) := run (shortForm .vstx ⟨d, a, b, m, 0, 0, 0⟩) s
/-- R244. -/
def execVldt (d a b : Reg) (m : BitVec 3) (e : BitVec 2) (s : State) := run (shortForm .vldt ⟨d, a, b, m, e, 0, 0⟩) s
/-- R243. -/
def execVldb (d a : Reg) (m : BitVec 3) (e : BitVec 2) (s : State) := run (shortForm .vldb ⟨d, a, 0, m, e, 0, 0⟩) s
/-- R246. -/
def execVcvtf (d a : Reg) (m : BitVec 3) (e : BitVec 1) (s : State) := run (shortForm .vcvtf ⟨d, a, 0, m, e.setWidth 2, 0, 0⟩) s
/-- R246. -/
def execVcvti (d a : Reg) (m : BitVec 3) (e : BitVec 1) (s : State) := run (shortForm .vcvti ⟨d, a, 0, m, e.setWidth 2, 0, 0⟩) s
/-- R247. -/
def execVcvtn (d a c : Reg) (e : BitVec 2) (s : State) := run (shortForm .vcvtn ⟨d, a, c, 0, e, 0, 0⟩) s
/-- R248. -/
def execVcvtw (d a c : Reg) (m : BitVec 3) (e : BitVec 2) (h : BitVec 1) (s : State) := run (shortForm .vcvtw ⟨d, a, c, m, e, h, 0⟩) s
/-- R251. -/
def execVfn (d a t : BitVec 5) (m : BitVec 3) (s : State) := run (shortForm .vfn ⟨d, a, t, m, 0, 0, 0⟩) s
/-- R256. -/
def execVsin (d a : Reg) (m : BitVec 3) (s : State) := run (shortForm .vsin ⟨d, a, 0, m, 0, 0, 0⟩) s
/-- R256. -/
def execVcos (d a : Reg) (m : BitVec 3) (s : State) := run (shortForm .vcos ⟨d, a, 0, m, 0, 0, 0⟩) s
/-- R254. -/
def execVexp (d a : Reg) (m : BitVec 3) (s : State) := run (shortForm .vexp ⟨d, a, 0, m, 0, 0, 0⟩) s
/-- R254. -/
def execVlog (d a : Reg) (m : BitVec 3) (s : State) := run (shortForm .vlog ⟨d, a, 0, m, 0, 0, 0⟩) s
/-- R253. -/
def execVrcp (d a : Reg) (m : BitVec 3) (s : State) := run (shortForm .vrcp ⟨d, a, 0, m, 0, 0, 0⟩) s
/-- R253. -/
def execVrsq (d a : Reg) (m : BitVec 3) (s : State) := run (shortForm .vrsq ⟨d, a, 0, m, 0, 0, 0⟩) s
/-- R255. -/
def execVtanh (d a : Reg) (m : BitVec 3) (s : State) := run (shortForm .vtanh ⟨d, a, 0, m, 0, 0, 0⟩) s
/-- R255. -/
def execVsigm (d a : Reg) (m : BitVec 3) (s : State) := run (shortForm .vsigm ⟨d, a, 0, m, 0, 0, 0⟩) s
/-- R249. -/
def execVscale (d a b : Reg) (m : BitVec 3) (s : State) := run (shortForm .vscale ⟨d, a, b, m, 0, 0, 0⟩) s

end Sys2Proof.Machine
end

