-- ==== Sys2Proof/Machine/Dispatch.lean ====
section
/-!
DEFINITION. One arm per instruction and event: its meaning.
-/
namespace Sys2Proof.Machine

/-- The meaning of an instruction or event at a state; an instruction acts for the core `cur`. -/
def exec (i : Instr) (s : State) : Host.Outcome State Fault Refusal :=
  match i with
  | .ixLongForm op d a imm => Sys2Proof.Machine.execIxLongForm op d a imm s
  | .vxLongForm op f x => Sys2Proof.Machine.execVxLongForm op f x s
  | .storeApply c id => Sys2Proof.Machine.execStoreApply c id s
  | .tlbiComplete id => Sys2Proof.Machine.execTlbiComplete id s
  | .atomicResultReturn c inst => Sys2Proof.Machine.execAtomicResultReturn c inst s
  | .orderWaitEnd c inst => Sys2Proof.Machine.execOrderWaitEnd c inst s
  | .redfArrival x => Sys2Proof.Machine.execRedfArrival x s
  | .redfResend x => Sys2Proof.Machine.execRedfResend x s
  | .redfCellTimeout addr => Sys2Proof.Machine.execRedfCellTimeout addr s
  | .armamentRegister c slot j => Sys2Proof.Machine.execArmamentRegister c slot j s
  | .armamentFire dw => Sys2Proof.Machine.execArmamentFire dw s
  | .barrierArrival x => Sys2Proof.Machine.execBarrierArrival x s
  | .barrierRelease x => Sys2Proof.Machine.execBarrierRelease x s
  | .qdestroyEffect q force => Sys2Proof.Machine.execQdestroyEffect q force s
  | .pushArrival p => Sys2Proof.Machine.execPushArrival p s
  | .flowCreditReturn c qid => Sys2Proof.Machine.execFlowCreditReturn c qid s
  | .refillStart q => Sys2Proof.Machine.execRefillStart q s
  | .refillLand q => Sys2Proof.Machine.execRefillLand q s
  | .calderaLoss q => Sys2Proof.Machine.execCalderaLoss q s
  | .createInstance c => Sys2Proof.Machine.execCreateInstance c s
  | .preemptPriority7 c => Sys2Proof.Machine.execPreemptPriority7 c s
  | .serviceStop x => Sys2Proof.Machine.execServiceStop x s
  | .serviceKill x => Sys2Proof.Machine.execServiceKill x s
  | .serviceCkpt x => Sys2Proof.Machine.execServiceCkpt x s
  | .budgetOverrun c => Sys2Proof.Machine.execBudgetOverrun c s
  | .farLoadTimeout c => Sys2Proof.Machine.execFarLoadTimeout c s
  | .farLoadReturn c inst => Sys2Proof.Machine.execFarLoadReturn c inst s
  | .translationTimeout c => Sys2Proof.Machine.execTranslationTimeout c s
  | .walkComplete c inst => Sys2Proof.Machine.execWalkComplete c inst s
  | .orderWaitTimeout c => Sys2Proof.Machine.execOrderWaitTimeout c s
  | .atomicResultTimeout c => Sys2Proof.Machine.execAtomicResultTimeout c s
  | .issueWaitTimeout c => Sys2Proof.Machine.execIssueWaitTimeout c s
  | .pagerRequestRetry c inst => Sys2Proof.Machine.execPagerRequestRetry c inst s
  | .migrationCommand x => Sys2Proof.Machine.execMigrationCommand x s
  | .migrationComplete frame => Sys2Proof.Machine.execMigrationComplete frame s
  | .stxCue d a b c w => Sys2Proof.Machine.execStxCue d a b c w s
  | .remoteRequestArrival x => Sys2Proof.Machine.execRemoteRequestArrival x s
  | .remoteAcknowledge x => Sys2Proof.Machine.execRemoteAcknowledge x s
  | .landingAckAtOrigin cue => Sys2Proof.Machine.execLandingAckAtOrigin cue s
  | .landingNotice cue => Sys2Proof.Machine.execLandingNotice cue s
  | .failureNotice cue => Sys2Proof.Machine.execFailureNotice cue s
  | .cueFailure cue => Sys2Proof.Machine.execCueFailure cue s
  | .watch cue w => Sys2Proof.Machine.execWatch cue w s
  | .watchResend cue => Sys2Proof.Machine.execWatchResend cue s
  | .heldStoreExpiry id => Sys2Proof.Machine.execHeldStoreExpiry id s
  | .cueEntryFree slot => Sys2Proof.Machine.execCueEntryFree slot s
  | .cueqAnswer x => Sys2Proof.Machine.execCueqAnswer x s
  | .remoteResult x => Sys2Proof.Machine.execRemoteResult x s
  | .flitReceive trunk f => Sys2Proof.Machine.execFlitReceive trunk f s
  | .ackTimeout trunk => Sys2Proof.Machine.execAckTimeout trunk s
  | .laneFault trunk lane => Sys2Proof.Machine.execLaneFault trunk lane s
  | .retrainComplete trunk => Sys2Proof.Machine.execRetrainComplete trunk s
  | .rqforkExecute bf => Sys2Proof.Machine.execRqforkExecute bf s
  | .bfstepExecute bf => Sys2Proof.Machine.execBfstepExecute bf s
  | .poolCoreMove bf => Sys2Proof.Machine.execPoolCoreMove bf s
  | .smplShardArrival bf => Sys2Proof.Machine.execSmplShardArrival bf s
  | .mergeComplete bf => Sys2Proof.Machine.execMergeComplete bf s
  | .mergeDeadline bf => Sys2Proof.Machine.execMergeDeadline bf s
  | .beamExecute bf => Sys2Proof.Machine.execBeamExecute bf s
  | .matrixAccept e => Sys2Proof.Machine.execMatrixAccept e s
  | .mloadbExecute e id => Sys2Proof.Machine.execMloadbExecute e id s
  | .mmaExecute e id => Sys2Proof.Machine.execMmaExecute e id s
  | .mdrainExecute e id => Sys2Proof.Machine.execMdrainExecute e id s
  | .mzeroExecute e id => Sys2Proof.Machine.execMzeroExecute e id s
  | .mbinvExecute e id => Sys2Proof.Machine.execMbinvExecute e id s
  | .mnotePush e id => Sys2Proof.Machine.execMnotePush e id s
  | .xcopyExecute eng id n => Sys2Proof.Machine.execXcopyExecute eng id n s
  | .xfillExecute eng id n => Sys2Proof.Machine.execXfillExecute eng id n s
  | .xredRootArrival eng x => Sys2Proof.Machine.execXredRootArrival eng x s
  | .xredChunk eng key far result => Sys2Proof.Machine.execXredChunk eng key far result s
  | .xredDeadline root eng key => Sys2Proof.Machine.execXredDeadline root eng key s
  | .load x => Sys2Proof.Machine.execLoad x s
  | .remove => Sys2Proof.Machine.execRemove s
  | .recast => Sys2Proof.Machine.execRecast s
  | .query => Sys2Proof.Machine.execQuery s
  | .map => Sys2Proof.Machine.execMap s
  | .unmap => Sys2Proof.Machine.execUnmap s
  | .lifetime => Sys2Proof.Machine.execLifetime s
  | .append => Sys2Proof.Machine.execAppend s
  | .take => Sys2Proof.Machine.execTake s
  | .epoch => Sys2Proof.Machine.execEpoch s
  | .resume => Sys2Proof.Machine.execResume s
  | .period => Sys2Proof.Machine.execPeriod s
  | .epochTimer load => Sys2Proof.Machine.execEpochTimer load s
  | .inputClose c q => Sys2Proof.Machine.execInputClose c q s
  | .curtainRetry role qid => Sys2Proof.Machine.execCurtainRetry role qid s
  | .recastForward role => Sys2Proof.Machine.execRecastForward role s
  | .recastInstall role => Sys2Proof.Machine.execRecastInstall role s
  | .recastDeadline role => Sys2Proof.Machine.execRecastDeadline role s
  | .hostSubmission page offset bytes => Sys2Proof.Machine.execHostSubmission page offset bytes s
  | .hostPostedWrite page offset => Sys2Proof.Machine.execHostPostedWrite page offset s
  | .hostReply page reply => Sys2Proof.Machine.execHostReply page reply s
  | .eccError x => Sys2Proof.Machine.execEccError x s
  | .selfTestEnd id lasting => Sys2Proof.Machine.execSelfTestEnd id lasting s
  | .coreRetire c lost => Sys2Proof.Machine.execCoreRetire c lost s
  | .errorLogClear kind n entry => Sys2Proof.Machine.execErrorLogClear kind n entry s
  | .injectionArm kind n v => Sys2Proof.Machine.execInjectionArm kind n v s
  | .retentionControl kind n on => Sys2Proof.Machine.execRetentionControl kind n on s
  | .monitorControl m ctl => Sys2Proof.Machine.execMonitorControl m ctl s
  | .monitorSample m v => Sys2Proof.Machine.execMonitorSample m v s
  | .powerInterval watts hot => Sys2Proof.Machine.execPowerInterval watts hot s
  | .packageFailure pkg => Sys2Proof.Machine.execPackageFailure pkg s
  | .startUp => Sys2Proof.Machine.execStartUp s
  | .registerWrite t v => Sys2Proof.Machine.execRegisterWrite t v s
  | .illEncoding w w2 => Sys2Proof.Machine.execIllEncoding w w2 s
  | .landedCueCacheExpiry cue => Sys2Proof.Machine.execLandedCueCacheExpiry cue s
  | .retentionTransitionEnd kind n => Sys2Proof.Machine.execRetentionTransitionEnd kind n s
  | .hostImageArrival bytes => Sys2Proof.Machine.execHostImageArrival bytes s
  | .add d a b w => Sys2Proof.Machine.execAdd d a b w s
  | .sub d a b w => Sys2Proof.Machine.execSub d a b w s
  | .and d a b => Sys2Proof.Machine.execAnd d a b s
  | .or d a b => Sys2Proof.Machine.execOr d a b s
  | .xor d a b => Sys2Proof.Machine.execXor d a b s
  | .sll d a b w => Sys2Proof.Machine.execSll d a b w s
  | .srl d a b w => Sys2Proof.Machine.execSrl d a b w s
  | .sra d a b w => Sys2Proof.Machine.execSra d a b w s
  | .mul d a b w => Sys2Proof.Machine.execMul d a b w s
  | .mulh d a b => Sys2Proof.Machine.execMulh d a b s
  | .mulhu d a b => Sys2Proof.Machine.execMulhu d a b s
  | .div d a b w => Sys2Proof.Machine.execDiv d a b w s
  | .divu d a b w => Sys2Proof.Machine.execDivu d a b w s
  | .rem d a b w => Sys2Proof.Machine.execRem d a b w s
  | .remu d a b w => Sys2Proof.Machine.execRemu d a b w s
  | .slt d a b => Sys2Proof.Machine.execSlt d a b s
  | .sltu d a b => Sys2Proof.Machine.execSltu d a b s
  | .seq d a b => Sys2Proof.Machine.execSeq d a b s
  | .min d a b => Sys2Proof.Machine.execMin d a b s
  | .max d a b => Sys2Proof.Machine.execMax d a b s
  | .minu d a b => Sys2Proof.Machine.execMinu d a b s
  | .maxu d a b => Sys2Proof.Machine.execMaxu d a b s
  | .selz d a b c => Sys2Proof.Machine.execSelz d a b c s
  | .selnz d a b c => Sys2Proof.Machine.execSelnz d a b c s
  | .clz d a w => Sys2Proof.Machine.execClz d a w s
  | .ctz d a w => Sys2Proof.Machine.execCtz d a w s
  | .popc d a w => Sys2Proof.Machine.execPopc d a w s
  | .brev d a => Sys2Proof.Machine.execBrev d a s
  | .bswap d a => Sys2Proof.Machine.execBswap d a s
  | .rol d a b w => Sys2Proof.Machine.execRol d a b w s
  | .ror d a b w => Sys2Proof.Machine.execRor d a b w s
  | .addsh d a b n => Sys2Proof.Machine.execAddsh d a b n s
  | .addi d a imm => Sys2Proof.Machine.execAddi d a imm s
  | .andi d a imm => Sys2Proof.Machine.execAndi d a imm s
  | .ori d a imm => Sys2Proof.Machine.execOri d a imm s
  | .xori d a imm => Sys2Proof.Machine.execXori d a imm s
  | .slti d a imm => Sys2Proof.Machine.execSlti d a imm s
  | .sltiu d a imm => Sys2Proof.Machine.execSltiu d a imm s
  | .slli d a w n => Sys2Proof.Machine.execSlli d a w n s
  | .srli d a w n => Sys2Proof.Machine.execSrli d a w n s
  | .srai d a w n => Sys2Proof.Machine.execSrai d a w n s
  | .rori d a w n => Sys2Proof.Machine.execRori d a w n s
  | .bfx d a p l => Sys2Proof.Machine.execBfx d a p l s
  | .bfxs d a p l => Sys2Proof.Machine.execBfxs d a p l s
  | .lih d imm => Sys2Proof.Machine.execLih d imm s
  | .beq a b imm => Sys2Proof.Machine.execBeq a b imm s
  | .bne a b imm => Sys2Proof.Machine.execBne a b imm s
  | .blt a b imm => Sys2Proof.Machine.execBlt a b imm s
  | .bge a b imm => Sys2Proof.Machine.execBge a b imm s
  | .bltu a b imm => Sys2Proof.Machine.execBltu a b imm s
  | .bgeu a b imm => Sys2Proof.Machine.execBgeu a b imm s
  | .jal d imm => Sys2Proof.Machine.execJal d imm s
  | .jalr d a imm => Sys2Proof.Machine.execJalr d a imm s
  | .tend => Sys2Proof.Machine.execTend s
  | .tpost d r => Sys2Proof.Machine.execTpost d r s
  | .tstate d => Sys2Proof.Machine.execTstate d s
  | .tcycles d => Sys2Proof.Machine.execTcycles d s
  | .tsetarg a r => Sys2Proof.Machine.execTsetarg a r s
  | .tenable d r => Sys2Proof.Machine.execTenable d r s
  | .tdisable d r => Sys2Proof.Machine.execTdisable d r s
  | .vclaim d a => Sys2Proof.Machine.execVclaim d a s
  | .csrr d u v => Sys2Proof.Machine.execCsrr d u v s
  | .csrw d a u v => Sys2Proof.Machine.execCsrw d a u v s
  | .csrs d a u v => Sys2Proof.Machine.execCsrs d a u v s
  | .csrc d a u v => Sys2Proof.Machine.execCsrc d a u v s
  | .trap a c => Sys2Proof.Machine.execTrap a c s
  | .brk c => Sys2Proof.Machine.execBrk c s
  | .svbind d a b => Sys2Proof.Machine.execSvbind d a b s
  | .svhalt d a b => Sys2Proof.Machine.execSvhalt d a b s
  | .svresume d a b => Sys2Proof.Machine.execSvresume d a b s
  | .svresumeR d a b => Sys2Proof.Machine.execSvresumeR d a b s
  | .svmap d a b => Sys2Proof.Machine.execSvmap d a b s
  | .ldB d a imm => Sys2Proof.Machine.execLdB d a imm s
  | .ldH d a imm => Sys2Proof.Machine.execLdH d a imm s
  | .ldW d a imm => Sys2Proof.Machine.execLdW d a imm s
  | .ldD d a imm => Sys2Proof.Machine.execLdD d a imm s
  | .ldBu d a imm => Sys2Proof.Machine.execLdBu d a imm s
  | .ldHu d a imm => Sys2Proof.Machine.execLdHu d a imm s
  | .ldWu d a imm => Sys2Proof.Machine.execLdWu d a imm s
  | .ldQ d a imm => Sys2Proof.Machine.execLdQ d a imm s
  | .stB d a imm => Sys2Proof.Machine.execStB d a imm s
  | .stH d a imm => Sys2Proof.Machine.execStH d a imm s
  | .stW d a imm => Sys2Proof.Machine.execStW d a imm s
  | .stD d a imm => Sys2Proof.Machine.execStD d a imm s
  | .stQ d a imm => Sys2Proof.Machine.execStQ d a imm s
  | .bld d a b w => Sys2Proof.Machine.execBld d a b w s
  | .blds d a b w => Sys2Proof.Machine.execBlds d a b w s
  | .bst d a b w => Sys2Proof.Machine.execBst d a b w s
  | .bldp d a b w => Sys2Proof.Machine.execBldp d a b w s
  | .bstp d a b w => Sys2Proof.Machine.execBstp d a b w s
  | .tlbiv d a b => Sys2Proof.Machine.execTlbiv d a b s
  | .tlbid d a => Sys2Proof.Machine.execTlbid d a s
  | .tlbprb d a b => Sys2Proof.Machine.execTlbprb d a b s
  | .pref a p => Sys2Proof.Machine.execPref a p s
  | .amoAdd d a b n p w => Sys2Proof.Machine.execAmoAdd d a b n p w s
  | .amoAnd d a b n p w => Sys2Proof.Machine.execAmoAnd d a b n p w s
  | .amoOr d a b n p w => Sys2Proof.Machine.execAmoOr d a b n p w s
  | .amoXor d a b n p w => Sys2Proof.Machine.execAmoXor d a b n p w s
  | .amoMin d a b n p w => Sys2Proof.Machine.execAmoMin d a b n p w s
  | .amoMax d a b n p w => Sys2Proof.Machine.execAmoMax d a b n p w s
  | .amoMinu d a b n p w => Sys2Proof.Machine.execAmoMinu d a b n p w s
  | .amoMaxu d a b n p w => Sys2Proof.Machine.execAmoMaxu d a b n p w s
  | .amoSwap d a b n p w => Sys2Proof.Machine.execAmoSwap d a b n p w s
  | .amoCas d a b n p w => Sys2Proof.Machine.execAmoCas d a b n p w s
  | .fence k n => Sys2Proof.Machine.execFence k n s
  | .ldAcq d a n x => Sys2Proof.Machine.execLdAcq d a n x s
  | .stRel d a n x => Sys2Proof.Machine.execStRel d a n x s
  | .redf d a b => Sys2Proof.Machine.execRedf d a b s
  | .tarm a c r => Sys2Proof.Machine.execTarm a c r s
  | .barrier d a => Sys2Proof.Machine.execBarrier d a s
  | .barq d a b => Sys2Proof.Machine.execBarq d a b s
  | .qpop d a b => Sys2Proof.Machine.execQpop d a b s
  | .qpopM d a b => Sys2Proof.Machine.execQpopM d a b s
  | .qtag d a => Sys2Proof.Machine.execQtag d a s
  | .qcount d a => Sys2Proof.Machine.execQcount d a s
  | .qdrop d a => Sys2Proof.Machine.execQdrop d a s
  | .qpush d a b g t => Sys2Proof.Machine.execQpush d a b g t s
  | .qpushM d a b g t => Sys2Proof.Machine.execQpushM d a b g t s
  | .qmark d a g => Sys2Proof.Machine.execQmark d a g s
  | .qhandle d a => Sys2Proof.Machine.execQhandle d a s
  | .qcreate d a => Sys2Proof.Machine.execQcreate d a s
  | .qdestroy d a f => Sys2Proof.Machine.execQdestroy d a f s
  | .qstat d a => Sys2Proof.Machine.execQstat d a s
  | .stx d a b w => Sys2Proof.Machine.execStx d a b w s
  | .stCue d a b w => Sys2Proof.Machine.execStCue d a b w s
  | .cueq d a => Sys2Proof.Machine.execCueq d a s
  | .getq d a b w => Sys2Proof.Machine.execGetq d a b w s
  | .amoq d a b x o => Sys2Proof.Machine.execAmoq d a b x o s
  | .lnkdiag d a b => Sys2Proof.Machine.execLnkdiag d a b s
  | .lnkstat d a => Sys2Proof.Machine.execLnkstat d a s
  | .rqalloc d => Sys2Proof.Machine.execRqalloc d s
  | .rqread d a w => Sys2Proof.Machine.execRqread d a w s
  | .rqwrite d a b w => Sys2Proof.Machine.execRqwrite d a b w s
  | .rqqueue d a => Sys2Proof.Machine.execRqqueue d a s
  | .rqcommit d a b => Sys2Proof.Machine.execRqcommit d a b s
  | .rqfork d a b => Sys2Proof.Machine.execRqfork d a b s
  | .rqretire d a b => Sys2Proof.Machine.execRqretire d a b s
  | .rqretireFree d a => Sys2Proof.Machine.execRqretireFree d a s
  | .rqpark d a => Sys2Proof.Machine.execRqpark d a s
  | .bfstep d a => Sys2Proof.Machine.execBfstep d a s
  | .smpl d a b => Sys2Proof.Machine.execSmpl d a b s
  | .beam d a b => Sys2Proof.Machine.execBeam d a b s
  | .lahar d a b h => Sys2Proof.Machine.execLahar d a b h s
  | .vadd d a b m e => Sys2Proof.Machine.execVadd d a b m e s
  | .vsub d a b m e => Sys2Proof.Machine.execVsub d a b m e s
  | .vmul d a b m e => Sys2Proof.Machine.execVmul d a b m e s
  | .vmulh d a b m e => Sys2Proof.Machine.execVmulh d a b m e s
  | .vmulhu d a b m e => Sys2Proof.Machine.execVmulhu d a b m e s
  | .vmin d a b m e => Sys2Proof.Machine.execVmin d a b m e s
  | .vmax d a b m e => Sys2Proof.Machine.execVmax d a b m e s
  | .vminu d a b m e => Sys2Proof.Machine.execVminu d a b m e s
  | .vmaxu d a b m e => Sys2Proof.Machine.execVmaxu d a b m e s
  | .vadds d a b m e => Sys2Proof.Machine.execVadds d a b m e s
  | .vsubs d a b m e => Sys2Proof.Machine.execVsubs d a b m e s
  | .vaddsn d a b m e => Sys2Proof.Machine.execVaddsn d a b m e s
  | .vsubsn d a b m e => Sys2Proof.Machine.execVsubsn d a b m e s
  | .vabsd d a b m e => Sys2Proof.Machine.execVabsd d a b m e s
  | .vavg d a b m e => Sys2Proof.Machine.execVavg d a b m e s
  | .vmac d a b m e => Sys2Proof.Machine.execVmac d a b m e s
  | .vand d a b m e => Sys2Proof.Machine.execVand d a b m e s
  | .vor d a b m e => Sys2Proof.Machine.execVor d a b m e s
  | .vxor d a b m e => Sys2Proof.Machine.execVxor d a b m e s
  | .vandn d a b m e => Sys2Proof.Machine.execVandn d a b m e s
  | .vsll d a b m e => Sys2Proof.Machine.execVsll d a b m e s
  | .vsrl d a b m e => Sys2Proof.Machine.execVsrl d a b m e s
  | .vsra d a b m e => Sys2Proof.Machine.execVsra d a b m e s
  | .vrol d a b m e => Sys2Proof.Machine.execVrol d a b m e s
  | .vnot d a m e => Sys2Proof.Machine.execVnot d a m e s
  | .vpopc d a m e => Sys2Proof.Machine.execVpopc d a m e s
  | .vclz d a m e => Sys2Proof.Machine.execVclz d a m e s
  | .vfadd d a b m e => Sys2Proof.Machine.execVfadd d a b m e s
  | .vfsub d a b m e => Sys2Proof.Machine.execVfsub d a b m e s
  | .vfmul d a b m e => Sys2Proof.Machine.execVfmul d a b m e s
  | .vfma d a b m e => Sys2Proof.Machine.execVfma d a b m e s
  | .vfms d a b m e => Sys2Proof.Machine.execVfms d a b m e s
  | .vfnma d a b m e => Sys2Proof.Machine.execVfnma d a b m e s
  | .vfmin d a b m e => Sys2Proof.Machine.execVfmin d a b m e s
  | .vfmax d a b m e => Sys2Proof.Machine.execVfmax d a b m e s
  | .vfabs d a m e => Sys2Proof.Machine.execVfabs d a m e s
  | .vfneg d a m e => Sys2Proof.Machine.execVfneg d a m e s
  | .vfdiv d a b m e => Sys2Proof.Machine.execVfdiv d a b m e s
  | .vfsqrt d a m e => Sys2Proof.Machine.execVfsqrt d a m e s
  | .vcmpeq d a b m => Sys2Proof.Machine.execVcmpeq d a b m s
  | .vcmpne d a b m => Sys2Proof.Machine.execVcmpne d a b m s
  | .vcmplt d a b m => Sys2Proof.Machine.execVcmplt d a b m s
  | .vcmple d a b m => Sys2Proof.Machine.execVcmple d a b m s
  | .vcmpltn d a b m => Sys2Proof.Machine.execVcmpltn d a b m s
  | .vcmplen d a b m => Sys2Proof.Machine.execVcmplen d a b m s
  | .vfcmpeq d a b m => Sys2Proof.Machine.execVfcmpeq d a b m s
  | .vfcmplt d a b m => Sys2Proof.Machine.execVfcmplt d a b m s
  | .vfcmple d a b m => Sys2Proof.Machine.execVfcmple d a b m s
  | .vfcmpun d a b m => Sys2Proof.Machine.execVfcmpun d a b m s
  | .mand d a b => Sys2Proof.Machine.execMand d a b s
  | .mor d a b => Sys2Proof.Machine.execMor d a b s
  | .mxor d a b => Sys2Proof.Machine.execMxor d a b s
  | .mandn d a b => Sys2Proof.Machine.execMandn d a b s
  | .mnot d a => Sys2Proof.Machine.execMnot d a s
  | .vmov d a m e => Sys2Proof.Machine.execVmov d a m e s
  | .vsplat d a m e => Sys2Proof.Machine.execVsplat d a m e s
  | .vext d a b e => Sys2Proof.Machine.execVext d a b e s
  | .vins d a b e => Sys2Proof.Machine.execVins d a b e s
  | .vslup d a b m e => Sys2Proof.Machine.execVslup d a b m e s
  | .vsldn d a b m e => Sys2Proof.Machine.execVsldn d a b m e s
  | .vperm d a b m e => Sys2Proof.Machine.execVperm d a b m e s
  | .vmerge d a b m e => Sys2Proof.Machine.execVmerge d a b m e s
  | .vcomp d a m => Sys2Proof.Machine.execVcomp d a m s
  | .vidx d m e => Sys2Proof.Machine.execVidx d m e s
  | .vmaskn d a => Sys2Proof.Machine.execVmaskn d a s
  | .mcount d a => Sys2Proof.Machine.execMcount d a s
  | .mfirst d a => Sys2Proof.Machine.execMfirst d a s
  | .vrsum d a m e => Sys2Proof.Machine.execVrsum d a m e s
  | .vrmin d a m e => Sys2Proof.Machine.execVrmin d a m e s
  | .vrmax d a m e => Sys2Proof.Machine.execVrmax d a m e s
  | .vrminu d a m e => Sys2Proof.Machine.execVrminu d a m e s
  | .vrmaxu d a m e => Sys2Proof.Machine.execVrmaxu d a m e s
  | .vrand d a m e => Sys2Proof.Machine.execVrand d a m e s
  | .vrior d a m e => Sys2Proof.Machine.execVrior d a m e s
  | .vrxor d a m e => Sys2Proof.Machine.execVrxor d a m e s
  | .vfrsum d a m e => Sys2Proof.Machine.execVfrsum d a m e s
  | .vfrmin d a m e => Sys2Proof.Machine.execVfrmin d a m e s
  | .vfrmax d a m e => Sys2Proof.Machine.execVfrmax d a m e s
  | .vframax d a m e => Sys2Proof.Machine.execVframax d a m e s
  | .vwadd d a b m e h k => Sys2Proof.Machine.execVwadd d a b m e h k s
  | .vwmul d a b m e h k => Sys2Proof.Machine.execVwmul d a b m e h k s
  | .vwmuln d a b m e h k => Sys2Proof.Machine.execVwmuln d a b m e h k s
  | .vdot d a b m e h k => Sys2Proof.Machine.execVdot d a b m e h k s
  | .vdotn d a b m e h k => Sys2Proof.Machine.execVdotn d a b m e h k s
  | .vnshr d a b m e => Sys2Proof.Machine.execVnshr d a b m e s
  | .vnshrn d a b m e => Sys2Proof.Machine.execVnshrn d a b m e s
  | .vpack d a b m e => Sys2Proof.Machine.execVpack d a b m e s
  | .vld d a m e => Sys2Proof.Machine.execVld d a m e s
  | .vst d a m e => Sys2Proof.Machine.execVst d a m e s
  | .vlds d a b m e => Sys2Proof.Machine.execVlds d a b m e s
  | .vsts d a b m e => Sys2Proof.Machine.execVsts d a b m e s
  | .vldx d a b m => Sys2Proof.Machine.execVldx d a b m s
  | .vstx d a b m => Sys2Proof.Machine.execVstx d a b m s
  | .vldt d a b m e => Sys2Proof.Machine.execVldt d a b m e s
  | .vldb d a m e => Sys2Proof.Machine.execVldb d a m e s
  | .vcvtf d a m e => Sys2Proof.Machine.execVcvtf d a m e s
  | .vcvti d a m e => Sys2Proof.Machine.execVcvti d a m e s
  | .vcvtn d a c e => Sys2Proof.Machine.execVcvtn d a c e s
  | .vcvtw d a c m e h => Sys2Proof.Machine.execVcvtw d a c m e h s
  | .vfn d a t m => Sys2Proof.Machine.execVfn d a t m s
  | .vsin d a m => Sys2Proof.Machine.execVsin d a m s
  | .vcos d a m => Sys2Proof.Machine.execVcos d a m s
  | .vexp d a m => Sys2Proof.Machine.execVexp d a m s
  | .vlog d a m => Sys2Proof.Machine.execVlog d a m s
  | .vrcp d a m => Sys2Proof.Machine.execVrcp d a m s
  | .vrsq d a m => Sys2Proof.Machine.execVrsq d a m s
  | .vtanh d a m => Sys2Proof.Machine.execVtanh d a m s
  | .vsigm d a m => Sys2Proof.Machine.execVsigm d a m s
  | .vscale d a b m => Sys2Proof.Machine.execVscale d a b m s
  | .mloadb d a b k => Sys2Proof.Machine.execMloadb d a b k s
  | .mma d a b k => Sys2Proof.Machine.execMma d a b k s
  | .mdrain d a b z c => Sys2Proof.Machine.execMdrain d a b z c s
  | .mzero d => Sys2Proof.Machine.execMzero d s
  | .mbinv k => Sys2Proof.Machine.execMbinv k s
  | .mbstat d k => Sys2Proof.Machine.execMbstat d k s
  | .mnote d a => Sys2Proof.Machine.execMnote d a s
  | .tdset a b => Sys2Proof.Machine.execTdset a b s
  | .tdget a b => Sys2Proof.Machine.execTdget a b s
  | .tdalloc d => Sys2Proof.Machine.execTdalloc d s
  | .tdfree d a => Sys2Proof.Machine.execTdfree d a s
  | .tdrag a b => Sys2Proof.Machine.execTdrag a b s
  | .xcopy d a b r => Sys2Proof.Machine.execXcopy d a b r s
  | .xred d a b r => Sys2Proof.Machine.execXred d a b r s
  | .xfill d a b r => Sys2Proof.Machine.execXfill d a b r s
  | .xstat d a => Sys2Proof.Machine.execXstat d a s
  | .xabort d a => Sys2Proof.Machine.execXabort d a s

end Sys2Proof.Machine
end

