-- ==== Sys2Proof/Machine/Step.lean ====
section
/-!
DEFINITION. One step of the machine: one party's turn, then the clock (log 2, log 3).
-/
namespace Sys2Proof.Machine

/-- The core `cur` runs: at the boundary a budget overrun or a pre-emption, else its next instruction (04 R93, R96). DESIGN
CHOICE (log 94): a resumption is such a boundary, before the instruction at the saved pc executes again. -/
noncomputable def runNext (s : State) : Host.Outcome State Fault Refusal :=
  if s.overBudget s.cur then exec (.budgetOverrun s.cur) s
  else if s.me.preemptable then exec (.preemptPriority7 s.cur) s
  else match fetchInstr s.me.pc s with
    | .ok (i, t) => exec i t
    | .error e => run (throw e) s

/-- The turn of core `cur`. A running core first creates one instance if it can, in a turn that is not scheduled
(04 R83). -/
noncomputable def coreTurn (s : State) (create : Bool) : Host.Outcome State Fault Refusal :=
  match s.me.cond with
  | .running => runNext (if create then (s.create s.cur).getD s else s)
  | .idle => .next (s.housekeep s.cur)
  | _ => if s.me.preemptable then exec (.preemptPriority7 s.cur) s else .next ((s.create s.cur).getD s)

/-- A turn. -/
noncomputable def act (s : State) : Host.Outcome State Fault Refusal :=
  match s.takeTurn with
  | (none, s) => .next s
  | (some (.core c), t) => coreTurn { t with cur := c } s.schedule.isEmpty
  | (some (.pending k), s) => match s.happenings[k]? with
    | some h => if h.1 ≤ s.now then exec h.2 { s with happenings := s.happenings.eraseIdx k } else .next s
    | none => .next s
  | (some (.event i), s) => if isEvent i then exec i s else .next s

/-- Time passes: a number of cycles that nothing constrains (log 2). -/
def State.pass (s : State) : State := { s with now := s.now + Config.stepCycles s.tick, tick := s.tick + 1 }

/-- One step: a turn, what the queue hardware notices after it (06 R142), and the clock. -/
noncomputable def step (s : State) : Host.Outcome State Fault Refusal :=
  match act s with
  | .next t => .next t.watchCalderas.pass
  | .fault f => .fault f
  | .refused r => .refused r

/-- The address that `withFetchWord` fetches from: virtual page 1 of the issuing package. -/
abbrev fetchPc : Word := 0xFFF0000000010000

/-- `s` with an instruction of core 0 to run next (log 51): a service-level role with one code page, its translation in
the core's ITLB, the instruction's bytes in the page's frame, an instance that runs there, and core 0's turn. -/
def State.withFetchWord (s : State) (nbits w : Nat) : State :=
  let bytes := bytesOf (BitVec.ofNat 64 (w % 2 ^ nbits)) 8
  let leaf : Word := 0x100D7
  let e : TlbE := { dom := 0, page := 1, large := false, leaf := leaf, gen := s.gen 0 }
  let role : Role := { svc := true, dom := 0, cores := [0], codeVa := 0x10000, codeLen := 65536 }
  let x := s.core 0
  let x := { x with pc := fetchPc, cond := .running, role := some 0, itlb := [e], startedAt := s.now,
                    inst := { id := s.nextId, prio := 7 } }
  let s := (s.setCore 0 x).setRole 0 role
  { s with mem := Memory.setBytes s.mem 0x10000 bytes, schedule := [.core 0], boot := .running, redirects := [],
           migrations := [], injected := [], tests := [], nextId := s.nextId + 1 }

end Sys2Proof.Machine
end

