-- ==== Sys2Proof/Safety.lean ====
section
/-!
DEFINITION. What counts as a safe run, and the words in which claims about the machine are made: the state after an
instruction that only changes its core, what such an instruction leaves, what a frame says.
-/
namespace Sys2Proof.Machine

/-- An outcome at which the machine goes on. -/
def Goes (o : Host.Outcome State Fault Refusal) : Prop := ∃ t, o = .next t

/-- A state from which the machine takes a step. Every fault of the spec is taken inside the machine (22 R435), so a
stop would mean that the model does not know what to do. -/
def Safe (s : State) : Prop := Goes (step s)

/-- The state after an instruction of `len` bytes that transfers no control (02 R28): the acting core as `f` leaves it,
its pc past the instruction and the instruction retired (05 R116), and nothing else changed. -/
def State.after (s : State) (len : Word) (f : Core → Core) : State :=
  s.updCore s.cur (fun x => { f x with pc := x.pc + len, retired := x.retired + 1 })

/-- Two states agree on everything but one core. -/
def SameBut (c : CoreId) (s t : State) : Prop := ∃ x, t = s.setCore c x

/-- Every byte of memory reads as before. -/
def SameMem (s t : State) : Prop := ∀ a, Memory.get t.mem a = Memory.get s.mem a

end Sys2Proof.Machine
end

