-- ==== Sys2Proof/Certificates/Slice0/Obligations.lean ====
section
/-!
DEFINITION. What is claimed of the machine. Each claim's docstring says what it formalises; the tables of a claim list the
instructions it is about.
-/
section
open Sys2Proof Sys2Proof.Machine

/-! ## Encoding and the step (02 R28–R41) -/

/-- Words of the spec's own examples (02 Table 2.10 and the examples of R32 and R33; 05 Tables 5.3, 5.5, 5.7 and 5.13;
08 Table 8.3; 09 Table 9.8; 11 Table 11.7; 12 Table 12.8; 13 Table 13.6; 15 Table 15.7; 18 Table 18.7; 20 Table 20.13), lowest address first, and the instructions they stand for. -/
def Obligations.DecodeKnownWords : Prop :=
  ∀ p ∈ ([([0x06102800#32], .add 16 16 5 0), ([0x04A63AC1#32], .div 5 6 7 1), ([0x04A63DC8#32], .selnz 5 6 7 8),
      ([0x08A6F203#32], .bfxs 5 6 8 3), ([0x10A03FFD#32], .bne 5 0 0x1FFD), ([0x1CA00202#32], .csrr 5 0 2),
      ([0x34A20000#32], .qpop 5 2 0), ([0x20A87FF8#32], .ldD 5 8 0x1FF8), ([0x2CC82A53#32], .amoCas 6 8 5 2 1 1),
      ([0x586110B3#32], .vdot 3 1 2 0 2 1 1), ([0x68484805#32], .mloadb 2 8 9 5), ([0x6C484800#32], .xcopy 2 8 9 0),
      ([0x38882950#32], .amoq 4 8 5 1 0), ([0x3C684940#32], .rqfork 3 8 9), ([0x1CC84E80#32], .svresume 6 8 9),
      ([0xFC400091#32, 0x08C01456#32], .ixLongForm .addi 6 0 0x123456),
      ([0xFC06F900#32, 0x40811080#32], .vxLongForm .vadd ⟨4, 1, 2, 0, 2, 0, 0⟩ ⟨0x1B, 0xE4, 0, 0, 0, 0, 0⟩),
      ([0xFC850000#32, 0x38E83083#32], .stxCue 7 8 6 5 3)] : List (List IWord × Instr)),
    decode (p.1.flatMap Sys2Proof.wordBytes) = .ok p.2 (4 * p.1.length) [] ∧ encode p.2 = p.1

/-- Decoding the bytes of any well-formed instruction that has an encoding gives back that instruction, with every operand
at every value the encoding admits, whatever bytes follow. -/
def Obligations.DecodeEncode : Prop :=
  ∀ i : Instr, i.wf = true → encode i ≠ [] → ∀ rest,
    decode (encodeBytes i ++ rest) = .ok i (4 * (encode i).length) rest

/-- The other direction: bytes that decode to an instruction are that instruction's encoding, so that no bit of a word is
ignored and no two words mean the same; and what is decoded is well formed. -/
def Obligations.EncodeDecode : Prop :=
  ∀ (bs rest : List Byte) (i : Instr) (n : Nat), decode bs = .ok i n rest →
    i.wf = true ∧ n = 4 * (encode i).length ∧ bs = encodeBytes i ++ rest

/-- The machine's step when core `c` has its turn and runs: a core in an unscheduled turn first creates one instance if it
can (log 3); then the word at the pc is fetched. A word that decodes runs as `exec` of its instruction, at the state after
the fetch; a prefix of an assigned kind takes the next word with it; what is no instruction is ILL_ENCODING. Around `exec`
the step adds what the queue hardware notices of a caldera that was lost (06 R142, log 82), and the passing of time. -/
def Obligations.StepRunsDecoded : Prop :=
  ∀ (s t : State) (c : CoreId), s.takeTurn = (some (.core c), t) →
    let u := { t with cur := c }
    let v := if s.schedule.isEmpty then (u.create c).getD u else u
    u.me.cond = .running → v.overBudget v.cur = false → v.me.preemptable = false →
    (∀ (w : IWord) (x : State) (i : Instr), fetchAt v.me.pc v = .ok (w, x) → isPrefix w = false → decodeShort w = .ok i →
      ∃ y, exec i x = .next y ∧ step s = .next y.watchCalderas.pass) ∧
    (∀ (w w2 : IWord) (x y : State) (i : Instr), fetchAt v.me.pc v = .ok (w, x) → takesTwo w = true →
      fetchAt (v.me.pc + 4) x = .ok (w2, y) → decodeLong w w2 = .ok i →
      ∃ z, exec i y = .next z ∧ step s = .next z.watchCalderas.pass) ∧
    (∀ (w : IWord) (x : State) (e : Reject), fetchAt v.me.pc v = .ok (w, x) → isPrefix w = false → decodeShort w = .error e →
      step s = .next (x.takeFault x.cur cILL (w.setWidth 64)).watchCalderas.pass) ∧
    (∀ (w w2 : IWord) (x y : State) (e : Reject), fetchAt v.me.pc v = .ok (w, x) → takesTwo w = true →
      fetchAt (v.me.pc + 4) x = .ok (w2, y) → decodeLong w w2 = .error e →
      step s = .next (y.takeFault y.cur cILL (w2 ++ w)).watchCalderas.pass)

/-- What a fetch reads (02 R28, 00 R3): through an ITLB entry that hits, with X, in an HBM page that no migration and no
redirect concerns, where no error stands and no row is under test, the word is the four bytes at the address the leaf gives, lowest first;
no byte of memory changes. -/
def Obligations.FetchReadsTheBytes : Prop :=
  ∀ (s : State) (pc : Word) (va : Nat) (e : TlbE),
    s.resolve s.cur (s.coreSvc s.cur) true pc = some (.virt va) → (s.coreRole s.cur).inCode va = true →
    s.me.itlb.find? (fun e => e.hits (s.coreDom s.cur) va (s.gen (s.coreDom s.cur))) = some e → pteX e.leaf = true →
    leafPA e.leaf e.large va < 2 ^ 48 → s.redirects = [] → s.migrations = [] → s.injected = [] → s.tests = [] →
    ∃ t, fetchAt pc s = .ok (leWord (Memory.get s.mem (leafPA e.leaf e.large va)) (Memory.get s.mem (leafPA e.leaf e.large va + 1))
        (Memory.get s.mem (leafPA e.leaf e.large va + 2)) (Memory.get s.mem (leafPA e.leaf e.large va + 3)), t) ∧ SameMem s t

/-- No instruction and no event stops the machine: every step of every state answers a next state, every fault of the spec
being taken inside the machine. -/
def Obligations.EveryStepGoesOn : Prop := ∀ s : State, Safe s

/-- Every step keeps the canonical form of memory: places strictly rising, no listed byte zero. -/
def Obligations.StepKeepsMemoryForm : Prop :=
  ∀ s t : State, Memory.wf s.mem → step s = .next t → Memory.wf t.mem

/-- Right after reset memory has its canonical form and reads as zero everywhere (log 6), no core runs or holds an instance, its
system registers are zero, every queue of the clusters, cue and record is FREE, no tensor entry, group, role, load, route or trunk is
there, cue lifetimes are 100 µs and domains have no root, no fault has been taken, and the boot ROM's happening is pending. -/
def Obligations.ResetState : Prop :=
  let s := State.reset
  Memory.wf s.mem ∧ (∀ a, Memory.get s.mem a = 0) ∧ (∀ c, (s.core c).cond = .idle ∧ (s.core c).held = [] ∧ (s.core c).role = none) ∧
    (∀ c, let x := s.core c
      x.nflags = 0 ∧ x.nmode = 0 ∧ x.dbgctl = 0 ∧ x.dbgq = 0 ∧ x.retired = 0 ∧ x.stbuf = [] ∧ x.outst = [] ∧ x.arms = [] ∧ x.rows = []) ∧
    (∀ q < 16384, (s.queue q).st = .free) ∧ (∀ k, (s.cue k).st = .free) ∧ (∀ i < 16384, s.record i = 0) ∧
    (∀ k, (s.tensor k).taken = false) ∧ (∀ g, (s.group g).valid = false) ∧ s.roles = [] ∧ s.loads = [] ∧ s.routes = [] ∧
    (∀ t, (s.trunk t).ports = 0) ∧ (∀ d : BitVec 12, s.devGet (lifeReg d) = 100 ∧ s.devGet (rootReg d) = 0) ∧
    s.boot = .rom ∧ s.faults = 0 ∧ s.happenings = [(0, .startUp)]

/-! ## Scalar instructions (05) -/

namespace Sys2Proof.Claim

/-- The views that R105 takes of two sources at a width. -/
structure View where
  w : Nat
  x : Nat
  y : Nat
  xs : Int
  ys : Int
  sh : Nat

/-- A value of w bits read as signed. -/
def sext (w x : Nat) : Int := if x < 2 ^ (w - 1) then x else (x : Int) - 2 ^ w

/-- R105: w, x, y, xs, ys and sh. -/
def view (m : BitVec 1) (a b : Word) : View :=
  let w := if m = 1 then 32 else 64
  let x := a.toNat % 2 ^ w
  let y := b.toNat % 2 ^ w
  { w := w, x := x, y := y, xs := sext w x, ys := sext w y, sh := y % w }

/-- R105: what goes to the register of a result at a width. -/
def result (m : BitVec 1) (res : Int) : Word := if m = 1 then (BitVec.ofInt 32 res).signExtend 64 else BitVec.ofInt 64 res

/-- The bits of x from the lowest, of w. -/
def bitsOf (w x : Nat) : List Bool := (List.range w).map (x.testBit ·)

/-- The number whose bits those are, the lowest first. -/
def ofBits (l : List Bool) : Nat := l.foldr (fun b n => (if b then 1 else 0) + 2 * n) 0

/-- The instruction writes d with a function of the core, passes to the next instruction and retires; nothing else changes. -/
def Writes (i : Instr) (d : Reg) (f : Core → Word) : Prop :=
  ∀ s : State, exec i s = .next (s.after 4 (fun x => x.setReg d (f x)))

/-- The same with R105's views and a result of Table 5.1. -/
def Table51 (i : Instr) (d a b : Reg) (m : BitVec 1) (res : View → Int) : Prop :=
  Writes i d (fun x => result m (res (view m (x.reg a) (x.reg b))))

end Sys2Proof.Claim

open Sys2Proof.Claim in
/-- Table 5.1: each register-to-register function of major 0x01 completes in every state, writes its result to `s[d]`
(nothing when d is 0, 02 R22), and changes nothing else but the pc and the retired count. -/
def Obligations.ScalarRegister : Prop :=
  (∀ (d a b : Reg) (m : BitVec 1),
    Table51 (.add d a b m) d a b m (fun v => v.x + v.y) ∧
    Table51 (.sub d a b m) d a b m (fun v => v.x - v.y) ∧
    Table51 (.sll d a b m) d a b m (fun v => v.x * 2 ^ v.sh) ∧
    Table51 (.srl d a b m) d a b m (fun v => v.x / 2 ^ v.sh) ∧
    Table51 (.sra d a b m) d a b m (fun v => v.xs.fdiv (2 ^ v.sh)) ∧
    Table51 (.mul d a b m) d a b m (fun v => v.x * v.y) ∧
    Table51 (.div d a b m) d a b m (fun v =>
      if v.ys = 0 then -1 else if v.xs = -2 ^ (v.w - 1) ∧ v.ys = -1 then v.xs else v.xs.tdiv v.ys) ∧
    Table51 (.divu d a b m) d a b m (fun v => if v.y = 0 then 2 ^ v.w - 1 else v.x / v.y) ∧
    Table51 (.rem d a b m) d a b m (fun v =>
      if v.ys = 0 then v.xs else if v.xs = -2 ^ (v.w - 1) ∧ v.ys = -1 then 0 else v.xs - v.ys * v.xs.tdiv v.ys) ∧
    Table51 (.remu d a b m) d a b m (fun v => if v.y = 0 then v.x else v.x % v.y) ∧
    Table51 (.rol d a b m) d a b m (fun v => v.x * 2 ^ v.sh + v.x / 2 ^ (v.w - v.sh)) ∧
    Table51 (.ror d a b m) d a b m (fun v => v.x / 2 ^ v.sh + v.x * 2 ^ (v.w - v.sh)) ∧
    Table51 (.clz d a m) d a 0 m (fun v => ((bitsOf v.w v.x).reverse.takeWhile (!·)).length) ∧
    Table51 (.ctz d a m) d a 0 m (fun v => ((bitsOf v.w v.x).takeWhile (!·)).length) ∧
    Table51 (.popc d a m) d a 0 m (fun v => (bitsOf v.w v.x).count true)) ∧
  (∀ (d a b c : Reg) (k : BitVec 2),
    Table51 (.and d a b) d a b 0 (fun v => v.x &&& v.y) ∧
    Table51 (.or d a b) d a b 0 (fun v => v.x ||| v.y) ∧
    Table51 (.xor d a b) d a b 0 (fun v => v.x ^^^ v.y) ∧
    Table51 (.mulh d a b) d a b 0 (fun v => (v.xs * v.ys).fdiv (2 ^ 64)) ∧
    Table51 (.mulhu d a b) d a b 0 (fun v => v.x * v.y / 2 ^ 64) ∧
    Table51 (.slt d a b) d a b 0 (fun v => if v.xs < v.ys then 1 else 0) ∧
    Table51 (.sltu d a b) d a b 0 (fun v => if v.x < v.y then 1 else 0) ∧
    Table51 (.seq d a b) d a b 0 (fun v => if v.x = v.y then 1 else 0) ∧
    Table51 (.min d a b) d a b 0 (fun v => min v.xs v.ys) ∧
    Table51 (.max d a b) d a b 0 (fun v => max v.xs v.ys) ∧
    Table51 (.minu d a b) d a b 0 (fun v => min v.x v.y) ∧
    Table51 (.maxu d a b) d a b 0 (fun v => max v.x v.y) ∧
    Table51 (.brev d a) d a 0 0 (fun v => ofBits (bitsOf 64 v.x).reverse) ∧
    Table51 (.bswap d a) d a 0 0 (fun v =>
      (((List.range 8).map (fun i => v.x / 256 ^ i % 256 * 256 ^ (7 - i))).sum : Nat)) ∧
    Table51 (.addsh d a b k) d a b 0 (fun v => v.x + v.y * 2 ^ k.toNat) ∧
    Writes (.selz d a b c) d (fun x => if x.reg c = 0 then x.reg a else x.reg b) ∧
    Writes (.selnz d a b c) d (fun x => if x.reg c ≠ 0 then x.reg a else x.reg b))

namespace Sys2Proof.Claim

/-- The bits p to p + n − 1 of a register as a number. -/
def bitsAt (x : Word) (p n : Nat) : Nat := x.toNat / 2 ^ p % 2 ^ n

/-- An instruction of `len` bytes writes d with a function of the core. -/
def WritesLen (len : Word) (i : Instr) (d : Reg) (f : Core → Word) : Prop :=
  ∀ s : State, exec i s = .next (s.after len (fun x => x.setReg d (f x)))

/-- The forms of Table 5.4 with an immediate of either length. -/
def Table54 (len : Word) (imm : Word) (d a : Reg) (addi andi ori xori slti sltiu : Instr) : Prop :=
  WritesLen len addi d (fun x => BitVec.ofInt 64 ((x.reg a).toNat + imm.toInt)) ∧
  WritesLen len andi d (fun x => x.reg a &&& imm) ∧
  WritesLen len ori d (fun x => x.reg a ||| imm) ∧
  WritesLen len xori d (fun x => x.reg a ^^^ imm) ∧
  WritesLen len slti d (fun x => if (x.reg a).toInt < imm.toInt then 1 else 0) ∧
  WritesLen len sltiu d (fun x => if (x.reg a).toNat < imm.toNat then 1 else 0)

end Sys2Proof.Claim

open Sys2Proof.Claim in
/-- The immediate operations (R107–R110) and the six that an IX prefix lengthens (02 R33): Table 5.4 with imm13 and with
the 32-bit immediate, the immediate shifts as Table 5.1's with the amount of the word, the bit-field extracts (p + n ≤ 64,
which decoding ensures), and LIH. -/
def Obligations.ScalarImmediate : Prop :=
  (∀ (d a : Reg) (i : BitVec 13), Table54 4 (i.signExtend 64) d a (.addi d a i) (.andi d a i) (.ori d a i) (.xori d a i)
    (.slti d a i) (.sltiu d a i)) ∧
  (∀ (d a : Reg) (i : BitVec 32), Table54 8 (i.signExtend 64) d a (.ixLongForm .addi d a i) (.ixLongForm .andi d a i)
    (.ixLongForm .ori d a i) (.ixLongForm .xori d a i) (.ixLongForm .slti d a i) (.ixLongForm .sltiu d a i)) ∧
  (∀ (d a : Reg) (m : BitVec 1) (k : BitVec 6), (m = 1 → k.toNat < 32) →
    Writes (.slli d a m k) d (fun x => let v := view m (x.reg a) 0; result m (v.x * 2 ^ k.toNat)) ∧
    Writes (.srli d a m k) d (fun x => let v := view m (x.reg a) 0; result m (v.x / 2 ^ k.toNat)) ∧
    Writes (.srai d a m k) d (fun x => let v := view m (x.reg a) 0; result m (v.xs.fdiv (2 ^ k.toNat))) ∧
    Writes (.rori d a m k) d (fun x => let v := view m (x.reg a) 0;
      result m (v.x / 2 ^ k.toNat + v.x * 2 ^ (v.w - k.toNat)))) ∧
  (∀ (d a : Reg) (p l : BitVec 6), p.toNat + (l.toNat + 1) ≤ 64 →
    Writes (.bfx d a p l) d (fun x => BitVec.ofNat 64 (bitsAt (x.reg a) p.toNat (l.toNat + 1))) ∧
    Writes (.bfxs d a p l) d (fun x =>
      BitVec.ofInt 64 (sext (l.toNat + 1) (bitsAt (x.reg a) p.toNat (l.toNat + 1))))) ∧
  (∀ (d : Reg) (i : BitVec 21), Writes (.lih d i) d (fun _ => BitVec.ofNat 64 (i.toNat * 2 ^ 43)))

namespace Sys2Proof.Claim

/-- A branch of `len` bytes goes to its own address plus 4·disp when taken, and to the next instruction otherwise; it
retires and changes nothing else. -/
def Branches (len : Word) (i : Instr) (disp : Int) (taken : Core → Prop) : Prop :=
  ∀ s : State, ∃ n : Word, exec i s = .next (s.after n id) ∧
    (taken s.me → n = BitVec.ofInt 64 (4 * disp)) ∧ (¬ taken s.me → n = len)

/-- The six branches with a displacement of either length. -/
def Table56 (len : Word) (disp : Int) (a b : Reg) (beq bne blt bge bltu bgeu : Instr) : Prop :=
  Branches len beq disp (fun x => x.reg a = x.reg b) ∧
  Branches len bne disp (fun x => x.reg a ≠ x.reg b) ∧
  Branches len blt disp (fun x => (x.reg a).toInt < (x.reg b).toInt) ∧
  Branches len bge disp (fun x => (x.reg b).toInt ≤ (x.reg a).toInt) ∧
  Branches len bltu disp (fun x => (x.reg a).toNat < (x.reg b).toNat) ∧
  Branches len bgeu disp (fun x => (x.reg b).toNat ≤ (x.reg a).toNat)

end Sys2Proof.Claim

open Sys2Proof.Claim in
/-- The conditional branches (R111) and their IX forms (02 R33), whose displacement is in words from the branch (the
prefix, for a long form) and whose fall-through is past the whole instruction. -/
def Sys2Proof.Claim.ScalarBranches : Prop :=
  (∀ (a b : Reg) (i : BitVec 13), Table56 4 i.toInt a b (.beq a b i) (.bne a b i) (.blt a b i) (.bge a b i) (.bltu a b i)
    (.bgeu a b i)) ∧
  (∀ (a b : Reg) (i : BitVec 32), Table56 8 i.toInt a b (.ixLongForm .beq a b i) (.ixLongForm .bne a b i)
    (.ixLongForm .blt a b i) (.ixLongForm .bge a b i) (.ixLongForm .bltu a b i) (.ixLongForm .bgeu a b i))

/-- JAL and JALR (R112, R113) and JALR under IX: the return address to `s[d]`, the target read before `s[d]` is written;
a JALR target that is no multiple of 4 takes ALIGN with the target as detail and writes nothing. -/
def Sys2Proof.Claim.ScalarJumps : Prop :=
  ∀ (s : State) (d a : Reg) (i : BitVec 13) (j : BitVec 21) (k : BitVec 32),
    exec (.jal d j) s = .next (s.updCore s.cur (fun x =>
      { x.setReg d (x.pc + 4) with pc := x.pc + BitVec.ofInt 64 (4 * j.toInt), retired := x.retired + 1 })) ∧
    (∀ t : Word, t = s.me.reg a + i.signExtend 64 →
      (t.toNat % 4 = 0 → exec (.jalr d a i) s = .next (s.updCore s.cur (fun x =>
        { x.setReg d (x.pc + 4) with pc := t, retired := x.retired + 1 }))) ∧
      (t.toNat % 4 ≠ 0 → exec (.jalr d a i) s = .next (s.takeFault s.cur cALIGN t))) ∧
    (∀ t : Word, t = s.me.reg a + k.signExtend 64 →
      (t.toNat % 4 = 0 → exec (.ixLongForm .jalr d a k) s = .next (s.updCore s.cur (fun x =>
        { x.setReg d (x.pc + 8) with pc := t, retired := x.retired + 1 }))) ∧
      (t.toNat % 4 ≠ 0 → exec (.ixLongForm .jalr d a k) s = .next (s.takeFault s.cur cALIGN t)))

/-- The scalar branches and jumps, each form (05 R111–R113). -/
def Obligations.ScalarControl : Prop := Claim.ScalarBranches ∧ Claim.ScalarJumps

/-! ## Frame, system registers, traps (05 R114–R120; 22 R435–R439) -/

namespace Sys2Proof.Claim

/-- The scalar instructions that touch nothing but the registers and the pc, each with the register it writes. -/
def scalarDest : Instr → Option Reg
  | .add d _ _ _ | .sub d _ _ _ | .and d _ _ | .or d _ _ | .xor d _ _ | .sll d _ _ _ | .srl d _ _ _ | .sra d _ _ _
  | .mul d _ _ _ | .mulh d _ _ | .mulhu d _ _ | .div d _ _ _ | .divu d _ _ _ | .rem d _ _ _ | .remu d _ _ _ | .slt d _ _
  | .sltu d _ _ | .seq d _ _ | .min d _ _ | .max d _ _ | .minu d _ _ | .maxu d _ _ | .selz d _ _ _ | .selnz d _ _ _
  | .clz d _ _ | .ctz d _ _ | .popc d _ _ | .brev d _ | .bswap d _ | .rol d _ _ _ | .ror d _ _ _ | .addsh d _ _ _
  | .addi d _ _ | .andi d _ _ | .ori d _ _ | .xori d _ _ | .slti d _ _ | .sltiu d _ _ | .slli d _ _ _ | .srli d _ _ _
  | .srai d _ _ _ | .rori d _ _ _ | .bfx d _ _ _ | .bfxs d _ _ _ | .lih d _ | .jal d _ | .jalr d _ _ => some d
  | .beq _ _ _ | .bne _ _ _ | .blt _ _ _ | .bge _ _ _ | .bltu _ _ _ | .bgeu _ _ _ => some 0
  | .ixLongForm op d _ _ => match op with
    | .addi | .andi | .ori | .xori | .slti | .sltiu | .jalr => some d
    | .beq | .bne | .blt | .bge | .bltu | .bgeu => some 0
    | _ => none
  | _ => none

/-- What a frame says of everything beside the destination register and the pc: the other registers, the flags and
modes, the lanes, the special registers, the tables, the other cores, every byte of memory. -/
def Frame (d : Reg) (s t : State) : Prop :=
  (∀ r : Reg, r ≠ d → t.me.reg r = s.me.reg r) ∧ t.me.nflags = s.me.nflags ∧ t.me.nmode = s.me.nmode ∧ t.me.vl = s.me.vl ∧
  t.me.vregs = s.me.vregs ∧ t.me.masks = s.me.masks ∧ t.me.dbgctl = s.me.dbgctl ∧ t.me.dbgq = s.me.dbgq ∧
  t.me.rows = s.me.rows ∧ t.me.stbuf = s.me.stbuf ∧ t.me.inst = s.me.inst ∧ t.me.cond = s.me.cond ∧
  (∀ c, c ≠ s.cur → t.core c = s.core c) ∧ t.queues = s.queues ∧ t.dev = s.dev ∧ (∀ a, Memory.get t.mem a = Memory.get s.mem a)

end Sys2Proof.Claim

open Sys2Proof.Claim in
/-- The frame of every scalar instruction that only computes, branches or jumps, the IX forms of those among them: when it
ends without a fault, everything but its destination register and the pc is as before. -/
def Obligations.ScalarFrame : Prop :=
  ∀ (i : Instr) (d : Reg) (s t : State), scalarDest i = some d → exec i s = .next t → t.faults = s.faults → Frame d s t

namespace Sys2Proof.Claim

/-- Table 5.9: the number, the value that is read, the RW fields and the SVC fields. -/
def sysRegs (s : State) : List (Nat × Word × Word × Word) :=
  [(0x001, s.me.nflags, 0x7F, 0), (0x002, s.me.nmode, 0x1F, 0), (0x010, word (s.now - s.me.resetAt), 0, 0),
   (0x011, word (s.now / 2), 0, 0), (0x012, s.me.retired, 0, 0), (0x020, coordOf s.pkg s.cur, 0, 0),
   (0x021, s.roleId s.cur, 0, 0), (0x022, (s.coreDom s.cur).setWidth 64, 0, 0), (0x040, s.me.dbgctl, 0, 3),
   (0x041, s.me.dbgq, 0, 0xFFFFFFFFFFFFFFFF)]

/-- R118: the CSR instructions for a number, each with its mask, what it would leave, and the instruction. -/
def csrForms (d a u : Reg) (v : BitVec 6) (old x : Word) : List (Instr × Word × Word) :=
  [(.csrr d u v, 0, old), (.csrw d a u v, 0xFFFFFFFFFFFFFFFF, x), (.csrs d a u v, x, old ||| x), (.csrc d a u v, x, old &&& ~~~x)]

end Sys2Proof.Claim

open Sys2Proof.Claim in
/-- The four CSR instructions on every assigned register (R116, R118): the old value goes to `s[d]`; an RW field, and at
service level an SVC field, takes the new value, every other bit stays; at role level a write that names an SVC bit takes
PRIV with the number as detail, and changes nothing. -/
def Sys2Proof.Claim.SystemRegisters : Prop :=
  ∀ (s : State) (d a u : Reg) (v : BitVec 6), ∀ r ∈ sysRegs s, u.toNat * 64 + v.toNat = r.1 →
    ∀ f ∈ csrForms d a u v r.2.1 (s.me.reg a),
      let svc := s.coreSvc s.cur
      (svc = true ∨ f.2.1 &&& r.2.2.2 = 0 → ∃ new : Word, exec f.1 s = .next (s.after 4 (fun x => (x.setCsr r.1 new).setReg d r.2.1)) ∧
        ∀ k < 64, new.getLsbD k =
          (if r.2.2.1.getLsbD k ∨ (svc = true ∧ r.2.2.2.getLsbD k) then f.2.2.getLsbD k else r.2.1.getLsbD k)) ∧
      (svc = false → f.2.1 &&& r.2.2.2 ≠ 0 → exec f.1 s = .next (s.takeFault s.cur cPRIV (word r.1)))

open Sys2Proof.Claim in
/-- CSRR completes on every register at either level and writes none; CSRW, CSRS and CSRC complete on every register at service
level, and at role level where they name no SVC bit: each of NFLAGS, NMODE, DBGCTL and DBGQ then takes its writable bits, the
others stay, and `s[d]` has the old value (R116, R118). -/
def Sys2Proof.Claim.SystemRegistersComplete : Prop :=
  ∀ (s : State) (d a u : Reg) (v : BitVec 6), ∀ r ∈ sysRegs s, u.toNat * 64 + v.toNat = r.1 →
    let x := s.me.reg a
    let leaves := fun (i : Instr) (given : Word) => ∃ t, exec i s = .next t ∧ t.me.pc = s.me.pc + 4 ∧
      (∀ k : Reg, t.me.reg k = if k = 0 then 0 else if k = d then r.2.1 else s.me.reg k) ∧
      (let may := r.2.2.1 ||| (if s.coreSvc s.cur = true then r.2.2.2 else 0)
       let now := (r.2.1 &&& ~~~may) ||| (given &&& may)
       t.me.nflags = (if r.1 = 0x001 then now else s.me.nflags) ∧ t.me.nmode = (if r.1 = 0x002 then now else s.me.nmode) ∧
       t.me.dbgctl = (if r.1 = 0x040 then now else s.me.dbgctl) ∧ t.me.dbgq = (if r.1 = 0x041 then now else s.me.dbgq)) ∧
      t.me.retired = s.me.retired + 1 ∧ t.me.vregs = s.me.vregs ∧ t.me.masks = s.me.masks ∧ t.me.rows = s.me.rows ∧
      (∀ c, c ≠ s.cur → t.core c = s.core c) ∧ t.queues = s.queues ∧ t.dev = s.dev ∧ SameMem s t
    leaves (.csrr d u v) r.2.1 ∧
    (s.coreSvc s.cur = true ∨ r.2.2.2 = 0 → leaves (.csrw d a u v) x) ∧
    (s.coreSvc s.cur = true ∨ x &&& r.2.2.2 = 0 → leaves (.csrs d a u v) (r.2.1 ||| x) ∧ leaves (.csrc d a u v) (r.2.1 &&& ~~~x))

/-- A CSR instruction that names a number of Table 5.9's gaps takes ILL with its word as detail (R118, 02 R27). -/
def Sys2Proof.Claim.SystemRegisterUnassigned : Prop :=
  ∀ (s : State) (d a u : Reg) (v : BitVec 6), u.toNat * 64 + v.toNat ∉
      [0x001, 0x002, 0x010, 0x011, 0x012, 0x020, 0x021, 0x022, 0x040, 0x041] →
    ∀ i ∈ [Instr.csrr d u v, .csrw d a u v, .csrs d a u v, .csrc d a u v], ∀ w, encode i = [w] →
      exec i s = .next (s.takeFault s.cur cILL (w.setWidth 64))

/-- The system registers: those that are, and those that are not (05 R116–R118). -/
def Obligations.SystemRegisterAccess : Prop := Claim.SystemRegisters ∧ Claim.SystemRegistersComplete ∧ Claim.SystemRegisterUnassigned

/-- TRAP (R119) terminates the instance with 0x40 + code and detail `s[a]`; an encoding that is no instruction (02 R41) with
ILL, the word or the two words as detail; a service instruction at role level with PRIV (02 R42; the detail is free, log
40). None completes. -/
def Sys2Proof.Claim.TrapsTaken : Prop :=
  ∀ (s : State) (d a b : Reg) (c : BitVec 6) (w w2 : IWord),
    exec (.trap a c) s = .next (s.takeFault s.cur (BitVec.ofNat 8 (64 + c.toNat)) (s.me.reg a)) ∧
    exec (.illEncoding w none) s = .next (s.takeFault s.cur cILL (w.setWidth 64)) ∧
    exec (.illEncoding w (some w2)) s = .next (s.takeFault s.cur cILL (w2 ++ w)) ∧
    (s.coreSvc s.cur = false → ∀ i ∈ [Instr.svbind d a b, .svhalt d a b, .svresume d a b, .svresumeR d a b, .svmap d a b,
        .tlbiv d a b, .tlbid d a, .qcreate d a, .qdestroy d a 0, .qdestroy d a 1, .lnkdiag d a b],
      exec i s = .next (s.takeFault s.cur cPRIV (Config.freeWord s.tick)))

/-- Taking a fault (R435 path T, R437, R438, 04 R89) on a core whose fault row is another row than the faulting instance's
and whose fault queue, of 8 items, has room: the core is idle, `s16`–`s31` and the run queue stay, every item the
instance owned is gone and every other queue has what it had otherwise, its lane blocks are free, and the fault queue ends
with the item of Table 22.2, with LOST, which starts again at 0. Memory is as it was. -/
def Sys2Proof.Claim.TakingAFault : Prop :=
  ∀ (s : State) (c r : Nat) (code : BitVec 8) (detail : Word),
    let x := s.core c
    let q := s.queue (faultKey c)
    let t := s.takeFault c code detail
    x.faultRow = some r → r ≠ x.inst.row.toNat → q.st = .active → q.spilling = false → q.g = 2 → q.consumers = [c] →
    q.mcast = false → q.steer = false → q.onchip < q.cap → q.ownedBy x.inst.id = [] →
    (t.core c).cond = .idle ∧ (∀ k : Reg, 16 ≤ k.toNat → (t.core c).reg k = x.reg k) ∧ (t.core c).held = x.held ∧
    (∀ k, (t.queue k).ownedBy x.inst.id = []) ∧
    (∀ b ∈ x.blocks, b < 16 → (t.ens (ensOf c)).taken.getLsbD b = false) ∧
    (∃ i : Copy, (t.queue (faultKey c)).items = q.items ++ [i] ∧ i.core = c ∧ i.owner = none ∧ i.item.tag = 0 ∧
      i.item.data.extractLsb' 192 64 = x.pc ∧ i.item.data.extractLsb' 128 64 = detail ∧ i.item.data.extractLsb' 64 64 = 0 ∧
      i.item.data.extractLsb' 56 8 = code ∧ i.item.data.extractLsb' 48 8 = BitVec.ofNat 8 (min 255 (s.ownedCount x.inst.id)) ∧
      i.item.data.extractLsb' 40 8 = 0 ∧ i.item.data.extractLsb' 32 8 = x.lost ∧
      i.item.data.extractLsb' 0 32 = (s.tstate c x.inst x.vl).setWidth 32 ∧ i.item.data.extractLsb' 256 768 = 0) ∧
    (t.core c).lost = 0 ∧ (∀ k, k ≠ c → t.core k = s.core k) ∧ SameMem s t

/-- The instructions that raise a fault, and what taking a fault does (05 R119; 22 R435–R439). -/
def Obligations.FaultsTaken : Prop := Claim.TrapsTaken ∧ Claim.TakingAFault

/-! ## Tasks (04 R81–R103; 11 R224, R225; 05 R120) -/

/-- The row instructions (R100). A row that is not VALID, and for TPOST and TDISABLE the FAULT row, takes ACCESS with the row
as detail. Otherwise TPOST adds one to PEND, or reports 255 pending with status 1; TSETARG sets ARG; TENABLE and TDISABLE
set EN and give the old one. No other row, no register but `s[d]` and nothing else changes. -/
def Sys2Proof.Claim.RowInstructions : Prop :=
  ∀ (s : State) (d a : Reg) (r : BitVec 6),
    let row := s.me.row r.toNat
    let refused := fun i => exec i s = .next (s.takeFault s.cur cACCESS (r.setWidth 64))
    let leaves := fun i (new : Row) (v : Word) => exec i s = .next (s.after 4 (fun x => (x.setRow r.toNat new).setReg d v))
    (row.valid = true → row.fault = false → row.pend = 255 →
      exec (.tpost d r) s = .next (s.after 4 (fun x => x.setReg d 1))) ∧
    (row.valid = true → row.fault = false → row.pend ≠ 255 → leaves (.tpost d r) { row with pend := row.pend + 1 } 0) ∧
    (row.valid = true → exec (.tsetarg a r) s =
      .next (s.after 4 (fun x => x.setRow r.toNat { row with arg := s.me.reg a }))) ∧
    (row.valid = true → leaves (.tenable d r) { row with en := true } (if row.en then 1 else 0)) ∧
    (row.valid = true → row.fault = false → leaves (.tdisable d r) { row with en := false } (if row.en then 1 else 0)) ∧
    (row.valid = false → refused (.tpost d r) ∧ refused (.tsetarg a r) ∧ refused (.tenable d r) ∧ refused (.tdisable d r)) ∧
    (row.fault = true → refused (.tpost d r) ∧ refused (.tdisable d r))

/-- TSTATE (R101, Table 4.8) writes the state word, field by field, of a running instance whose grant is at most 128 lanes;
TCYCLES (R102) the cycles charged: those of earlier runs and those since this one began. -/
def Sys2Proof.Claim.TaskState : Prop :=
  ∀ (s : State) (d : Reg), s.me.vl ≤ 128 → s.me.cond = .running →
    let i := s.me.inst
    let row := s.me.row i.row.toNat
    let owned := fun k => match (s.rowQueues s.cur row)[k]? with
      | some q => min 255 ((s.queue q.1).ownedBy i.id).length
      | none => 0
    (∃ v : Word, exec (.tstate d) s = .next (s.after 4 (fun x => x.setReg d v)) ∧
      v.extractLsb' 0 6 = i.row ∧ v.extractLsb' 6 3 = i.prio ∧ v.extractLsb' 9 3 = i.eff ∧ v.extractLsb' 12 3 = i.source ∧
      v.getLsbD 15 = i.preempted ∧ (v.extractLsb' 16 8).toNat = s.me.vl ∧ (v.extractLsb' 24 8).toNat = owned 0 ∧
      (v.extractLsb' 32 8).toNat = owned 1 ∧ v.extractLsb' 40 8 = i.parks ∧ v.getLsbD 48 = (row.budget != 0) ∧
      v.extractLsb' 49 15 = 0) ∧
    exec (.tcycles d) s = .next (s.after 4 (fun x => x.setReg d (BitVec.ofNat 64 (i.used + (s.now - s.me.startedAt)))))

/-- TEND (R103) ends the running instance normally (R89): the core is idle, `s16`–`s31`, the rows and the run queue stay,
items it owns and has not popped stand in their places owned by none, its lane blocks are free, nothing else changes. -/
def Sys2Proof.Claim.TaskEnd : Prop :=
  ∀ s : State, ∃ t, exec .tend s = .next t ∧ t.me.cond = .idle ∧ t.me.nflags = 0 ∧ t.me.vl = 0 ∧
    (∀ k : Reg, 16 ≤ k.toNat → t.me.reg k = s.me.reg k) ∧ t.me.rows = s.me.rows ∧ t.me.held = s.me.held ∧
    t.me.retired = s.me.retired + 1 ∧
    (∀ q, (t.queue q).items = (s.queue q).items.map (fun i =>
      { i with owner := (if i.owner = some s.me.inst.id then none else i.owner) })) ∧
    (∀ b < 16, (t.ens (ensOf s.cur)).taken.getLsbD b = ((s.ens (ensOf s.cur)).taken.getLsbD b && !s.me.blocks.contains b)) ∧
    (∀ c, c ≠ s.cur → t.core c = s.core c) ∧ t.faults = s.faults ∧ SameMem s t

/-- The task instructions (04 R89, R100–R103). -/
def Obligations.TaskInstructions : Prop := Claim.RowInstructions ∧ Claim.TaskState ∧ Claim.TaskEnd

/-- VCLAIM (11 R225). The first of an instance is granted as many of its ensemble's free lane blocks as it asked for, at most
8, lowest first: as many as the request needs or as are free; its lanes and mask registers are zero; `s[d]` is the grant.
A later one only reads the grant. -/
def Obligations.LaneClaim : Prop :=
  ∀ (s : State) (d a : Reg),
    (s.me.inst.claimed = true → exec (.vclaim d a) s = .next (s.after 4 (fun x => x.setReg d (BitVec.ofNat 64 x.vl)))) ∧
    (s.me.inst.claimed = false → ∃ t, exec (.vclaim d a) s = .next t ∧
      let free := (List.range 16).filter (fun b => !(s.ens (ensOf s.cur)).taken.getLsbD b)
      let n := min (min 8 (((s.me.reg a).toNat + 15) / 16)) free.length
      t.me.blocks = free.take n ∧ t.me.vl = 16 * n ∧ (d ≠ 0 → t.me.reg d = BitVec.ofNat 64 (16 * n)) ∧
      t.me.inst.claimed = true ∧ (∀ r : Fin 32, t.me.vregs[r] = List.replicate (16 * n) 0) ∧ (∀ m : Fin 8, t.me.masks[m] = 0) ∧
      (∀ b < 16, (t.ens (ensOf s.cur)).taken.getLsbD b = ((s.ens (ensOf s.cur)).taken.getLsbD b || (free.take n).contains b)) ∧
      (∀ r : Reg, r ≠ d → t.me.reg r = s.me.reg r) ∧ t.me.pc = s.me.pc + 4 ∧ SameMem s t)

/-- BREAK (05 R120): with BREN clear it only advances; with BREN set and no DBGQ, or one with a reserved bit, LOST is set and
it advances; with a DBGQ of the core's own cluster that takes the notice (nothing of the core being on its way), the notice
is in the queue and the instance is stopped in frame S, free before, at the next instruction, with the core idle. -/
def Obligations.Breaks : Prop :=
  ∀ (s : State) (c : BitVec 6),
    let x := s.me
    let q : BitVec 32 := x.dbgq.setWidth 32
    (x.dbgctl.getLsbD 0 = false → exec (.brk c) s = .next (s.after 4 id)) ∧
    (x.dbgctl.getLsbD 0 = true → x.dbgq = 0 ∨ qidReserved q = true →
      exec (.brk c) s = .next (s.after 4 (fun y => { y with dbgctl := y.dbgctl ||| 2 }))) ∧
    (∀ u, x.dbgctl.getLsbD 0 = true → x.dbgq ≠ 0 → qidReserved q = false → s.qidPkg q = s.pkg →
      qcluster (qkeyOf q) = clusterOf s.cur → qkeyOf q ≠ 502 → x.contribs = [] → x.stbuf = [] → x.outst = [] → s.migrations = [] → s.happenings = [] → x.cond = .running →
      (∀ h ∈ x.held, h.frame ≠ some 14) → x.held.length < 64 →
      s.accept (qkeyOf q) { tag := 0, data := (x.pc ++ (coordOf s.pkg s.cur ||| word (c.toNat + 14 * 256)) : BitVec 128).setWidth 1024 }
        (s.coreDom s.cur) false = .ok u →
      ∃ t, exec (.brk c) s = .next t ∧ t.queues = u.queues ∧ t.me.cond = .idle ∧
        ∃ h, t.me.held = x.held ++ [h] ∧ h.st = .stopped ∧ h.frame = some 14 ∧ h.pc = x.pc + 4 ∧ h.inst.id = x.inst.id ∧
          h.nflags = x.nflags ∧ h.vregs = x.vregs ∧ ∀ k : Fin 16, h.sregs[k] = x.regs[k.val]'(by omega))

namespace Sys2Proof.Claim

/-- What an instance of a row begins with (04 R82, 02 R23), by the source and its `s2`. -/
def Fresh (s : State) (c r : Nat) (row : Row) (source : BitVec 3) (s2 : Word) (h : Held) : Prop :=
  h.st = .ready ∧ h.frame = none ∧ h.pc = row.entry ∧ h.inst.row = BitVec.ofNat 6 r ∧
  h.inst.prio = (if row.fault then 7 else row.prio) ∧ h.inst.source = source ∧ h.inst.readySince = s.now ∧ h.inst.used = 0 ∧
  h.inst.claimed = false ∧ h.vl = 0 ∧ h.nflags = 0 ∧ h.sregs[1] = row.arg ∧ h.sregs[2] = s2 ∧
  h.sregs[3] = word (s.core c).index ∧ h.sregs[4] = word (s.coreRole c).cores.length ∧
  ∀ k : Fin 16, 5 ≤ k.val → h.sregs[k] = 0

end Sys2Proof.Claim

open Sys2Proof.Claim in
/-- CREATE_INSTANCE (R82, R83) on a core with a role, room in its run queue and one row VALID and EN: a fired armament comes
before a post, with its index in `s2`, and its slot is freed; a post before the queues, and PEND falls by one; with a queue
bound that no recast closes and its trigger count of unowned items there, no curtain in the queue, the instance owns exactly those. -/
def Sys2Proof.Claim.InstanceCreation : Prop :=
  ∀ (s : State) (c r : Nat) (row : Row), r < 64 → (s.core c).rows = [(r, row)] → row.valid = true → row.en = true →
    (s.core c).held.length < 64 → (s.core c).role ≠ none → (s.core c).refused = [] → (s.core c).closed = [] →
    let x := s.core c
    (∀ k a j o, x.arms = [(k, a)] → a.row = BitVec.ofNat 6 r → a.fired = some (j, o) →
      ∃ t h, exec (.createInstance c) s = .next t ∧ (t.core c).held = x.held ++ [h] ∧ Fresh s c r row 1 (word j) h ∧
        (t.core c).arms = [] ∧ (t.core c).rows = x.rows ∧ t.queues = s.queues) ∧
    (x.arms = [] → row.pend ≠ 0 →
      ∃ t h, exec (.createInstance c) s = .next t ∧ (t.core c).held = x.held ++ [h] ∧ Fresh s c r row 2 0 h ∧
        (t.core c).rows = [(r, { row with pend := row.pend - 1 })] ∧ t.queues = s.queues) ∧
    (∀ q k, x.arms = [] → row.pend = 0 → row.q0v = true → row.q1v = false → s.rowQueues c row = [(q, k)] → 0 < k → k ≤ 255 →
      (∀ i j (hi : i < (s.queue q).items.length) (hj : j < (s.queue q).items.length),
        (s.queue q).items[i].slot = (s.queue q).items[j].slot → (s.queue q).items[i].core = (s.queue q).items[j].core → i = j) →
      (s.queue q).ownedBy s.nextId = [] → k ≤ ((s.queue q).unowned c).length → (∀ i ∈ (s.queue q).items, i.core = c → i.item.tag ≠ 8) →
      ∃ t h, exec (.createInstance c) s = .next t ∧ (t.core c).held = x.held ++ [h] ∧ Fresh s c r row 0 (word k) h ∧
        ((t.queue q).ownedBy h.inst.id).map (·.item) = (((s.queue q).unowned c).take k).map (·.item)) ∧
    (x.arms = [] → row.pend = 0 → row.q0v = false → exec (.createInstance c) s = .next s)

/-- PREEMPT_PRIORITY7 (R93, R94): a ready instance of priority 7 takes the core from a running one of another priority, which
goes to frame P with its pc, registers, flags and lanes, counted as pre-empted, where no storage error stands and none is armed; without such a ready instance nothing
happens. -/
def Sys2Proof.Claim.Preemption : Prop :=
  ∀ (s : State) (c : Nat),
    let x := s.core c
    (x.cond = .running → x.inst.prio ≠ 7 → (∃ h ∈ x.held, h.st = .ready ∧ h.inst.prio = 7) →
      (∀ h ∈ x.held, h.inst.id ≠ x.inst.id) → (∀ h ∈ x.held, ∀ w, h.st ≠ .preempted w) →
      s.injected = [] → (∀ n, (s.dev.get 0 (injReg 0 n)).getLsbD 63 = false) →
      ∃ t, exec (.preemptPriority7 c) s = .next t ∧ (t.core c).cond = .running ∧ (t.core c).inst.prio = 7 ∧
        (∃ h ∈ x.held, h.st = .ready ∧ (t.core c).inst.id = h.inst.id ∧ (t.core c).pc = h.pc) ∧
        ∃ h ∈ (t.core c).held, h.inst.id = x.inst.id ∧ h.st = .preempted none ∧ h.frame = some 16 ∧ h.pc = x.pc ∧
          h.nflags = x.nflags ∧ h.vregs = x.vregs ∧ h.masks = x.masks ∧ h.blocks = x.blocks ∧ h.inst.preempted = true ∧
          ∀ k : Fin 16, h.sregs[k] = x.regs[k.val]'(by omega)) ∧
    ((∀ h ∈ x.held, h.st = .ready → h.inst.prio ≠ 7) → exec (.preemptPriority7 c) s = .next s)

/-- BUDGET_OVERRUN (R96): a running instance charged at least 64 cycles for each unit of its row's budget is terminated with
BUDGET (the detail is free, log 40); with no budget, or less, nothing happens. -/
def Sys2Proof.Claim.BudgetOverrun : Prop :=
  ∀ (s : State) (c : Nat),
    let x := s.core c
    let b := (x.row x.inst.row.toNat).budget
    x.cond = .running →
    (b ≠ 0 → b.toNat * 64 ≤ x.inst.used + (s.now - x.startedAt) →
      exec (.budgetOverrun c) s = .next (s.takeFault c cBUDGET (Config.freeWord s.tick))) ∧
    (b = 0 ∨ x.inst.used + (s.now - x.startedAt) < b.toNat * 64 → exec (.budgetOverrun c) s = .next s)

/-- The happenings of the core's scheduler (04 R82, R83, R93–R96). -/
def Obligations.Scheduling : Prop := Claim.InstanceCreation ∧ Claim.Preemption ∧ Claim.BudgetOverrun

/-! ## Memory (08; 01 R15; 09 R191, R198) -/

namespace Sys2Proof.Claim

/-- Where each space's addresses end up once they are in full form (01 R14): the short forms 6, 7 and 8 name the core's own
TCM, its cluster's scratchpad and its die's chip SRAM. -/
def fullForm (c : CoreId) (space off : Nat) : Nat × Nat :=
  if space = 6 then (3, c / 4096 % 2 * 2 ^ 47 + c / 256 % 16 * 2 ^ 43 + c % 256 * 2 ^ 35 + off)
  else if space = 7 then (2, c / 256 / 16 % 2 * 2 ^ 47 + c / 256 % 16 * 2 ^ 43 + off)
  else if space = 8 then (1, c / 4096 % 2 * 2 ^ 47 + off)
  else (space, off)

/-- Every access of up to 16 bytes at the place can be applied at once: no page MOVING, no redirect, no storage error, no row
under test, no unit in retention; and the place is no device register. -/
def Quiet (s : State) (p : Nat) : Prop :=
  s.redirects = [] ∧ s.migrations = [] ∧ s.injected = [] ∧ s.tests = [] ∧ p / 2 ^ 48 ≠ 5 ∧ s.sleeping p 16 = none

/-- An access is next in program order (09 R192; 08 R182): nothing of the instance that it meets is on its way, and no store in
the buffer goes before it under an older translation of its page. -/
def InOrder (u : State) (l : Loc) (pa n : Nat) : Prop :=
  u.mustWait l pa n false = false ∧ ∀ e ∈ u.me.stbuf, u.behind? u.cur l pa n false e = false

/-- The location four bytes on. -/
def fourOn (l : Loc) : Loc := match l with
  | .virt va => .virt (va + 4)
  | .place p => .place (p + 4)

/-- An access of a kind at an address passes its checks in the order of 08 R166: the address checks, the alignment, the
translation; `u` is the state after the translation. -/
def Reaches (s : State) (kind : Kind) (addr : Word) (al : Nat) (l : Loc) (pa : Nat) (u : State) : Prop :=
  checkAddress addr s = .ok (l, s) ∧ addr.toNat % al = 0 ∧ translate l kind addr s = .ok (pa, u)

/-- What a read of `n` bytes sees: memory under the core's buffered writes. -/
def seen (u : State) (l : Loc) (pa n : Nat) : BitVec 128 :=
  u.me.overlay (u.coreDom u.cur) l.key n (BitVec.ofNat 128 (natOfBytes ((List.range n).map (fun i => Memory.get u.mem (pa + i)))))

/-- The low n bytes of a value, sign- or zero-extended. -/
def extended (sign : Bool) (n : Nat) (v : BitVec 128) : Word :=
  if sign then (v.setWidth (8 * n)).signExtend 64 else (v.setWidth (8 * n)).setWidth 64

/-- The loads of one register: the instruction, the immediate, the bytes, whether it sign-extends, the length. -/
def loadForms (d a : Reg) (i : BitVec 13) (j : BitVec 32) (sc : BitVec 3) : List (Instr × Word × Nat × Bool × Word) :=
  let m := i.signExtend 64
  let k := j.signExtend 64
  [(.ldB d a i, m, 1, true, 4), (.ldH d a i, m, 2, true, 4), (.ldW d a i, m, 4, true, 4), (.ldD d a i, m, 8, true, 4),
   (.ldBu d a i, m, 1, false, 4), (.ldHu d a i, m, 2, false, 4), (.ldWu d a i, m, 4, false, 4),
   (.ixLongForm .ldB d a j, k, 1, true, 8), (.ixLongForm .ldH d a j, k, 2, true, 8), (.ixLongForm .ldW d a j, k, 4, true, 8),
   (.ixLongForm .ldD d a j, k, 8, true, 8), (.ixLongForm .ldBu d a j, k, 1, false, 8),
   (.ixLongForm .ldHu d a j, k, 2, false, 8), (.ixLongForm .ldWu d a j, k, 4, false, 8),
   (.ldAcq d a sc 0, 0, 1, false, 4), (.ldAcq d a sc 1, 0, 2, false, 4), (.ldAcq d a sc 2, 0, 4, false, 4),
   (.ldAcq d a sc 3, 0, 8, false, 4)]

/-- The loads of a pair. -/
def pairForms (d a : Reg) (i : BitVec 13) (j : BitVec 32) (sc : BitVec 3) : List (Instr × Word × Word) :=
  [(.ldQ d a i, i.signExtend 64, 4), (.ixLongForm .ldQ d a j, j.signExtend 64, 8), (.ldAcq d a sc 4, 0, 4)]

/-- The stores: the instruction, the immediate, the bytes, the length. -/
def storeForms (d a : Reg) (i : BitVec 13) (j : BitVec 32) : List (Instr × Word × Nat × Word) :=
  let m := i.signExtend 64
  let k := j.signExtend 64
  [(.stB d a i, m, 1, 4), (.stH d a i, m, 2, 4), (.stW d a i, m, 4, 4), (.stD d a i, m, 8, 4), (.stQ d a i, m, 16, 4),
   (.ixLongForm .stB d a j, k, 1, 8), (.ixLongForm .stH d a j, k, 2, 8), (.ixLongForm .stW d a j, k, 4, 8),
   (.ixLongForm .stD d a j, k, 8, 8), (.ixLongForm .stQ d a j, k, 16, 8),
   (.stRel d a 0 0, 0, 1, 4), (.stRel d a 0 1, 0, 2, 4), (.stRel d a 0 2, 0, 4, 4), (.stRel d a 0 3, 0, 8, 4),
   (.stRel d a 0 4, 0, 16, 4)]

/-- What an access leaves beside what it is for. -/
def AccessFrame (len : Word) (s u t : State) : Prop :=
  t.me.pc = s.me.pc + len ∧ t.me.retired = s.me.retired + 1 ∧ t.me.nflags = s.me.nflags ∧ t.me.nmode = s.me.nmode ∧
  t.me.vregs = s.me.vregs ∧ t.me.masks = s.me.masks ∧ t.me.cond = s.me.cond ∧ t.queues = s.queues ∧
  (∀ c, c ≠ s.cur → t.core c = u.core c) ∧ SameMem u t

end Sys2Proof.Claim

open Sys2Proof.Claim in
/-- The address checks of an instruction that reaches only its own package (01 R14–R16, 04 R90, 08 R161): a space that is no
space, a device register at role level, an offset bit that no field names, another package, the reserved top of chip SRAM
or the frame area at role level is ACCESS with the address as detail; an HBM address is virtual; every other names its
place in full form. -/
def Sys2Proof.Claim.AddressChecks : Prop :=
  ∀ (s : State) (addr : Word),
    let space := (addr.extractLsb' 48 4).toNat
    let off := (addr.extractLsb' 0 48).toNat
    let f := fullForm s.cur space off
    let svc := s.coreSvc s.cur
    let bad := space = 4 ∨ 9 ≤ space ∨ (space = 5 ∧ svc = false) ∨
      (addr.extractLsb' 52 12 ≠ 0xFFF ∧ addr.extractLsb' 52 12 ≠ s.pkg) ∨
      (f.1 = 1 ∧ off / 2 ^ 27 % 2 ^ 20 ≠ 0) ∨ (space = 2 ∧ off / 2 ^ 22 % 2 ^ 21 ≠ 0) ∨ (space = 3 ∧ off / 2 ^ 14 % 2 ^ 21 ≠ 0) ∨
      (space = 6 ∧ 2 ^ 14 ≤ off) ∨ (space = 7 ∧ 2 ^ 22 ≤ off) ∨ (space = 8 ∧ 2 ^ 27 ≤ off) ∨
      (f.1 = 1 ∧ svc = false ∧ 0x07C00000 ≤ off % 2 ^ 27) ∨
      (f.1 = 3 ∧ svc = false ∧ 0x4000 - 256 * ((s.core (placeCore (3 * 2 ^ 48 + f.2))).frames + 2) ≤ off % 2 ^ 14)
    (bad → checkAddress addr s = .error (.trap cACCESS addr)) ∧
    (¬ bad → checkAddress addr s = .ok (if space = 0 then .virt off else .place (f.1 * 2 ^ 48 + f.2), s))

open Sys2Proof.Claim in
/-- The loads (R166; R198 for LD.ACQ; 02 R33 under IX) of an address that passes its checks, in program order and at a quiet
place, complete: the bytes seen there go to `s[d]`, extended as the load says, or as a pair to `s[d]` and `s[d + 1]`; nothing else
changes beyond what the translation did and the value record. -/
def Obligations.LoadsComplete : Prop :=
  ∀ (s u : State) (d a : Reg) (i : BitVec 13) (j : BitVec 32) (sc : BitVec 3) (l : Loc) (pa : Nat), Quiet u pa →
    (∀ f ∈ loadForms d a i j sc, Reaches s .read (s.me.reg a + f.2.1) f.2.2.1 l pa u → InOrder u l pa f.2.2.1 →
      ∃ t, exec f.1 s = .next t ∧ (d ≠ 0 → t.me.reg d = extended f.2.2.2.1 f.2.2.1 (seen u l pa f.2.2.1)) ∧
        (∀ r : Reg, r ≠ d → t.me.reg r = s.me.reg r) ∧ AccessFrame f.2.2.2.2 s u t ∧ t.me.stbuf = u.me.stbuf) ∧
    (∀ f ∈ pairForms d a i j sc, d.toNat < 31 → Reaches s .read (s.me.reg a + f.2.1) 16 l pa u → InOrder u l pa 16 →
      ∃ t, exec f.1 s = .next t ∧ (d ≠ 0 → t.me.reg d = (seen u l pa 16).extractLsb' 0 64) ∧
        t.me.reg (d + 1) = (seen u l pa 16).extractLsb' 64 64 ∧ (∀ r : Reg, r ≠ d → r ≠ d + 1 → t.me.reg r = s.me.reg r) ∧
        AccessFrame f.2.2 s u t ∧ t.me.stbuf = u.me.stbuf)

open Sys2Proof.Claim in
/-- The stores (R166, R167; ST.REL at scope `.CORE`, which waits for nothing, R198) of an address that passes its checks, in
program order and with room in the buffer, leave one entry: the low bytes of `s[d]`, or of the pair, for the bytes from the place the address
translates to; every byte of memory is as the translation left it, and STORE_APPLY of the entry is pending. With the
buffer's 8 entries in use the store waits and changes nothing (R167). -/
def Sys2Proof.Claim.StoresBuffered : Prop :=
  ∀ (s u : State) (d a : Reg) (i : BitVec 13) (j : BitVec 32) (l : Loc) (pa : Nat),
    ∀ f ∈ storeForms d a i j, Reaches s .write (s.me.reg a + f.2.1) f.2.2.1 l pa u → InOrder u l pa f.2.2.1 →
      (u.me.stbuf.length < 8 → ∃ t e, exec f.1 s = .next t ∧ t.me.stbuf = u.me.stbuf ++ [e] ∧ e.id = u.nextId ∧
        e.dom = u.coreDom u.cur ∧ e.key = l.key ∧ e.pa = pa ∧ e.n = f.2.2.1 ∧
        e.value = ((s.me.reg (d + 1) ++ s.me.reg d : BitVec 128) &&& BitVec.ofNat 128 (2 ^ (8 * f.2.2.1) - 1)) ∧
        e.bits = BitVec.ofNat 128 (2 ^ (8 * f.2.2.1) - 1) ∧ (u.now, Instr.storeApply s.cur e.id) ∈ t.happenings ∧
        (∀ r : Reg, t.me.reg r = s.me.reg r) ∧ AccessFrame f.2.2.2 s u t) ∧
      (8 ≤ u.me.stbuf.length → exec f.1 s = .next s)

open Sys2Proof.Claim in
/-- Loads and stores that fail their checks (R166): a failing address check before anything else, then ALIGN with the
address, then what the translation raises; nothing is loaded or stored. -/
def Sys2Proof.Claim.AccessFaults : Prop :=
  ∀ (s : State) (d a : Reg) (i : BitVec 13) (j : BitVec 32) (sc : BitVec 3) (l : Loc),
    ∀ f ∈ (loadForms d a i j sc).map (fun f => (f.1, f.2.1, f.2.2.1, Kind.read)) ++
        (storeForms d a i j).map (fun f => (f.1, f.2.1, f.2.2.1, Kind.write)) ++
        (pairForms d a i j sc).map (fun f => (f.1, f.2.1, 16, Kind.read)),
      let addr := s.me.reg a + f.2.1
      (checkAddress addr s = .error (.trap cACCESS addr) → exec f.1 s = .next (s.takeFault s.cur cACCESS addr)) ∧
      (checkAddress addr s = .ok (l, s) → addr.toNat % f.2.2.1 ≠ 0 → exec f.1 s = .next (s.takeFault s.cur cALIGN addr)) ∧
      (∀ p, checkAddress addr s = .ok (l, s) → addr.toNat % f.2.2.1 = 0 → translate l f.2.2.2 addr s = .error (.page p) →
        exec f.1 s = .next (s.pageFault s.cur p))

/-- What an access is checked for, and what a check that fails does (01 R14–R16; 08 R161, R166). -/
def Obligations.AccessChecks : Prop := Claim.AddressChecks ∧ Claim.AccessFaults

/-- Forwarding (09 R191): each bit that a core reads is that of the latest entry of its store buffer that writes the bit, of
the same domain or at a physical place, and memory's when there is none. -/
def Sys2Proof.Claim.BufferForwarding : Prop :=
  ∀ (x : Core) (dom : BitVec 12) (key n : Nat) (v : BitVec 128) (k : Nat), n ≤ 16 → k < 8 * n →
    (∀ e ∈ x.stbuf, e.n ≤ 16 ∧ ∀ b < 128, e.bits.getLsbD b = true → b < 8 * e.n) →
    let writes := fun (e : StEntry) => (2 ^ 48 ≤ key ∨ e.dom = dom) ∧ 8 * e.key ≤ 8 * key + k ∧
      e.bits.getLsbD (8 * key + k - 8 * e.key) = true
    ((∀ e ∈ x.stbuf, ¬ writes e) → (x.overlay dom key n v).getLsbD k = v.getLsbD k) ∧
    (∀ l e r, x.stbuf = l ++ e :: r → writes e → (∀ y ∈ r, ¬ writes y) →
      (x.overlay dom key n v).getLsbD k = e.value.getLsbD (8 * key + k - 8 * e.key))

open Sys2Proof.Claim in
/-- STORE_APPLY (R167) of the only entry of a buffer, for whole bytes at a quiet place that is no frame area and where no
reduction cell is active and no watch stands, no read of the core being on its way (09 R193) and the place having no mirror
(01 R16): the bytes are the entry's value, every other byte of memory is as before, and
the entry is gone. -/
def Sys2Proof.Claim.StoreApplied : Prop :=
  ∀ (s : State) (c : CoreId) (e : StEntry), (s.core c).stbuf = [e] → e.n ≤ 16 → e.bits = BitVec.allOnes 128 >>> (128 - 8 * e.n) →
    Quiet s e.pa → s.inFrameArea e.pa = false → mirrorOf e.pa = none → (s.core c).outst = [] → s.redCells = [] → (∀ k, (s.core k).arms = []) → Memory.wf s.mem →
    ∃ t, exec (.storeApply c e.id) s = .next t ∧ (t.core c).stbuf = [] ∧
      (∀ i < e.n, Memory.get t.mem (e.pa + i) = e.value.extractLsb' (8 * i) 8) ∧
      (∀ a, a < e.pa ∨ e.pa + e.n ≤ a → Memory.get t.mem a = Memory.get s.mem a) ∧
      (∀ k, k ≠ c → t.core k = s.core k) ∧ (∀ r : Reg, (t.core c).reg r = (s.core c).reg r) ∧ t.queues = s.queues

/-- A store: into the buffer, seen from there, and applied (08 R166, R167; 09 R191). -/
def Obligations.Stores : Prop := Claim.StoresBuffered ∧ Claim.BufferForwarding ∧ Claim.StoreApplied

open Sys2Proof.Claim in
/-- Bit-granular access (R168, R169). The field of w bits at bit offset `s[b]` from the base `s[a]` lies in one aligned
doubleword, or it is ALIGN. BLD and BLDS read it, zero- or sign-extended; BST buffers it as one masked write, in a scratchpad
as one for each word it touches; BLDP and BSTP then add w to `s[b]`. -/
def Obligations.BitAccess : Prop :=
  ∀ (s u : State) (d a b w : Reg) (l : Loc) (pa : Nat),
    let base := s.me.reg a
    let off := s.me.reg b
    let byte := base + off / 8
    let dw := byte / 8 * 8
    let lo := byte.toNat % 8 * 8 + off.toNat % 8
    let n := w.toNat + 1
    let field := fun (v : BitVec 128) => v.toNat / 2 ^ lo % 2 ^ n
    (64 < lo + n → ∀ i ∈ [Instr.bld d a b w, .blds d a b w, .bst d a b w, .bldp d a b w, .bstp d a b w],
      exec i s = .next (s.takeFault s.cur cALIGN byte)) ∧
    (lo + n ≤ 64 → Quiet u pa → Reaches s .read dw 8 l pa u → InOrder u l pa 8 →
      (∃ t, exec (.bld d a b w) s = .next t ∧ (d ≠ 0 → t.me.reg d = BitVec.ofNat 64 (field (seen u l pa 8))) ∧
        (∀ r : Reg, r ≠ d → t.me.reg r = s.me.reg r) ∧ AccessFrame 4 s u t) ∧
      (∃ t, exec (.blds d a b w) s = .next t ∧
        (d ≠ 0 → t.me.reg d = BitVec.ofInt 64 (sext n (field (seen u l pa 8)))) ∧
        (∀ r : Reg, r ≠ d → t.me.reg r = s.me.reg r) ∧ AccessFrame 4 s u t) ∧
      (b ≠ d → ∃ t, exec (.bldp d a b w) s = .next t ∧ (d ≠ 0 → t.me.reg d = BitVec.ofNat 64 (field (seen u l pa 8))) ∧
        (b ≠ 0 → t.me.reg b = off + BitVec.ofNat 64 n) ∧ (∀ r : Reg, r ≠ d → r ≠ b → t.me.reg r = s.me.reg r) ∧ AccessFrame 4 s u t)) ∧
    (lo + n ≤ 64 → Reaches s .write dw 8 l pa u → u.me.stbuf.length < 7 → InOrder u l pa 8 → InOrder u l pa 4 →
      InOrder u (fourOn l) (pa + 4) 4 →
      ∀ i ∈ [Instr.bst d a b w, .bstp d a b w], ∃ t new, exec i s = .next t ∧ t.me.stbuf = u.me.stbuf ++ new ∧
        (∀ r : Reg, t.me.reg r = if i = .bstp d a b w ∧ r = b ∧ r ≠ 0 then off + BitVec.ofNat 64 n else s.me.reg r) ∧
        AccessFrame 4 s u t ∧ (∀ e ∈ new, e.dom = u.coreDom u.cur) ∧
        (if pa / 2 ^ 48 = 2 ∧ lo < 32 ∧ 32 < lo + n then
          new.map (fun e => (e.pa, e.n, e.value, e.bits)) =
            [(pa, 4, BitVec.ofNat 128 ((s.me.reg d).toNat % 2 ^ (32 - lo) * 2 ^ lo), BitVec.ofNat 128 (2 ^ 32 - 2 ^ lo)),
             (pa + 4, 4, BitVec.ofNat 128 ((s.me.reg d).toNat % 2 ^ n / 2 ^ (32 - lo)), BitVec.ofNat 128 (2 ^ (lo + n - 32) - 1))]
        else new.map (fun e => (e.pa, e.n, e.value, e.bits)) =
            [(pa, 8, BitVec.ofNat 128 ((s.me.reg d).toNat % 2 ^ n * 2 ^ lo), BitVec.ofNat 128 ((2 ^ n - 1) * 2 ^ lo))]))

/-! ## Translation, paging and the waits of 960 cycles (08 R162, R170–R186; 04 R92; 09 R200, R204; 15 R324) -/

namespace Sys2Proof.Claim

/-- A table entry as its eight bytes stand in memory, lowest first. -/
def entryAt (s : State) (pa : Nat) : Word := BitVec.ofNat 64 (natOfBytes ((List.range 8).map (fun i => Memory.get s.mem (pa + i))))

/-- The frame or table that an entry names. -/
def frameIn (e : Word) : Nat := (e.extractLsb' 12 28).toNat * 4096

/-- The bits that must be zero: of a level-1 pointer, a level-2 pointer, a level-2 leaf, a level-3 leaf (Table 8.6). -/
def zero1 : Word := 0x000FFF000000FFFC
def zero2 : Word := 0x000FFF0000000FFC
def zeroLarge : Word := 0x000FFF0001FFFE00
def zero3 : Word := 0x000FFF000000FE00

/-- R173 up to the permission checks. -/
def walkOf (s : State) (root : Word) (va : Nat) : Walked :=
  let e1 := entryAt s ((root.extractLsb' 13 27).toNat * 8192 + 8 * (va / 2 ^ 38 % 1024))
  let a2 := frameIn e1 + 8 * (va / 2 ^ 25 % 8192)
  let e2 := entryAt s a2
  let a3 := frameIn e2 + 8 * (va / 2 ^ 16 % 512)
  let e3 := entryAt s a3
  let v := fun (e : Word) => e.getLsbD 0
  let leaf := fun (e : Word) => e.getLsbD 1
  if v root = false then .stopped .badRoot 0
  else if v e1 = false then .stopped .absent 1
  else if leaf e1 = true ∨ e1 &&& zero1 ≠ 0 then .stopped .badEntry 1
  else if v e2 = false then .stopped .absent 2
  else if e2 &&& (if leaf e2 then zeroLarge else zero2) ≠ 0 then .stopped .badEntry 2
  else if leaf e2 = true then .leaf e2 2 a2
  else if v e3 = false then .stopped .absent 3
  else if leaf e3 = false ∨ e3 &&& zero3 ≠ 0 then .stopped .badEntry 3
  else .leaf e3 3 a3

/-- Does a leaf permit an access of the kind: K for a load, W for a store, X for a fetch? -/
def permits (e : Word) : Kind → Bool
  | .read => e.getLsbD 2
  | .write => e.getLsbD 3
  | .fetch => e.getLsbD 4

/-- The address a leaf of a level gives. -/
def pageAddr (e : Word) (lvl va : Nat) : Nat :=
  if lvl = 2 then frameIn e / 2 ^ 25 * 2 ^ 25 + va % 2 ^ 25 else frameIn e / 2 ^ 16 * 2 ^ 16 + va % 2 ^ 16

end Sys2Proof.Claim

open Sys2Proof.Claim in
/-- Translation (R170–R176) of a virtual address by a core whose TLBs hold nothing for it, with nothing that stands in the way
of the table reads: the walk reads the tables of Table 8.6 level by level; what it meets is a page fault with its reason and
level, or a denied permission is ACCESS (for a store to a COW page a page fault); otherwise A, and D for a store, is set in
the leaf as it stands in memory, no other byte changes, and the address is the frame's with the page offset. A TLB entry of
the current generation that permits the access gives the same without a walk, but for a store when it shows D = 0. -/
def Sys2Proof.Claim.Translation : Prop :=
  ∀ (s : State) (va : Nat) (kind : Kind) (addr : Word), va < 2 ^ 48 → Quiet s 0 → s.redCells = [] → (∀ c, (s.core c).arms = []) →
    Memory.wf s.mem →
    let dom := s.coreDom s.cur
    let gen := s.gens.get 0 dom.toNat
    let fault := fun (why : PageWhy) (lvl : Nat) => Stop.page { va := addr, dom := dom, why := why, level := lvl, kind := kind }
    let l2 := s.l2tlb.get [] (s.cur / 256)
    ((∀ e ∈ s.me.tlb kind ++ l2, e.hits dom va gen = false) →
      match walkOf s (s.devGet (0x20000 + dom.toNat)) va with
      | .stopped why lvl => translate (.virt va) kind addr s = .error (fault why lvl)
      | .leaf e lvl ea =>
        (permits e kind = false → translate (.virt va) kind addr s =
          .error (if kind = .write ∧ e.getLsbD 8 = true then fault .cowStore lvl else .trap cACCESS addr)) ∧
        (permits e kind = true → ∃ u, translate (.virt va) kind addr s = .ok (pageAddr e lvl va, u) ∧
          entryAt u ea = e ||| (if kind = .write then 0xC0 else 0x40) ∧
          (∀ a, a < ea ∨ ea + 8 ≤ a → Memory.get u.mem a = Memory.get s.mem a) ∧
          (∃ t ∈ u.me.tlb kind, t.hits dom va gen = true ∧ t.leaf = e) ∧ u.cur = s.cur ∧ u.me.regs = s.me.regs)) ∧
    (∀ e, s.me.tlb kind = [e] → e.hits dom va gen = true → permits e.leaf kind = true → (kind = .write → e.leaf.getLsbD 7 = true) →
      ∃ u, translate (.virt va) kind addr s = .ok (pageAddr e.leaf (if e.large then 2 else 3) va, u) ∧ SameMem s u ∧ u.cur = s.cur ∧
        u.me.regs = s.me.regs) ∧
    (∀ p, translate (.place p) kind addr s = .ok (p, s))

namespace Sys2Proof.Claim

/-- The running instance of a core parks: in the lowest free parking frame, with the wait, its pc at the instruction, its
registers and lanes kept, the core idle. -/
def Parks (s : State) (c : CoreId) (w : Wait) (t : State) : Prop :=
  (t.core c).cond = .idle ∧ ∃ h f, (t.core c).held = (s.core c).held ++ [h] ∧ h.st = .parked w ∧ h.frame = some f ∧
    f < (s.core c).frames ∧ (∀ y ∈ (s.core c).held, y.frame ≠ some f) ∧ h.inst.id = (s.core c).inst.id ∧ h.pc = (s.core c).pc ∧
    h.nflags = (s.core c).nflags ∧ h.vregs = (s.core c).vregs ∧ h.blocks = (s.core c).blocks ∧
    h.inst.parks.toNat = min 255 ((s.core c).inst.parks.toNat + 1)

/-- There is room to park: a free parking frame and a run-queue entry. -/
def Room (x : Core) : Prop := x.held.length < 64 ∧ ∃ f < x.frames, ∀ y ∈ x.held, y.frame ≠ some f

/-- The wait of a parked instance of the run queue ends: it is ready from now, nothing else of the core changes. -/
def Wakes (s : State) (c : CoreId) (inst : Nat) (t : State) : Prop :=
  t = s.setCore c { s.core c with held := (s.core c).held.map (fun h =>
    if h.inst.id = inst then { h with st := .ready, inst := { h.inst with readySince := s.now } } else h) }

/-- The ten atomics of Table 9.8, in the order of their functions. -/
def amoForms (d a b : Reg) (sc : BitVec 3) (p : BitVec 2) (w : BitVec 1) : List Instr :=
  [.amoAdd d a b sc p w, .amoAnd d a b sc p w, .amoOr d a b sc p w, .amoXor d a b sc p w, .amoMin d a b sc p w,
   .amoMax d a b sc p w, .amoMinu d a b sc p w, .amoMaxu d a b sc p w, .amoSwap d a b sc p w, .amoCas d a b sc p w]

/-- One instance of the run queue, and only it, has the number, and it is parked with the wait. -/
def Waiting (s : State) (c : CoreId) (inst : Nat) (w : Wait) : Prop :=
  (s.core c).inst.id ≠ inst ∧ (∃ h ∈ (s.core c).held, h.inst.id = inst) ∧ ∀ h ∈ (s.core c).held, h.inst.id = inst → h.st = .parked w

end Sys2Proof.Claim

open Sys2Proof.Claim in
/-- A page fault (R173, R176, R177; 04 R92) parks the instance with the instruction to be executed again, and posts the item of
Table 8.10 to the pager's queue (entry 502 of cluster 0, 20 R412), here with room on-chip, no older request of the core kept
and no storage error of the entry or the queue's storage armed. -/
def Sys2Proof.Claim.PageFaultParks : Prop :=
  ∀ (s : State) (c : CoreId) (p : PageFault), (s.core c).cond = .running → Room (s.core c) → c < 8192 →
    (∀ h ∈ (s.core c).held, h.inst.id ≠ (s.core c).inst.id) → (s.core c).pagerReqs = [] → p.bad = none →
    (s.dev.get 0 (injReg 3 0)).getLsbD 63 = false →
    let q := s.queue 502
    q.st = .active → q.spilling = false → q.onchip < q.cap → q.consumers = [] → 2 ≤ q.g → q.g ≤ 8 → p.level < 4 →
    Parks s c .pager (s.pageFault c p) ∧
    ∃ i f, ((s.pageFault c p).queue 502).items = q.items ++ [i] ∧ i.item.tag = 0 ∧
      (∃ h ∈ ((s.pageFault c p).core c).held, h.inst.id = (s.core c).inst.id ∧ h.frame = some f) ∧
      i.item.data.extractLsb' 0 64 = p.va ∧ i.item.data.extractLsb' 108 3 = p.kind.code ∧
      i.item.data.extractLsb' 111 3 = (match p.why with | .absent => 0#3 | .badEntry => 1#3 | .badRoot => 2#3 | .cowStore => 3#3) ∧
      (i.item.data.extractLsb' 114 2).toNat = p.level ∧ i.item.data.extractLsb' 116 12 = p.dom ∧
      (i.item.data.extractLsb' 135 8).toNat = c % 256 ∧ (i.item.data.extractLsb' 143 4).toNat = c / 256 % 16 ∧
      (i.item.data.extractLsb' 147 1).toNat = c / 4096 ∧ i.item.data.extractLsb' 148 12 = s.pkg ∧
      (i.item.data.extractLsb' 164 4).toNat = f % 16 ∧ i.item.data.extractLsb' 192 64 = (s.core c).pc

open Sys2Proof.Claim in
/-- The waits that hardware ends. When its 960 cycles are over a far load (R162), a walk (R174), an ordering wait (09 R200) or a
wait for a slot (15 R324) of the running instance parks it with that wait, its instruction to be executed again; an atomic's
result (09 R204) is held with it, past the instruction. When the data, the walk, the order or the slot has come, the instance
is ready; an order that is not over goes on waiting. A kept pager request (R177) is pushed again while its instance waits for the pager, and is gone otherwise. -/
def Sys2Proof.Claim.HardwareWaits : Prop :=
  ∀ (s : State) (c : CoreId) (inst : Nat), Room (s.core c) → (s.core c).cond = .running →
    (s.farLoad c = true → ∃ t, exec (.farLoadTimeout c) s = .next t ∧ Parks s c (.hw .load) t) ∧
    (∀ va k, s.missing c = some (va, k) → ∃ t, exec (.translationTimeout c) s = .next t ∧
      Parks s c (.hw (.walk (s.coreDom c) (BitVec.ofNat 48 va) (k.code.setWidth 2))) t) ∧
    (∀ w, s.orderWaits c = some w → ∃ t, exec (.orderWaitTimeout c) s = .next t ∧ Parks s c (.hw (.order w.1 w.2)) t) ∧
    (s.slotWaits c = true → ∃ t, exec (.issueWaitTimeout c) s = .next t ∧ Parks s c (.hw .slot) t) ∧
    (Waiting s c inst (.hw .load) → ∃ t, exec (.farLoadReturn c inst) s = .next t ∧ Wakes s c inst t) ∧
    (∀ dom va k kind, Waiting s c inst (.hw (.walk dom va k)) → k = kind.code.setWidth 2 →
      (∀ why lvl, s.walk dom va.toNat = .stopped why lvl → ∃ t, exec (.walkComplete c inst) s = .next t ∧ Wakes s c inst t) ∧
      (∀ pa u, s.walkFor c dom va.toNat kind 0 = .ok (pa, u) → ∃ t, exec (.walkComplete c inst) s = .next t ∧ Wakes u c inst t)) ∧
    (∀ d a b sc p w x t, ∀ i ∈ amoForms d a b sc p w, i.wf = true → s.waitingWord c = some x → encode i = [x] →
      exec i { s with cur := c } = .next t → (t.core c).pc = (s.core c).pc + 4 →
      ∃ u, exec (.atomicResultTimeout c) s = .next u ∧ (u.core c).cond = .idle ∧
        (∃ h ∈ (u.core c).held, h.inst.id = (s.core c).inst.id ∧ h.st = .parked (.atomic d ((t.core c).reg d)) ∧
          h.pc = (s.core c).pc + 4) ∧
        (∀ a, a / 2 ^ 48 ≠ 3 → Memory.get u.mem a = Memory.get t.mem a)) ∧
    (∀ scope acq, Waiting s c inst (.hw (.order scope acq)) →
      ((s.core c).contribs = [] → (s.core c).outst = [] → (s.core c).stbuf = [] → s.migrations = [] →
        ∃ t, exec (.orderWaitEnd c inst) s = .next t ∧ Wakes s c inst t) ∧
      (s.pending c inst scope acq none = true → exec (.orderWaitEnd c inst) s = .next s)) ∧
    (∀ d v, Waiting s c inst (.atomic d v) → ∃ t, exec (.atomicResultReturn c inst) s = .next t ∧
      t = s.setCore c { s.core c with held := (s.core c).held.map (fun h => if h.inst.id = inst then
        { h with st := .ready, inst := { h.inst with result := some (d, v), readySince := s.now } } else h) }) ∧
    (∀ item, c < 8192 → (s.core c).pagerReqs = [(inst, item)] → inst ≠ 0 → (∀ h ∈ (s.core c).held, h.inst.id ≠ inst) → (s.core c).inst.id ≠ inst →
      exec (.pagerRequestRetry c inst) s = .next (s.updCore c (fun x => { x with pagerReqs := [] }))) ∧
    (∀ item u, c < 8192 → (s.core c).pagerReqs = [(inst, item)] → Waiting s c inst .pager →
      s.accept 502 { tag := 0, data := item.setWidth 1024 } 0 true = .ok u →
      exec (.pagerRequestRetry c inst) s = .next (u.updCore c (fun x => { x with pagerReqs := [] })))

/-- What parks an instance, and what ends its wait (04 R92; 08 R162, R174, R176, R177). -/
def Obligations.Waits : Prop := Claim.PageFaultParks ∧ Claim.HardwareWaits

open Sys2Proof.Claim in
/-- Invalidation (R183, R184). At service level, with a queue's handle, fewer than 8 in progress and nothing of the core on its
way, TLBIV and TLBID of a domain with a valid root advance its generation by one and remove the entries of the page, or of
the domain, from every TLB of the package, and no others; the completion is pending. Of a domain without one they change no
TLB and no generation. The completion, once no buffer holds a store and no page is MOVING, pushes the item with the address, the domain and the
generation. An address of another space or package is ACCESS. -/
def Obligations.Invalidation : Prop :=
  ∀ (s : State) (d a b : Reg) (id : BitVec 32) (n : Nat) (x : Inval),
    let dom : BitVec 12 := (s.me.reg b).setWidth 12
    let addr := s.me.reg a
    let va := (addr.extractLsb' 0 48).toNat
    let dropped := fun (t : State) (f : TlbE → Bool) =>
      (∀ c, (t.core c).dtlb = (s.core c).dtlb.filter (fun e => !f e) ∧ (t.core c).itlb = (s.core c).itlb.filter (fun e => !f e)) ∧
      (∀ k, t.l2tlb.get [] k = (s.l2tlb.get [] k).filter (fun e => !f e)) ∧
      (∀ k, t.ingressTlb.get [] k = (s.ingressTlb.get [] k).filter (fun e => !f e))
    let pending := fun (t : State) (dom : BitVec 12) (addr : Word) => ∃ k g, t.invals = s.invals.set k g ∧ g.q = id ∧ g.dom = dom ∧
      g.addr = addr ∧ g.core = s.cur ∧ g.gen = t.gens.get 0 dom.toNat ∧ (s.now, Instr.tlbiComplete k) ∈ t.happenings
    let done := fun (t : State) => t.me.pc = s.me.pc + 4 ∧ t.me.regs = s.me.regs ∧ t.queues = s.queues ∧ SameMem s t
    (s.coreSvc s.cur = true → s.me.handle d = .queue id → s.invals.length < 8 → s.me.contribs = [] → s.me.stbuf = [] →
      s.me.outst = [] → s.migrations = [] → s.happenings = [] → (∀ c, (s.core c).arms = []) →
      (addr.extractLsb' 48 4 ≠ 0 → exec (.tlbiv d a b) s = .next (s.takeFault s.cur cACCESS addr)) ∧
      (addr.extractLsb' 48 4 = 0 → (addr.extractLsb' 52 12 = 0xFFF ∨ addr.extractLsb' 52 12 = s.pkg) →
        ∃ t, exec (.tlbiv d a b) s = .next t ∧ done t ∧ pending t dom addr ∧
        ((s.devGet (0x20000 + dom.toNat)).getLsbD 0 = true → t.gens.get 0 dom.toNat = s.gens.get 0 dom.toNat + 1 ∧
          dropped t (fun e => e.dom == dom && e.page == va / (if e.large then 2 ^ 25 else 2 ^ 16))) ∧
        ((s.devGet (0x20000 + dom.toNat)).getLsbD 0 = false → t.gens = s.gens ∧ dropped t (fun _ => false))) ∧
      (∃ t, exec (.tlbid d b) s = .next t ∧ done t ∧ pending t dom 0 ∧
        ((s.devGet (0x20000 + dom.toNat)).getLsbD 0 = true → t.gens.get 0 dom.toNat = s.gens.get 0 dom.toNat + 1 ∧
          dropped t (fun e => e.dom == dom)) ∧
        ((s.devGet (0x20000 + dom.toNat)).getLsbD 0 = false → t.gens = s.gens ∧ dropped t (fun _ => false)))) ∧
    (∀ u, Tbl.find? s.invals n = some x → (∀ c, (s.core c).stbuf = []) → s.redirects = [] → s.migrations = [] →
      s.qidPkg x.q = s.pkg → qkeyOf x.q ≠ 502 →
      ({ s with invals := s.invals.erase n } : State).accept (qkeyOf x.q)
        { tag := 0, data := (x.gen ++ 0#16 ++ 0#4 ++ x.dom ++ x.addr : BitVec 128).setWidth 1024 } (s.coreDom x.core) true = .ok u →
      exec (.tlbiComplete n) s = .next u)

open Sys2Proof.Claim in
/-- Probe and prefetch (R185, R186). TLBPRB of an address that a TLB entry translates gives the word of Table 8.14 from the leaf as
the walk found it, sets nothing and never parks; of an address that is not virtual, or fails its checks, it gives 0; with a
domain register at role level it is PRIV (the detail is free, log 40). PREF of an address that fails its checks only advances;
of one that translates for READ it does no more than the translation. -/
def Sys2Proof.Claim.ProbeAndPrefetch : Prop :=
  ∀ (s : State) (d a b : Reg) (p : BitVec 1) (e : TlbE) (va : Nat),
    let addr := s.me.reg a
    (s.resolve s.cur (s.coreSvc s.cur) true addr = some (.virt va) →
      (s.me.dtlb ++ s.l2tlb.get [] (s.cur / 256)).find? (fun e => e.hits (s.coreDom s.cur) va (s.gens.get 0 (s.coreDom s.cur).toNat)) = some e →
      ∃ v : Word, exec (.tlbprb d a 0) s = .next (s.after 4 (fun x => x.setReg d v)) ∧ v.getLsbD 63 = true ∧ v.getLsbD 62 = e.large ∧
        v.extractLsb' 60 2 = (if e.large then 2#2 else 3#2) ∧ v.getLsbD 59 = false ∧ v.getLsbD 58 = e.leaf.getLsbD 8 ∧
        v.extractLsb' 55 3 = e.leaf.extractLsb' 5 1 ++ e.leaf.extractLsb' 7 1 ++ e.leaf.extractLsb' 6 1 ∧
        v.extractLsb' 52 3 = e.leaf.extractLsb' 4 1 ++ e.leaf.extractLsb' 3 1 ++ e.leaf.extractLsb' 2 1 ∧
        v.extractLsb' 40 12 = 0 ∧ v.extractLsb' 12 28 = e.leaf.extractLsb' 12 28 ∧ v.extractLsb' 0 12 = 0) ∧
    ((∀ va, s.resolve s.cur (s.coreSvc s.cur) true addr ≠ some (.virt va)) →
      exec (.tlbprb d a 0) s = .next (s.after 4 (fun x => x.setReg d 0)) ∧ exec (.pref a p) s = .next (s.after 4 id)) ∧
    (b ≠ 0 → s.coreSvc s.cur = false → exec (.tlbprb d a b) s = .next (s.takeFault s.cur cPRIV (Config.freeWord s.tick))) ∧
    (∀ pa u, s.resolve s.cur (s.coreSvc s.cur) true addr = some (.virt va) →
      translate (.virt va) .read addr s = .ok (pa, u) → exec (.pref a p) s = .next (u.after 4 id))

/-- Translation, and the instructions that ask for it (08 R170–R176, R185, R186). -/
def Obligations.AddressTranslation : Prop := Claim.Translation ∧ Claim.ProbeAndPrefetch

/-- Migration (R181). A command for a page that a walk finds, with fewer than 256 redirects at its controller, those of
migrations in progress among them, makes the page MOVING, and its completion is pending; with 256 the command register shows
BUSY and nothing moves. On completion, with nothing queued, every
byte of the new frame is the old frame's, every byte outside the new frame is as before, the page is not MOVING, and a
redirect stands from the old frame to the new. -/
def Obligations.Migration : Prop :=
  ∀ (s : State) (x : MigCmd) (e : Word) (lvl at_ : Nat) (m : Migr),
    let size := if x.large then 2 ^ 25 else 2 ^ 16
    let old := BitVec.ofNat 40 ((e.extractLsb' 12 28).toNat * 4096 / size * size)
    let held := (s.redirects.filter (fun r => r.old.toNat / 2 ^ 36 = old.toNat / 2 ^ 36)).length +
      (s.migrations.filter (fun y => y.old.toNat / 2 ^ 36 = old.toNat / 2 ^ 36)).length
    (s.walk x.domain x.va.toNat = .leaf e lvl at_ → (x.large = true ↔ lvl = 2) → (∀ y ∈ s.migrations, y.old ≠ old) →
      (∀ c, (s.core c).arms = []) →
      (held < 256 → ∃ t, exec (.migrationCommand x) s = .next t ∧
        t.migrations = s.migrations ++ [{ cmd := x, old := old, queued := [] }] ∧
        (s.now, Instr.migrationComplete old) ∈ t.happenings ∧ SameMem s t) ∧
      (256 ≤ held → ∃ t, exec (.migrationCommand x) s = .next t ∧ t.migStat.get 0 (old.toNat / 2 ^ 36) = 1 ∧ t.migrations = s.migrations ∧ t.redirects = s.redirects ∧ SameMem s t)) ∧
    (s.migrations = [m] → m.queued = [] → Memory.wf s.mem → m.old.toNat / (if m.cmd.large then 2 ^ 25 else 2 ^ 16) ≠ m.cmd.frame.toNat / (if m.cmd.large then 2 ^ 25 else 2 ^ 16) →
      m.old.toNat % (if m.cmd.large then 2 ^ 25 else 2 ^ 16) = 0 → m.cmd.frame.toNat % (if m.cmd.large then 2 ^ 25 else 2 ^ 16) = 0 →
      ∃ t, exec (.migrationComplete m.old) s = .next t ∧ t.migrations = [] ∧
        t.redirects = s.redirects ++ [{ dom := m.cmd.domain, va := m.cmd.va, large := m.cmd.large, old := m.old, new := m.cmd.frame }] ∧
        (∀ k < (if m.cmd.large then 2 ^ 25 else 2 ^ 16),
          Memory.get t.mem (m.cmd.frame.toNat + k) = Memory.get s.mem (m.old.toNat + k)) ∧
        (∀ a, a < m.cmd.frame.toNat ∨ m.cmd.frame.toNat + (if m.cmd.large then 2 ^ 25 else 2 ^ 16) ≤ a →
          Memory.get t.mem a = Memory.get s.mem a))

/-! ## Queues (06) -/

namespace Sys2Proof.Claim

/-- An item cut, or filled with zeros, to G granules (R150). -/
def fitted (g : Nat) (i : Item) : Item := { i with data := (i.data.setWidth (128 * g)).setWidth 1024 }

/-- The consumers that receive a copy of an item (R126, R129): all of a multicast queue or for a CURTAIN; the one that the steer
field names; else the one after the consumer served last, in ascending role index with wrap-around. -/
def receivers (s : State) (x : Queue) (i : Item) : List CoreId :=
  if i.tag = 8 ∨ x.mcast then x.consumers
  else if x.steer then [x.consumers.getD ((i.data.extractLsb' 0 16).toNat % x.consumers.length) 0]
  else match x.served with
    | none => x.consumers.take 1
    | some k => match x.consumers.filter (fun c => k < (s.core c).index) with
      | [] => x.consumers.take 1
      | l => l.take 1

/-- Nothing that the running instance has issued is on its way: no contribution, no buffered or queued store, no request, no
pending happening. -/
def Idle (s : State) : Prop :=
  s.me.contribs = [] ∧ s.me.stbuf = [] ∧ s.migrations = [] ∧ (∀ o ∈ s.me.outst, o.inst ≠ s.me.inst.id) ∧ s.happenings = []

/-- No injection register of a cluster's queue storage is armed (22 R444). -/
def Unarmed (s : State) (k : Nat) : Prop := (s.dev.get 0 (injReg 3 k)).getLsbD 63 = false

/-- No recast of the core's role is under way, and none has closed an input of the core (20 R416). -/
def Settled (s : State) : Prop := (s.coreRole s.cur).recast = none ∧ s.me.closed = []

/-- Two copies of a queue are told apart by their slot and core. -/
def Distinct (x : Queue) : Prop := x.items.Pairwise (fun i j => ¬ (i.slot = j.slot ∧ i.core = j.core))

/-- The next available item of the running instance (R131): its oldest owned item; else, when no VALID row of the core binds the
queue, the oldest reserved to the core and owned by none; of a core that no recast concerns. -/
def next (s : State) (q : QKey) : Option Copy :=
  match (s.queue q).items.filter (fun i => i.owner = some s.me.inst.id) with
  | i :: _ => some i
  | [] => if s.binds s.cur q then none else ((s.queue q).items.filter (fun i => i.core = s.cur ∧ i.owner = none)).head?

/-- The queue of this package that a handle maps. -/
def Maps (s : State) (h : Reg) (q : QKey) : Prop := ∃ id, s.me.handle h = .queue id ∧ s.qidPkg id = s.pkg ∧ qkeyOf id = q

end Sys2Proof.Claim

open Sys2Proof.Claim in
/-- What a queue does with an item (R126–R129, R135, R139), for a queue that is no service's and has consumers, no error of its
storage being armed: FREE or FAILED,
QGONE; an item by id of another domain to a queue that is not open, ACCESS; room on-chip and not spilling, one copy for each
receiver in one slot; else, in an elastic queue with room in its caldera, the caldera's tail, and the queue spills; else
QFULL. No other queue, no core, no byte of memory changes. -/
def Sys2Proof.Claim.QueueAcceptance : Prop :=
  ∀ (s : State) (q : QKey) (i : Item) (dom : BitVec 12) (checked : Bool), (q < 500 ∨ 506 ≤ q) →
    let x := s.queue q
    let room := x.spilling = false ∧ x.onchip < x.cap
    let may := checked = true ∨ x.dom = dom ∨ x.openAll = true
    1 ≤ x.g → x.g ≤ 8 → x.consumers ≠ [] → Unarmed s (q / 512) →
    (x.st ≠ .active → s.accept q i dom checked = .error cQGONE) ∧
    (x.st = .active → ¬ may → s.accept q i dom checked = .error cACCESS) ∧
    (x.st = .active → may → room → ∃ t, s.accept q i dom checked = .ok t ∧
      (t.queue q).items = x.items ++ (receivers s x i).map (fun c => ({ slot := x.nextSlot, core := c, item := fitted x.g i, owner := none } : Copy)) ∧
      (t.queue q).nextSlot = x.nextSlot + 1 ∧ (t.queue q).spill = x.spill ∧ (t.queue q).st = .active ∧
      (∀ k, k ≠ q → t.queue k = s.queue k) ∧ t.cores = s.cores ∧ t.mem = s.mem ∧ t.happenings = s.happenings) ∧
    (x.st = .active → may → ¬ room → x.elastic = true → x.spill.length < x.calItems → ∃ t, s.accept q i dom checked = .ok t ∧
      (t.queue q).spill = x.spill ++ [fitted x.g i] ∧ (t.queue q).spilling = true ∧ (t.queue q).items = x.items ∧
      (∀ k, k ≠ q → t.queue k = s.queue k) ∧ t.cores = s.cores ∧ t.mem = s.mem) ∧
    (x.st = .active → may → ¬ room → x.elastic = false ∨ x.calItems ≤ x.spill.length → s.accept q i dom checked = .error cQFULL)

open Sys2Proof.Claim in
/-- The pops (R131, R146–R149) of a queue of this package, ACTIVE, whose copies are distinct, by a core that no recast concerns. With
a next item, QPOP gives its
first two doublewords and removes it; QPOP.M, once its whole range, here of one page, is translated, buffers its granules for memory, gives the
tag and the size and removes it; QDROP removes it and gives its tag; QTAG gives its tag alone. With none, QPOP and QPOP.M are
ACCESS with the handle; QTAG and QDROP give 16. QCOUNT gives the word of Table 6.9. -/
def Obligations.QueuePops : Prop :=
  ∀ (s : State) (d a b : Reg) (q : QKey) (i : Copy), Maps s a q → (s.queue q).st = .active → Distinct (s.queue q) → Settled s →
    let x := s.queue q
    let gone := fun (t : State) => (t.queue q).items = x.items.filter (fun y => ¬ (y.slot = i.slot ∧ y.core = i.core)) ∧
      (∀ k, k ≠ q → t.queue k = s.queue k) ∧ t.me.pc = s.me.pc + 4 ∧ SameMem s t
    (next s q = some i →
      (∃ t, exec (.qpop d a b) s = .next t ∧ gone t ∧
        ∀ r : Reg, t.me.reg r = if r = 0 then 0 else if r = b then i.item.data.extractLsb' 64 64
          else if r = d then i.item.data.extractLsb' 0 64 else s.me.reg r) ∧
      (∃ t, exec (.qdrop d a) s = .next t ∧ gone t ∧
        ∀ r : Reg, t.me.reg r = if r = 0 then 0 else if r = d then i.item.tag.setWidth 64 else s.me.reg r) ∧
      exec (.qtag d a) s = .next (s.after 4 (fun y => y.setReg d (i.item.tag.setWidth 64))) ∧
      ((s.me.reg b).toNat % 16 ≠ 0 → exec (.qpopM d a b) s = .next (s.takeFault s.cur cALIGN (s.me.reg b))) ∧
      (∀ ps u, (s.me.reg b).toNat % 16 = 0 → 1 ≤ x.g → x.g ≤ 8 → s.me.stbuf = [] → (s.me.reg b).toNat % 2 ^ 16 + 16 * x.g ≤ 2 ^ 16 →
        mapRange (s.me.reg b) (16 * x.g) .write s = .ok (ps, u) → (∀ p ∈ ps, u.mustWait p.loc p.pa p.n false = false) →
        ∃ t, exec (.qpopM d a b) s = .next t ∧ ps.length = x.g ∧
          t.me.stbuf.map (fun e => (e.pa, e.n, e.value)) = (List.range x.g).map (fun k =>
            ((ps.map (·.pa)).getD k 0, 16, i.item.data.extractLsb' (128 * k) 128)) ∧
          (t.queue q).items = x.items.filter (fun y => ¬ (y.slot = i.slot ∧ y.core = i.core)) ∧
          (∀ r : Reg, t.me.reg r = if r = 0 then 0 else if r = d then BitVec.ofNat 64 (i.item.tag.toNat + 16 * x.g) else s.me.reg r) ∧
          SameMem u t)) ∧
    (next s q = none →
      exec (.qpop d a b) s = .next (s.takeFault s.cur cACCESS (a.setWidth 64)) ∧
      exec (.qpopM d a b) s = .next (s.takeFault s.cur cACCESS (a.setWidth 64)) ∧
      exec (.qtag d a) s = .next (s.after 4 (fun y => y.setReg d 16)) ∧
      exec (.qdrop d a) s = .next (s.after 4 (fun y => y.setReg d 16))) ∧
    exec (.qcount d a) s = .next (s.after 4 (fun y => y.setReg d (BitVec.ofNat 64 ((if s.binds s.cur q then 65536 else 0) +
      256 * min 255 (x.items.filter (fun i => i.core = s.cur ∧ i.owner = none)).length +
      min 255 (x.items.filter (fun i => i.owner = some s.me.inst.id)).length))))

namespace Sys2Proof.Claim

/-- The pushes whose item is in registers: the instruction, how it names its queue, the item, and whether the tag may be pushed. -/
def pushForms (s : State) (d a b : Reg) (t : BitVec 4) : List (Instr × BitVec 1 × Item × Bool) :=
  let pair := fun (lo hi : Word) => (hi ++ lo : BitVec 128).setWidth 1024
  let ok := decide (t.toNat < 8 ∨ t.toNat = 9)
  [(.qpush d a b 0 t, 0, { tag := t, data := pair (s.me.reg a) (s.me.reg b) }, ok),
   (.qpush d a b 1 t, 1, { tag := t, data := pair (s.me.reg a) (s.me.reg b) }, ok),
   (.qmark d a 0, 0, { tag := 8, data := pair (s.me.reg a) 0 }, true),
   (.qmark d a 1, 1, { tag := 8, data := pair (s.me.reg a) 0 }, true)]

/-- How a push of an item to a queue id ends (R137, R138, R150; 15 R323, R324): `u` is the state after the reads of the
instruction, which began at `s`. Refused at issue in the core's own cluster, or taken there; in flight to another cluster of
the package within the flow window; in an outstanding slot to another package, within the window toward its queue (log 22). The
pager's queue takes no push (20 R412; the code is the model's choice, log 72). -/
def PushEnds (s u : State) (id : BitVec 32) (item : Item) (checked : Bool) (i : Instr) : Prop :=
  let q := qkeyOf id
  let near := q / 512 = s.cur / 256
  let rest := fun (t : State) => t.queues = u.queues ∧ t.me.pc = s.me.pc + 4 ∧ t.me.regs = s.me.regs ∧ SameMem u t
  (s.qidPkg id = s.pkg → near → q = 502 → exec i s = .next (s.takeFault s.cur cACCESS (id.setWidth 64))) ∧
  (s.qidPkg id = s.pkg → near → q ≠ 502 → ∀ v, u.accept q item (s.coreDom s.cur) checked = .ok v →
    exec i s = .next (v.after 4 (fun x => x))) ∧
  (s.qidPkg id = s.pkg → near → q ≠ 502 → ∀ code, u.accept q item (s.coreDom s.cur) checked = .error code →
    exec i s = .next (s.takeFault s.cur code (id.setWidth 64))) ∧
  (s.qidPkg id = s.pkg → ¬ near → u.me.flights.get 0 q < (u.queue q).window → ∃ t p, exec i s = .next t ∧
    t.me.flights.get 0 q = u.me.flights.get 0 q + 1 ∧ t.happenings = [(s.now, .pushArrival p)] ∧ p.qid = id ∧ p.item = item ∧
    p.domain = s.coreDom s.cur ∧ p.checked = checked ∧ p.srcPkg = s.pkg ∧ p.core = s.cur ∧ rest t) ∧
  (s.qidPkg id = s.pkg → ¬ near → (u.queue q).window ≤ u.me.flights.get 0 q → exec i s = .next s) ∧
  (s.qidPkg id ≠ s.pkg → windowFar id ≤ u.me.flights.get 0 (farFlight id) → exec i s = .next s) ∧
  (s.qidPkg id ≠ s.pkg → u.me.flights.get 0 (farFlight id) < windowFar id → u.me.outst = [] → ∃ t o, exec i s = .next t ∧ t.me.outst = [o] ∧ o.store = true ∧ o.qid = some id ∧
    o.inst = s.me.inst.id ∧ o.serial = u.nextId ∧ rest t) ∧
  (s.qidPkg id ≠ s.pkg → 64 ≤ u.me.outst.length → exec i s = .next s)

end Sys2Proof.Claim

open Sys2Proof.Claim in
/-- The pushes (R150, R151), nothing of the core being on its way: a tag that no program may push is TAGBAD with the tag; a handle
that maps nothing is QGONE, the fault handle ACCESS (22 R436); an id with a reserved bit QGONE with the id. Otherwise the item
is pushed to the queue that the handle, or with `.G` the register, names, under the domain check for `.G` alone (R128).
QPUSH.M takes its payload from memory, a read that fails pushing nothing. -/
def Sys2Proof.Claim.QueuePushes : Prop :=
  ∀ (s : State) (d a b : Reg) (t : BitVec 4), Idle s →
    (∀ f ∈ pushForms s d a b t,
      (f.2.2.2 = false → exec f.1 s = .next (s.takeFault s.cur cTAGBAD (t.setWidth 64))) ∧
      (f.2.2.2 = true → f.2.1 = 0 → s.me.handle d = .unmapped → exec f.1 s = .next (s.takeFault s.cur cQGONE 0)) ∧
      (f.2.2.2 = true → f.2.1 = 0 → s.me.handle d = .faultQueue → exec f.1 s = .next (s.takeFault s.cur cACCESS (Config.freeWord s.tick))) ∧
      (∀ id, f.2.2.2 = true → (if f.2.1 = 1 then id = (s.me.reg d).setWidth 32 else s.me.handle d = .queue id) →
        (id.extractLsb' 9 6 ≠ 0 → exec f.1 s = .next (s.takeFault s.cur cQGONE (id.setWidth 64))) ∧
        (id.extractLsb' 9 6 = 0 → PushEnds s s id f.2.2.1 (f.2.1 = 0) f.1))) ∧
    (∀ (g : BitVec 1) (id : BitVec 32) (n : Nat) (bs : List Byte) (u : State), (t.toNat < 8 ∨ t.toNat = 9) → id.extractLsb' 9 6 = 0 →
      (if g = 1 then id = (s.me.reg d).setWidth 32 ∧ n = (s.me.reg b).toNat % 8 + 1
        else s.me.handle d = .queue id ∧ s.qidPkg id = s.pkg ∧ n = (s.queue (qkeyOf id)).g) →
      ((s.me.reg a).toNat % 16 ≠ 0 → exec (.qpushM d a b g t) s = .next (s.takeFault s.cur cALIGN (s.me.reg a))) ∧
      ((s.me.reg a).toNat % 16 = 0 → loadRange (s.me.reg a) (16 * n) 16 s = .ok (bs, u) → Idle u →
        PushEnds s u id { tag := t, data := BitVec.ofNat 1024 (natOfBytes bs) } (g = 0) (.qpushM d a b g t)) ∧
      (∀ p, (s.me.reg a).toNat % 16 = 0 → loadRange (s.me.reg a) (16 * n) 16 s = .error (.page p) →
        exec (.qpushM d a b g t) s = .next (s.pageFault s.cur p)))

/-- Pushes, and what a queue accepts (06 R126–R129, R135, R137–R139, R150, R151). -/
def Obligations.QueueArrivals : Prop := Claim.QueueAcceptance ∧ Claim.QueuePushes

namespace Sys2Proof.Claim

/-- The status word of a queue, field by field (Table 6.10). -/
def StatWord (x : Queue) (v : Word) : Prop :=
  (v.extractLsb' 62 2).toNat = (match x.st with | .active => 0 | .failed => 1 | .free => 2) ∧
  (x.st ≠ .free → v.getLsbD 61 = x.elastic ∧ v.getLsbD 60 = x.refill.isSome ∧ v.getLsbD 59 = x.spilling ∧
    v.extractLsb' 56 3 = x.prio ∧ (v.extractLsb' 32 24).toNat = x.spill.length ∧ v.extractLsb' 25 7 = 0 ∧
    (v.extractLsb' 16 9).toNat = x.onchip ∧ v.extractLsb' 11 5 = 0 ∧ (v.extractLsb' 8 3).toNat + 1 = x.g ∧
    (v.extractLsb' 0 8).toNat + 1 = x.cap)

/-- A queue within the limits of Table 6.2. -/
def Limits (x : Queue) : Prop := 1 ≤ x.g ∧ x.g ≤ 8 ∧ 1 ≤ x.cap ∧ x.cap ≤ 256 ∧ x.onchip ≤ 256 ∧ x.spill.length < 2 ^ 24

end Sys2Proof.Claim

open Sys2Proof.Claim in
/-- The status reads and the life of a queue (R152–R154, R140; 22 R436). QHANDLE gives the id a handle maps, 0 for none or the fault
handle; QSTAT the word of Table 6.10. QCREATE, at service level, of a descriptor that it reads and that is valid creates the
queue ACTIVE at a FREE entry of the owning cluster, with its id; a bad one gives status 3 and creates nothing. QDESTROY gives 2
for an id that names no queue here, 1 and no change for a queue in use, 0 when it frees one; with FORCE 0, its effect pending. -/
def Sys2Proof.Claim.QueueLife : Prop :=
  ∀ (s : State) (d a : Reg) (id : BitVec 32) (q : QKey) (bs : List Byte),
    (s.me.handle a = .queue id → exec (.qhandle d a) s = .next (s.after 4 (fun x => x.setReg d (id.setWidth 64)))) ∧
    (s.me.handle a = .unmapped ∨ s.me.handle a = .faultQueue → exec (.qhandle d a) s = .next (s.after 4 (fun x => x.setReg d 0))) ∧
    (Maps s a q → Limits (s.queue q) → ∃ v, StatWord (s.queue q) v ∧ exec (.qstat d a) s = .next (s.after 4 (fun x => x.setReg d v))) ∧
    (∀ u, s.coreSvc s.cur = true → loadRange (s.me.reg a) 32 16 s = .ok (bs, u) →
      let e := u.fromDescriptor (BitVec.ofNat 256 (natOfBytes bs))
      (e.2.2 = false → exec (.qcreate d a) s = .next (u.after 4 (fun x => x.setReg d 0x8000000000000003))) ∧
      (∀ k v, e.2.2 = true → e.2.1.elastic = false → u.createQueue e.1 e.2.1 = .ok (k, v) →
        exec (.qcreate d a) s = .next (v.after 4 (fun x => x.setReg d ((s.qidOf k).setWidth 64))) ∧ (s.queue k).st = .free ∧
        k / 512 = e.1 ∧ v.queue k = { e.2.1 with st := .active, granule := (v.queue k).granule } ∧ (∀ j, j ≠ k → v.queue j = s.queue j))) ∧
    (s.coreSvc s.cur = true → (s.me.reg a).setWidth 32 = id → qkeyOf id = q →
      let none_ := s.qidPkg id ≠ s.pkg ∨ id.extractLsb' 9 6 ≠ 0 ∨ (s.queue q).st = .free
      let free := (s.queue q).st = .active ∧ (s.queue q).items = [] ∧ (s.queue q).spill = [] ∧ (s.queue q).refill = none ∧
        ∀ c ∈ s.cores, s.binds c.1 q = false
      (none_ → ∀ f, exec (.qdestroy d a f) s = .next (s.after 4 (fun x => x.setReg d 2))) ∧
      (¬ none_ → ¬ free → exec (.qdestroy d a 0) s = .next (s.after 4 (fun x => x.setReg d 1))) ∧
      (¬ none_ → free → ∃ t, exec (.qdestroy d a 0) s = .next t ∧ (d ≠ 0 → t.me.reg d = 0) ∧ (q < 16384 → (t.queue q).st = .free) ∧
        ∀ k, k ≠ q → t.queue k = s.queue k) ∧
      (¬ none_ → ∃ t, exec (.qdestroy d a 1) s = .next t ∧ (d ≠ 0 → t.me.reg d = 0) ∧
        t.happenings = s.happenings ++ [(s.now, .qdestroyEffect q true)] ∧ t.queues = s.queues))

open Sys2Proof.Claim in
/-- The queue hardware's own happenings. A push that arrives is accepted, or refused and reported to its core with the id, and its
credit returns (R137, R138). A credit that comes takes one from what is in flight. A due refill (R136) takes the min(8, spilled)
oldest; when it lands they stand on-chip in order, the caldera has the rest, and an empty caldera ends the spilling. A forced
destruction (R141) discards what no instance owns, leaves what one owns, and puts one POISON behind for each consumer core with
a binding row; so does the loss of a caldera (R142). A destruction without force frees the queue that nothing uses. -/
def Sys2Proof.Claim.QueueHardware : Prop :=
  ∀ (s : State) (q : QKey) (p : Push) (c : CoreId) (n : Nat), q < 16384 →
    let x := s.queue q
    (p.srcPkg = s.pkg → p.curtain = false → p.notice = false → s.happenings = [] → qkeyOf p.qid = q → p.core < 8192 → q ≠ 502 →
      (∀ u, s.accept q p.item p.domain p.checked = .ok u → exec (.pushArrival p) s = .next (u.post 0 (.flowCreditReturn p.core p.qid))) ∧
      (∀ code, s.accept q p.item p.domain p.checked = .error code → exec (.pushArrival p) s =
        .next ((s.post 0 (.flowCreditReturn p.core p.qid)).report p.core code (p.qid.setWidth 64) (p.qid.setWidth 64)))) ∧
    (∀ id, qkeyOf id = q → (s.core c).flights.get 0 q = n → ∃ t, exec (.flowCreditReturn c id) s = .next t ∧
      (t.core c).flights.get 0 q = n - 1 ∧ ∀ k, k ≠ q → (t.core c).flights.get 0 k = (s.core c).flights.get 0 k) ∧
    (s.queues = [(q, x)] → x.st = .active → x.spilling = true → x.onchip ≤ x.lowmark → x.spill ≠ [] → x.refill = none →
      ∃ t, exec (.refillStart q) s = .next t ∧ (t.queue q).refill = some (min 8 x.spill.length) ∧
        (t.queue q).items = x.items ∧ (t.queue q).spill = x.spill ∧ (s.now, Instr.refillLand q) ∈ t.happenings) ∧
    (x.refill = some n → x.consumers = [c] → x.mcast = false → x.steer = false → (∀ i ∈ x.spill, i.tag ≠ 8) → Unarmed s (q / 512) →
      ∃ t, exec (.refillLand q) s = .next t ∧
        (t.queue q).items.map (·.item) = x.items.map (·.item) ++ x.spill.take n ∧ (t.queue q).spill = x.spill.drop n ∧
        (t.queue q).refill = none ∧ ((t.queue q).spilling = if x.spill.length ≤ n then false else x.spilling) ∧
        ∀ i ∈ (t.queue q).items.drop x.items.length, i.core = c ∧ i.owner = none) ∧
    (x.st ≠ .free → x.consumers = [c] → s.binds c q = true →
      ∀ i ∈ [Instr.qdestroyEffect q true, .calderaLoss q], (i = .calderaLoss q → x.elastic = true) →
      ∃ t, exec i s = .next t ∧ (t.queue q).st = .failed ∧ (t.queue q).spill = [] ∧
        (t.queue q).items = x.items.filter (fun i => i.owner.isSome) ++
          [{ slot := x.nextSlot, core := c, item := { tag := 9, data := 0 }, owner := none }] ∧ SameMem s t) ∧
    (x.st = .active → x.items = [] → x.spill = [] → x.refill = none → (∀ c ∈ s.cores, s.binds c.1 q = false) →
      ∃ t, exec (.qdestroyEffect q false) s = .next t ∧ (t.queue q).st = .free ∧ ∀ k, k ≠ q → t.queue k = s.queue k)

/-- The life of a queue, and what its hardware does (06 R136–R142, R152–R154). -/
def Obligations.QueueLives : Prop := Claim.QueueLife ∧ Claim.QueueHardware

/-! ## Ordering, atomics and barriers (09) -/

namespace Sys2Proof.Claim

/-- Table 9.8: the new value of n bytes by the function's code, from the old value, the operand and the comparand. -/
def amoNew (n func old op cmp : Nat) : Nat :=
  let lt := fun (x y : Nat) => sext (8 * n) x < sext (8 * n) y
  match func with
  | 0 => (old + op) % 2 ^ (8 * n)
  | 1 => old &&& op
  | 2 => old ||| op
  | 3 => old ^^^ op
  | 4 => if lt old op then old else op
  | 5 => if lt old op then op else old
  | 6 => min old op
  | 7 => max old op
  | 8 => op
  | _ => if old = cmp then op else old

/-- The bytes of a place as a number. -/
def numAt (s : State) (p n : Nat) : Nat := natOfBytes ((List.range n).map (fun i => Memory.get s.mem (p + i)))

/-- Nothing watches or reduces at the places of the package, so that a write does no more than write. -/
def Plain (s : State) : Prop := s.redCells = [] ∧ (∀ c, (s.core c).arms = []) ∧ Memory.wf s.mem

/-- An atomic on `n` bytes is at its point (R203): its checks passed and its address translated for a store and a load, what it
orders performed, and nothing of its instance that goes before it on its way; `v` is the state then. -/
def AtPoint (s u v : State) (addr : Word) (n : Nat) (sc : BitVec 3) (p : BitVec 2) (l : Loc) (pa : Nat) : Prop :=
  addr.extractLsb' 48 4 ≠ 5 ∧ Reaches s .write addr n l pa u ∧ translate l .read addr u = .ok (pa, v) ∧
  (p.getLsbD 1 = true → waitPerformed sc.toNat v = .ok ((), v)) ∧
  (∀ o ∈ v.me.outst, o.read = true → o.inst ≠ v.me.inst.id) ∧ v.me.stbuf = [] ∧ v.mustWait l pa n true = false

/-- A write at a place does no more than change its bytes: nothing there moves, sleeps, is bad, watched, reduced or mirrored,
and it is no frame area. -/
def Writable (v : State) (pa : Nat) : Prop := Quiet v pa ∧ Plain v ∧ v.inFrameArea pa = false ∧ mirrorOf pa = none

/-- An access of an instance is on its way at a scope (R194, R197; 15 R335): from `.ENS` to `.PKG` a remote request to its own
package, at `.SYS` to any, that reads, for `.ACQ`, or writes; or, but for `.ACQ`, a contribution. -/
def OnItsWay (s : State) (scope : Nat) (acq : Bool) : Prop :=
  (∃ o ∈ s.me.outst, o.inst = s.me.inst.id ∧ (if acq then o.read else o.store) = true ∧
    (5 ≤ scope ∨ (o.qid = none ∧ (o.addr.extractLsb' 52 12 = 0xFFF ∨ o.addr.extractLsb' 52 12 = s.pkg)))) ∨
  (acq = false ∧ ∃ y ∈ s.me.contribs, y.inst = s.me.inst.id)

end Sys2Proof.Claim

open Sys2Proof.Claim in
/-- The atomics (R201–R203) on 4 and 8 bytes, at their point: the old value goes to `s[d]`, 4 bytes sign-extended; the bytes at the place become Table 9.8's new value, a
CAS that fails leaving them; every other byte, every other register and the flags stay. A device register is ACCESS, an
address that is no multiple of the size ALIGN. -/
def Sys2Proof.Claim.Atomics : Prop :=
  ∀ (s u v : State) (d a b : Reg) (sc : BitVec 3) (p : BitVec 2) (w : BitVec 1) (l : Loc) (pa func : Nat) (i : Instr),
    let n := if w = 1 then 8 else 4
    let addr := s.me.reg a
    (amoForms d a b sc p w)[func]? = some i →
    (checkAddress addr s = .ok (l, s) → addr.extractLsb' 48 4 = 5 → exec i s = .next (s.takeFault s.cur cACCESS addr)) ∧
    (checkAddress addr s = .ok (l, s) → addr.extractLsb' 48 4 ≠ 5 → addr.toNat % n ≠ 0 → exec i s = .next (s.takeFault s.cur cALIGN addr)) ∧
    (AtPoint s u v addr n sc p l pa → Writable v pa →
      let old := numAt v pa n
      ∃ t, exec i s = .next t ∧
        numAt t pa n = amoNew n func old ((s.me.reg b).toNat % 2 ^ (8 * n)) ((s.me.reg d).toNat % 2 ^ (8 * n)) ∧
        (∀ k, k < pa ∨ pa + n ≤ k → Memory.get t.mem k = Memory.get v.mem k) ∧
        (∀ r : Reg, t.me.reg r = if r = 0 then 0 else if r = d then BitVec.ofInt 64 (sext (8 * n) old) else s.me.reg r) ∧
        t.me.pc = s.me.pc + 4 ∧ t.me.nflags = s.me.nflags ∧ t.queues = s.queues)

open Sys2Proof.Claim in
/-- ATOMIC_RESULT_TIMEOUT (R204) of a running instance with room to park, whose next word is an atomic that is at its point: the
instance parks past the instruction, with the old value held for `s[d]`, which keeps its value till then, and memory holds
Table 9.8's new value; its return is pending. At a page that is MOVING the atomic is queued there, with its operands, and the
instance parks past the instruction without a value. -/
def Sys2Proof.Claim.AtomicResultHeld : Prop :=
  ∀ (s u v : State) (c : CoreId) (d a b : Reg) (sc : BitVec 3) (p : BitVec 2) (w : BitVec 1) (l : Loc) (pa func : Nat) (i : Instr)
    (x : IWord),
    let s' : State := { s with cur := c }
    let n := if w = 1 then 8 else 4
    let addr := (s.core c).reg a
    (amoForms d a b sc p w)[func]? = some i → i.wf = true → s.waitingWord c = some x → encode i = [x] →
    c < 8192 → Room (s.core c) → (s.core c).cond = .running → (∀ h ∈ (s.core c).held, h.inst.id ≠ (s.core c).inst.id) →
    AtPoint s' u v addr n sc p l pa →
    let old := numAt v pa n
    let held := fun (t : State) (w : Wait) => t.cur = s.cur ∧ (t.core c).cond = .idle ∧ ∃ h, (t.core c).held = (s.core c).held ++ [h] ∧
      h.inst.id = (s.core c).inst.id ∧ h.st = .parked w ∧ h.pc = (s.core c).pc + 4 ∧
      ∀ k : Fin 16, k.val ≠ 0 → h.sregs[k] = (s.core c).regs[k.val]'(by omega)
    (Writable v pa → ∃ t, exec (.atomicResultTimeout c) s = .next t ∧ held t (.atomic d (BitVec.ofInt 64 (sext (8 * n) old))) ∧
      numAt t pa n = amoNew n func old (((s.core c).reg b).toNat % 2 ^ (8 * n)) (((s.core c).reg d).toNat % 2 ^ (8 * n)) ∧
      (∀ k, k / 2 ^ 48 ≠ 3 → k < pa ∨ pa + n ≤ k → Memory.get t.mem k = Memory.get v.mem k) ∧
      (t.now, Instr.atomicResultReturn c (s.core c).inst.id) ∈ t.happenings) ∧
    (v.redirects = [] → (v.movingAt pa).isSome = true → ∃ t, exec (.atomicResultTimeout c) s = .next t ∧ held t (.atomicOut d) ∧
      t.migrations = v.migrations.map (fun m => if inFrame m.old m.cmd.large pa then
        { m with queued := m.queued ++ [.atomic c (s.core c).inst.id (v.coreDom c) pa n func ((s.core c).reg b) ((s.core c).reg d)] } else m) ∧
      ∀ k, k / 2 ^ 48 ≠ 3 → Memory.get t.mem k = Memory.get v.mem k)

open Sys2Proof.Claim in
/-- Fences (R199, Table 9.2) and ST.REL at a wider scope (R198, R200). At `.CORE` only the pc moves. At a wider scope they wait,
changing nothing, while an access of the instance is on its way that Table 9.2 names; else FENCE.ACQ only moves the pc, and
the others have every buffered write applied before they complete. ST.REL with nothing on its way is the same store at every
scope. -/
def Sys2Proof.Claim.Fences : Prop :=
  ∀ (s : State) (k : BitVec 2) (sc : BitVec 3), k ≠ 3 →
    (sc = 0 → exec (.fence k sc) s = .next (s.after 4 id)) ∧
    (sc ≠ 0 → OnItsWay s sc.toNat (k == 1) → exec (.fence k sc) s = .next s) ∧
    (sc ≠ 0 → ¬ OnItsWay s sc.toNat (k == 1) →
      (k = 1 → exec (.fence k sc) s = .next (s.after 4 id)) ∧
      (k ≠ 1 → s.happenings = [] → s.migrations = [] →
        (s.me.stbuf = [] → exec (.fence k sc) s = .next (s.after 4 id)) ∧
        (∀ e v, s.me.stbuf = [e] → s.stuck s.cur e = false → e.pa / 2 ^ 48 ≠ 5 → s.me.cond = .running →
          (∀ h ∈ s.me.held, h.st = .ready) → exec (.storeApply s.cur e.id) s = .next v →
          exec (.fence k sc) s = .next (v.after 4 id)))) ∧
    (∀ d a x l pa u, Reaches s .write (s.me.reg a) (2 ^ (x : BitVec 3).toNat) l pa u → Idle u →
      exec (.stRel d a sc x) s = exec (.stRel d a 0 x) s)

/-- The atomics, their held results and the fences (09 R194, R197–R204). -/
def Obligations.AtomicsAndFences : Prop := Claim.Atomics ∧ Claim.AtomicResultHeld ∧ Claim.Fences

namespace Sys2Proof.Claim

/-- A reduction cell as it stands: SUM, NEXT and FAIL (R205, Table 9.9). -/
def cellSum (s : State) (p : Nat) : Nat := numAt s p 4
def cellNext (s : State) (p : Nat) : Nat := numAt s (p + 4) 2
def cellFail (s : State) (p : Nat) : Bool := (Memory.get s.mem (p + 7)).getLsbD 7

end Sys2Proof.Claim

open Sys2Proof.Claim in
/-- Ordered reductions (R205–R208). REDF to a cell of chip SRAM or a scratchpad, aligned, with an index up to 65,534 and a slot
free, sends its contribution and keeps it in a slot; another space is ACCESS, another index too; with the 8 slots in use it
waits. A contribution, new or sent again, behind no read of its instance, that is next is added to SUM under RNE and NEXT goes up by one; one that is late is
reported ACCESS, one to a failed cell TIMEOUT, changing nothing; one that is early is held. In each case its slot is free.
After 65,536 cycles without progress FAIL is set and what is held is discarded. -/
def Obligations.OrderedReductions : Prop :=
  ∀ (s : State) (d a b : Reg) (l : Loc) (p : Nat) (x : Contribution),
    let addr := s.me.reg a
    let space := (addr.extractLsb' 48 4).toNat
    (checkAddress addr s = .ok (l, s) →
      (space ∉ [1, 2, 7, 8] → exec (.redf d a b) s = .next (s.takeFault s.cur cACCESS addr)) ∧
      (space ∈ [1, 2, 7, 8] → addr.toNat % 8 ≠ 0 → exec (.redf d a b) s = .next (s.takeFault s.cur cALIGN addr)) ∧
      (space ∈ [1, 2, 7, 8] → addr.toNat % 8 = 0 → 65535 ≤ (s.me.reg d).toNat →
        exec (.redf d a b) s = .next (s.takeFault s.cur cACCESS (s.me.reg d))) ∧
      (space ∈ [1, 2, 7, 8] → addr.toNat % 8 = 0 → (s.me.reg d).toNat < 65535 →
        (8 ≤ s.me.contribs.length → exec (.redf d a b) s = .next s) ∧
        (s.me.contribs.length < 8 → l = .place p → s.me.stbuf = [] → s.migrations = [] →
          (∀ o ∈ s.me.outst, o.inst ≠ s.me.inst.id) → ∃ t y, exec (.redf d a b) s = .next t ∧
          t.me.contribs = s.me.contribs ++ [y] ∧ y.core = s.cur ∧ y.inst = s.me.inst.id ∧ y.addr = p ∧ y.index = (s.me.reg d).setWidth 16 ∧
          y.value = (s.me.reg b).setWidth 32 ∧ (s.now, Instr.redfArrival y) ∈ t.happenings ∧ t.me.regs = s.me.regs ∧
          t.me.pc = s.me.pc + 4 ∧ SameMem s t))) ∧
    (∀ i ∈ [Instr.redfArrival x, .redfResend x], (s.core x.core).contribs = [x] → (s.core x.core).outst = [] →
      Plain s → Quiet s x.addr → s.inFrameArea x.addr = false →
      (∃ t, exec i s = .next t ∧ (t.core x.core).contribs = []) ∧
      (cellFail s x.addr = false → x.index.toNat = cellNext s x.addr → ∃ t, exec i s = .next t ∧
        cellSum t x.addr = (addFp32Rne (cellSum s x.addr) x.value.toNat).1 % 2 ^ 32 ∧
        cellNext t x.addr = (cellNext s x.addr + 1) % 65536 ∧ cellFail t x.addr = false ∧
        ∀ k, k < x.addr ∨ x.addr + 8 ≤ k → Memory.get t.mem k = Memory.get s.mem k) ∧
      (cellFail s x.addr = true ∨ x.index.toNat < cellNext s x.addr → ∃ t, exec i s = .next t ∧ SameMem s t) ∧
      (cellFail s x.addr = false → cellNext s x.addr < x.index.toNat → ∃ t, exec i s = .next t ∧ SameMem s t ∧
        (t.redCells.get {} x.addr).held = [x] ∧ ∃ n, (n, Instr.redfCellTimeout x.addr) ∈ t.happenings)) ∧
    (∀ r, s.redCells = [(p, r)] → (∀ c, (s.core c).arms = []) → Memory.wf s.mem → s.inFrameArea p = false → r.since + 65536 ≤ s.now →
      ∃ t, exec (.redfCellTimeout p) s = .next t ∧ t.redCells = [] ∧ cellFail t p = true ∧ cellSum t p = cellSum s p ∧
        cellNext t p = cellNext s p)

open Sys2Proof.Claim in
/-- Armed continuations (R209–R212; 04 R84). TARM of a VALID row that is no FAULT row, its addresses checked and nothing of the core
on its way, ends the instance and takes the lowest free of 16 slots for the row and its watches, their registrations pending;
with none free the row is owed a continuation. At its registration a watch whose recorded bytes differ from memory fires the
armament at once; otherwise it stands. A write that meets a standing watch hits its armament, which then fires with the
watch's index. -/
def Obligations.Armaments : Prop :=
  ∀ (s : State) (a k : Reg) (r : BitVec 6) (c slot j : Nat) (m : Arm) (w : Watch),
    (let row := s.me.row r.toNat
     (row.valid = false ∨ row.fault = true → exec (.tarm a k r) s = .next (s.takeFault s.cur cACCESS (r.setWidth 64))) ∧
     (∀ ws u, row.valid = true → row.fault = false →
       ((List.range k.toNat).mapM (fun j => do let x ← rd (nextReg a j); watchOf x) : Op (List Watch)) s = .ok (ws, u) → Idle u →
       ∃ t, exec (.tarm a k r) s = .next t ∧ t.me.cond = .idle ∧ t.faults = s.faults ∧ SameMem u t ∧
         (∀ n, (∀ i < n, (Tbl.find? s.me.arms i).isSome = true) → n < 16 → Tbl.find? s.me.arms n = none →
           (∃ y, Tbl.find? t.me.arms n = some y ∧ y.row = r ∧ y.hit = none ∧ y.fired = none ∧
             y.watches.map (fun w => (w.dw, w.stands)) = ws.map (fun w => (w.dw, w.stands))) ∧
           t.happenings = (List.range k.toNat).map (fun i => (s.now, Instr.armamentRegister s.cur n i)) ∧ t.me.refused = s.me.refused) ∧
         ((∀ i < 16, (Tbl.find? s.me.arms i).isSome = true) → t.me.arms = u.me.arms ∧
           ∃ o, t.me.refused = s.me.refused ++ [(r, o)]))) ∧
    ((s.core c).arms = [(slot, m)] → m.hit = none → m.fired = none → m.watches[j]? = some w → Quiet s w.dw →
      (∀ e, w.seen = some e → (BitVec.ofNat 64 (numAt s w.dw 8) ^^^ e.value) &&& spread e.mask ≠ 0 →
        ∃ t o, exec (.armamentRegister c slot j) s = .next t ∧ ∃ y, (t.core c).arms = [(slot, y)] ∧ y.row = m.row ∧ y.fired = some (j, o)) ∧
      ((∀ e, w.seen = some e → (BitVec.ofNat 64 (numAt s w.dw 8) ^^^ e.value) &&& spread e.mask = 0) →
        exec (.armamentRegister c slot j) s = .next (s.updCore c (fun x =>
          { x with arms := [(slot, { m with watches := m.watches.set j { w with stands := true } })] })))) ∧
    (∀ x bs, s.cores = [(c, x)] → x.arms = [(slot, m)] → m.hit = none → m.fired = none → m.watches = [w] → w.stands = true →
      w.dw % 8 = 0 → w.dw / 2 ^ 48 ≠ 3 → bs.length = 8 →
      ∃ t o, t = s.writeAt w.dw bs ∧ (t.core c).arms = [(slot, { m with hit := some (0, o), watches := [{ w with stands := false }] })] ∧
        ∃ n, (n, Instr.armamentFire w.dw) ∈ t.happenings) ∧
    (∀ h, (s.core c).arms = [(slot, m)] → m.hit = some h → m.fired = none →
      m.watches[h.1]? = some w → ∃ t, exec (.armamentFire w.dw) s = .next t ∧ (t.core c).arms = [(slot, { m with fired := some h })])

open Sys2Proof.Claim in
/-- Barriers (R213–R218). BARRIER and BARQ of a member of a valid group of the package, not pending, with an ACTIVE queue of which
the core is a consumer and nothing of the core on its way, mark it pending and send its rank and value; a core that is no
member, or pending, is ACCESS. An arrival is counted, its value joined to the OR and the sum; the last of an episode starts the
next one and sends each member its release, STAGGER cycles apart by rank. A release ends the wait and stands in the member's
queue. -/
def Obligations.Barriers : Prop :=
  ∀ (s : State) (d a b : Reg) (m : Member) (q : QKey) (x : Arrival) (y : Release),
    let id : BitVec 32 := (s.me.reg a).setWidth 32
    let g := (id.extractLsb' 0 8).toNat
    (id.extractLsb' 8 12 = 0 → (id.extractLsb' 20 12 = 0xFFF ∨ id.extractLsb' 20 12 = s.pkg) →
      ∀ f ∈ [(Instr.barrier d a, (0 : BitVec 32)), (.barq d a b, (s.me.reg b).setWidth 32)],
        ((∀ y ∈ s.me.members, y.group ≠ g) → exec f.1 s = .next (s.takeFault s.cur cACCESS (id.setWidth 64))) ∧
        (s.me.members = [m] → m.group = g → (s.group g).valid = true → m.pending = true →
          exec f.1 s = .next (s.takeFault s.cur cACCESS (id.setWidth 64))) ∧
        (s.me.members = [m] → m.group = g → (s.group g).valid = true → m.pending = false → Maps s d q → (s.queue q).st = .active →
          s.cur ∈ (s.queue q).consumers → Idle s →
          ∃ t, exec f.1 s = .next t ∧ t.me.members = [{ m with pending := true }] ∧ t.happenings =
            [(s.now, .barrierArrival { core := s.cur, group := g, rank := m.rank, value := f.2, queue := q })] ∧
            t.me.pc = s.me.pc + 4 ∧ t.me.regs = s.me.regs ∧ t.groups = s.groups ∧ SameMem s t)) ∧
    (let g := s.group x.group
     (g.arrived + 1 ≠ g.members → ∃ t, exec (.barrierArrival x) s = .next t ∧ t.happenings = s.happenings ∧ t.group x.group =
       { g with arrived := g.arrived + 1, orv := g.orv ||| x.value, sum := g.sum + x.value, arrivals := g.arrivals ++ [x] }) ∧
     (g.arrived + 1 = g.members → ∃ t, exec (.barrierArrival x) s = .next t ∧ t.group x.group =
         { g with arrived := 0, orv := 0, sum := 0, episode := g.episode + 1, arrivals := [] } ∧
       t.happenings = s.happenings ++ (g.arrivals ++ [x]).map (fun z => (s.now + z.rank.toNat * g.stagger,
         .barrierRelease { core := z.core, group := x.group, queue := z.queue
                           data := (g.sum + x.value) ++ (g.orv ||| x.value) ++ 0#8 ++ BitVec.ofNat 8 x.group ++ z.rank ++ g.episode })))) ∧
    (Unarmed s (y.queue / 512) → (s.queue y.queue).st = .active → (s.queue y.queue).onchip < (s.queue y.queue).cap → 1 ≤ (s.queue y.queue).g → (s.queue y.queue).g ≤ 8 →
      ∃ t, exec (.barrierRelease y) s = .next t ∧
        (t.queue y.queue).items = (s.queue y.queue).items ++ [{ slot := (s.queue y.queue).nextSlot, core := y.core
                                                                item := { tag := 0, data := y.data.setWidth 1024 }, owner := none }] ∧
        (t.core y.core).members = (s.core y.core).members.map (fun m => { m with pending := (m.group != y.group && m.pending) }) ∧
        SameMem s t)

/-! ## Vector instructions (11; 02 R30, R32, R42) -/

namespace Sys2Proof.Claim

/-- R32: byte j of a lane after a swizzle is byte SWZ[2j+1:2j] of it. -/
def swz (z : BitVec 8) (l : Lane) : Nat :=
  ((List.range 4).map (fun j => l.toNat / 256 ^ (z.toNat / 4 ^ j % 4) % 256 * 256 ^ j)).sum

/-- Lane i of a vector register: lanes from `vl` up do not exist. -/
def lane (x : Core) (r : Reg) (i : Nat) : Lane := if i < x.vl then (x.vregs[r.toNat]'r.isLt).getD i 0 else 0

/-- R227: a lane is active when its mask bit is 1; `m0` makes every lane active. -/
def on (x : Core) (m : Nat) (i : Nat) : Bool := m == 0 || (x.masks.toList.getD m 0).getLsbD i

/-- R226: element j of w bits of a lane. -/
def elem (w l j : Nat) : Nat := l / 2 ^ (w * j) % 2 ^ w

/-- The lane of 32 / w elements, each kept to w bits. -/
def join (w : Nat) (f : Nat → Int) : Lane :=
  BitVec.ofNat 32 ((List.range (32 / w)).map (fun j => (f j % 2 ^ w).toNat * 2 ^ (w * j))).sum

/-- The OR of flags. -/
def orAll (l : List Flags) : Flags := l.foldl (· ||| ·) 0

/-- A vector function is one instruction in its short form, and in its long form under a VX prefix (02 R30, R32), here with
register operands: `P` says what the instruction of such a length and payload does. -/
def OnBoth (short : Instr) (op : VOp) (f : VFields) (P : Instr → Word → VxFields → Prop) : Prop :=
  P short 4 VxFields.short ∧ ∀ x : VxFields, x.qd = 0 → x.qa = 0 → x.qb = 0 → P (.vxLongForm op f x) 8 x

/-- Without lanes it takes LANES (02 R42; the detail is free, log 40); with lanes, the core ends as `f` says, with the pc past
the instruction, and nothing else changes. -/
def Acts (i : Instr) (len : Word) (f : Core → Core) : Prop :=
  ∀ s : State, (s.me.vl = 0 → exec i s = .next (s.takeFault s.cur cLANES (Config.freeWord s.tick))) ∧
    (s.me.vl ≠ 0 → exec i s = .next (s.after len f))

/-- The vector register d takes a result lane where active, and keeps its lane or becomes zero elsewhere (R227); the flags of
the active lanes are ORed into NFLAGS (R232). -/
def intoVector (d : Reg) (m : BitVec 3) (x : VxFields) (res : Core → Nat → Lane) (fl : Core → Nat → Flags) (c : Core) : Core :=
  { c.setVreg d ((List.range c.vl).map (fun i =>
      if on c m.toNat i then res c i else if x.zero = 1 then 0 else lane c d i)) with
    nflags := c.nflags ||| (orAll (((List.range c.vl).filter (on c m.toNat)).map (fl c))).setWidth 64 }

/-- An elementwise function of w-bit elements: of the swizzled lanes of a and of b and of the old destination. -/
def Elementwise (d a b : Reg) (m : BitVec 3) (w : Nat) (g : Nat → Nat → Nat → Int × Flags) (i : Instr) (len : Word) (x : VxFields) :
    Prop :=
  let at_ := fun (c : Core) (i j : Nat) =>
    g (elem w (swz x.swza (lane c a i)) j) (elem w (swz x.swzb (lane c b i)) j) (elem w (lane c d i).toNat j)
  Acts i len (intoVector d m x (fun c i => join w (fun j => (at_ c i j).1))
    (fun c i => orAll ((List.range (32 / w)).map (fun j => (at_ c i j).2))))

/-- An integer function at every element size, of one source or of two. -/
def IntRow (op : VOp) (i : Reg → Reg → Reg → BitVec 3 → BitVec 2 → Instr) (g : Nat → Nat → Nat → Nat → Int × Flags) : Prop :=
  ∀ (d a b : Reg) (m : BitVec 3) (e : BitVec 2),
    OnBoth (i d a b m e) op ⟨d, a, b, m, e, 0, 0⟩ (Elementwise d a b m (32 / 2 ^ e.toNat) (g (32 / 2 ^ e.toNat)))

def IntRow1 (op : VOp) (i : Reg → Reg → BitVec 3 → BitVec 2 → Instr) (g : Nat → Nat → Int) : Prop :=
  ∀ (d a : Reg) (m : BitVec 3) (e : BitVec 2),
    OnBoth (i d a m e) op ⟨d, a, 0, m, e, 0, 0⟩
      (Elementwise d a 0 m (32 / 2 ^ e.toNat) (fun x _ _ => (g (32 / 2 ^ e.toNat) x, 0)))

/-- Kept as it is, with no flag; clamped to [lo, hi], with SAT when clamped. -/
def plain (r : Int) : Int × Flags := (r, 0)
def clampTo (lo hi r : Int) : Int × Flags := if r < lo then (lo, flagSAT) else if hi < r then (hi, flagSAT) else (r, 0)

end Sys2Proof.Claim

open Sys2Proof.Claim in
/-- Tables 11.1 and 11.2: every function of majors 0x10 and 0x11 at every element size, in the short form and under VX, with
x and y the elements, xs and ys their signed views, and the result kept to e bits; only active lanes are computed, only the
saturating functions raise a flag, and only for them. -/
def Sys2Proof.Claim.VectorInteger : Prop :=
  IntRow .vadd .vadd (fun _ x y _ => plain (x + y)) ∧
  IntRow .vsub .vsub (fun _ x y _ => plain (x - y)) ∧
  IntRow .vmul .vmul (fun _ x y _ => plain (x * y)) ∧
  IntRow .vmulh .vmulh (fun w x y _ => plain ((sext w x * sext w y).fdiv (2 ^ w))) ∧
  IntRow .vmulhu .vmulhu (fun w x y _ => plain (x * y / 2 ^ w : Nat)) ∧
  IntRow .vmin .vmin (fun w x y _ => plain (min (sext w x) (sext w y))) ∧
  IntRow .vmax .vmax (fun w x y _ => plain (max (sext w x) (sext w y))) ∧
  IntRow .vminu .vminu (fun _ x y _ => plain (min x y : Nat)) ∧
  IntRow .vmaxu .vmaxu (fun _ x y _ => plain (max x y : Nat)) ∧
  IntRow .vadds .vadds (fun w x y _ => clampTo (-2 ^ (w - 1)) (2 ^ (w - 1) - 1) (sext w x + sext w y)) ∧
  IntRow .vsubs .vsubs (fun w x y _ => clampTo (-2 ^ (w - 1)) (2 ^ (w - 1) - 1) (sext w x - sext w y)) ∧
  IntRow .vaddsn .vaddsn (fun w x y _ => clampTo 0 (2 ^ w - 1) (x + y)) ∧
  IntRow .vsubsn .vsubsn (fun w x y _ => clampTo 0 (2 ^ w - 1) (x - y)) ∧
  IntRow .vabsd .vabsd (fun w x y _ => plain ((sext w x - sext w y).natAbs : Int)) ∧
  IntRow .vavg .vavg (fun w x y _ => plain ((sext w x + sext w y + 1).fdiv 2)) ∧
  IntRow .vmac .vmac (fun _ x y d => plain (d + x * y)) ∧
  IntRow .vand .vand (fun _ x y _ => plain (x &&& y : Nat)) ∧
  IntRow .vor .vor (fun _ x y _ => plain (x ||| y : Nat)) ∧
  IntRow .vxor .vxor (fun _ x y _ => plain (x ^^^ y : Nat)) ∧
  IntRow .vandn .vandn (fun w x y _ => plain (x &&& (y ^^^ (2 ^ w - 1)) : Nat)) ∧
  IntRow .vsll .vsll (fun w x y _ => plain (x * 2 ^ (y % w) : Nat)) ∧
  IntRow .vsrl .vsrl (fun w x y _ => plain (x / 2 ^ (y % w) : Nat)) ∧
  IntRow .vsra .vsra (fun w x y _ => plain ((sext w x).fdiv (2 ^ (y % w)))) ∧
  IntRow .vrol .vrol (fun w x y _ => plain (x * 2 ^ (y % w) + x / 2 ^ (w - y % w) : Nat)) ∧
  IntRow1 .vnot .vnot (fun w x => (x ^^^ (2 ^ w - 1) : Nat)) ∧
  IntRow1 .vpopc .vpopc (fun w x => (bitsOf w x).count true) ∧
  IntRow1 .vclz .vclz (fun w x => ((bitsOf w x).reverse.takeWhile (!·)).length)

namespace Sys2Proof.Claim

/-- R235: FP32; or BF16, or FP16 with ALT. -/
def floatFmt (e : BitVec 1) (x : VxFields) : Fmt := if e = 0 then .fp32 else if x.alt = 1 then .fp16 else .bf16

/-- A code and flags as an element's result. -/
def asElem (r : Nat × Flags) (more : List Flags) : Int × Flags := ((r.1 : Int), orAll (r.2 :: more))

/-- An exact result rounded once (R62) under the modes. -/
def once (f : Fmt) (md : Modes) (r : Num × Flags) : Nat × Flags :=
  let c := encodeNum f md r.1
  (c.1, r.2 ||| c.2)

/-- A float function of one, two or three operands, decoded under the modes of NMODE at issue (R67, R69): the result and its
flags, with those of the decoding of the operands it has. -/
def FloatRow1 (op : VOp) (i : Reg → Reg → BitVec 3 → BitVec 1 → Instr) (g : Fmt → Modes → Num → Nat × Flags) : Prop :=
  ∀ (d a : Reg) (m : BitVec 3) (e : BitVec 1),
    OnBoth (i d a m e) op ⟨d, a, 0, m, e.setWidth 2, 0, 0⟩ (fun i len x =>
      let f := floatFmt e x
      let w := 32 / 2 ^ e.toNat
      let at_ := fun (c : Core) (i j : Nat) =>
        let p := decodeNum (modesOf c.nmode) f (elem w (swz x.swza (lane c a i)) j)
        asElem (g f (modesOf c.nmode) p.1) [p.2]
      Acts i len (intoVector d m x (fun c i => join w (fun j => (at_ c i j).1))
        (fun c i => orAll ((List.range (32 / w)).map (fun j => (at_ c i j).2)))))

def FloatRow2 (op : VOp) (i : Reg → Reg → Reg → BitVec 3 → BitVec 1 → Instr) (g : Fmt → Modes → Num → Num → Nat × Flags) : Prop :=
  ∀ (d a b : Reg) (m : BitVec 3) (e : BitVec 1),
    OnBoth (i d a b m e) op ⟨d, a, b, m, e.setWidth 2, 0, 0⟩ (fun i len x =>
      let f := floatFmt e x
      let w := 32 / 2 ^ e.toNat
      let at_ := fun (c : Core) (i j : Nat) =>
        let p := decodeNum (modesOf c.nmode) f (elem w (swz x.swza (lane c a i)) j)
        let q := decodeNum (modesOf c.nmode) f (elem w (swz x.swzb (lane c b i)) j)
        asElem (g f (modesOf c.nmode) p.1 q.1) [p.2, q.2]
      Acts i len (intoVector d m x (fun c i => join w (fun j => (at_ c i j).1))
        (fun c i => orAll ((List.range (32 / w)).map (fun j => (at_ c i j).2)))))

def FloatRow3 (op : VOp) (i : Reg → Reg → Reg → BitVec 3 → BitVec 1 → Instr) (g : Modes → Num → Num → Num → Num × Flags) : Prop :=
  ∀ (d a b : Reg) (m : BitVec 3) (e : BitVec 1),
    OnBoth (i d a b m e) op ⟨d, a, b, m, e.setWidth 2, 0, 0⟩ (fun i len x =>
      let f := floatFmt e x
      let w := 32 / 2 ^ e.toNat
      let at_ := fun (c : Core) (i j : Nat) =>
        let md := modesOf c.nmode
        let p := decodeNum md f (elem w (swz x.swza (lane c a i)) j)
        let q := decodeNum md f (elem w (swz x.swzb (lane c b i)) j)
        let o := decodeNum md f (elem w (lane c d i).toNat j)
        asElem (once f md (g md p.1 q.1 o.1)) [p.2, q.2, o.2]
      Acts i len (intoVector d m x (fun c i => join w (fun j => (at_ c i j).1))
        (fun c i => orAll ((List.range (32 / w)).map (fun j => (at_ c i j).2)))))

/-- Table 11.3: the smaller and the larger of two values; −0 is below +0, and a NaN gives way. -/
def smaller (x y : Num) : Num :=
  if x.isNan then y else if y.isNan then x else if ltNum x y then x else if ltNum y x then y
  else if x.isNeg && !y.isNeg then x else y
def larger (x y : Num) : Num :=
  if x.isNan then y else if y.isNan then x else if ltNum x y then y else if ltNum y x then x
  else if x.isNeg && !y.isNeg then y else x

end Sys2Proof.Claim

open Sys2Proof.Claim in
/-- Table 11.3: the functions of major 0x12 in FP32, BF16 and FP16, short and under VX: each active element is the exact
result rounded once under NMODE, with the flags of the operands, the operation and the rounding. The exact operations and the
encoding are those of chapter 03. -/
def Sys2Proof.Claim.VectorFloat : Prop :=
  FloatRow2 .vfadd .vfadd (fun f md x y => once f md (addNum md.rm x y)) ∧
  FloatRow2 .vfsub .vfsub (fun f md x y => once f md (addNum md.rm x y.negate)) ∧
  FloatRow2 .vfmul .vfmul (fun f md x y => once f md (mulNum x y)) ∧
  FloatRow3 .vfma .vfma (fun md x y d => fmaNum md.rm x y d) ∧
  FloatRow3 .vfms .vfms (fun md x y d => fmaNum md.rm x y d.negate) ∧
  FloatRow3 .vfnma .vfnma (fun md x y d => fmaNum md.rm x.negate y d) ∧
  FloatRow2 .vfmin .vfmin (fun f md x y => encodeNum f md (smaller x y)) ∧
  FloatRow2 .vfmax .vfmax (fun f md x y => encodeNum f md (larger x y)) ∧
  FloatRow1 .vfabs .vfabs (fun f md x => encodeNum f md x.absNum) ∧
  FloatRow1 .vfneg .vfneg (fun f md x => encodeNum f md x.negate) ∧
  FloatRow2 .vfdiv .vfdiv (fun f md x y => divNum f md x y) ∧
  FloatRow1 .vfsqrt .vfsqrt (fun f md x => sqrtNum f md x)

/-- Integer and floating-point lane arithmetic (11 R233–R235). -/
def Obligations.VectorArithmetic : Prop := Claim.VectorInteger ∧ Claim.VectorFloat

namespace Sys2Proof.Claim

/-- A mask register from 1 to 7 takes the bits that `f` gives of the lanes below `vl`, and keeps its other bits; the pc
passes the instruction, and nothing else changes. -/
def IntoMask (i : Instr) (len : Word) (d : Reg) (f : Core → Nat → Bool) : Prop :=
  ∀ s : State, (s.me.vl = 0 → exec i s = .next (s.takeFault s.cur cLANES (Config.freeWord s.tick))) ∧
    (s.me.vl ≠ 0 → ∀ h : d.toNat < 8, 0 < d.toNat → ∃ v : BitVec 128,
      exec i s = .next (s.after len (fun c => { c with masks := c.masks.set d.toNat v h })) ∧
      ∀ k < 128, v.getLsbD k = if k < s.me.vl then f s.me k else (s.me.masks[d.toNat]'h).getLsbD k)

/-- R236: a compare of 32-bit lanes, of the active ones; the bits of the others stay, or become 0. -/
def CompareRow (op : VOp) (i : Reg → Reg → Reg → BitVec 3 → Instr) (g : Modes → BitVec 32 → BitVec 32 → Bool) : Prop :=
  ∀ (d a b : Reg) (m : BitVec 3), OnBoth (i d a b m) op ⟨d, a, b, m, 0, 0, 0⟩ (fun i len x => IntoMask i len d (fun c k =>
    if on c m.toNat k then
      g (modesOf c.nmode) (BitVec.ofNat 32 (swz x.swza (lane c a k))) (BitVec.ofNat 32 (swz x.swzb (lane c b k)))
    else if x.zero = 1 then false else on c d.toNat k))

/-- The FP32 value of a lane under FLUSH32. -/
def f32 (md : Modes) (l : BitVec 32) : Num := (decodeNum md .fp32 l.toNat).1

/-- R237. -/
def MaskRow (op : VOp) (i : Reg → Reg → Reg → Instr) (g : Bool → Bool → Bool) : Prop :=
  ∀ d a b : Reg, a.toNat < 8 → b.toNat < 8 → OnBoth (i d a b) op ⟨d, a, b, 0, 0, 0, 0⟩ (fun i len _ =>
    IntoMask i len d (fun c k => g (on c a.toNat k) (on c b.toNat k)))

end Sys2Proof.Claim

open Sys2Proof.Claim in
/-- The compares (R236), the mask functions (R237), and VMASKN, MCOUNT and MFIRST (Table 11.5), short and under VX. A compare
raises no flag. -/
def Sys2Proof.Claim.VectorMasks : Prop :=
  CompareRow .vcmpeq .vcmpeq (fun _ x y => x == y) ∧
  CompareRow .vcmpne .vcmpne (fun _ x y => x != y) ∧
  CompareRow .vcmplt .vcmplt (fun _ x y => decide (x.toInt < y.toInt)) ∧
  CompareRow .vcmple .vcmple (fun _ x y => decide (x.toInt ≤ y.toInt)) ∧
  CompareRow .vcmpltn .vcmpltn (fun _ x y => decide (x.toNat < y.toNat)) ∧
  CompareRow .vcmplen .vcmplen (fun _ x y => decide (x.toNat ≤ y.toNat)) ∧
  CompareRow .vfcmpeq .vfcmpeq (fun md x y => eqNum (f32 md x) (f32 md y)) ∧
  CompareRow .vfcmplt .vfcmplt (fun md x y => ltNum (f32 md x) (f32 md y)) ∧
  CompareRow .vfcmple .vfcmple (fun md x y => ltNum (f32 md x) (f32 md y) || eqNum (f32 md x) (f32 md y)) ∧
  CompareRow .vfcmpun .vfcmpun (fun md x y => (f32 md x).isNan || (f32 md y).isNan) ∧
  MaskRow .mand .mand (fun x y => x && y) ∧ MaskRow .mor .mor (fun x y => x || y) ∧ MaskRow .mxor .mxor (fun x y => x != y) ∧
  MaskRow .mandn .mandn (fun x y => x && !y) ∧
  (∀ d a : Reg, a.toNat < 8 → OnBoth (.mnot d a) .mnot ⟨d, a, 0, 0, 0, 0, 0⟩ (fun i len _ =>
    IntoMask i len d (fun c k => !on c a.toNat k))) ∧
  (∀ d a : Reg, OnBoth (.vmaskn d a) .vmaskn ⟨d, a, 0, 0, 0, 0, 0⟩ (fun i len _ =>
    IntoMask i len d (fun c k => decide (k < (c.reg a).toNat)))) ∧
  (∀ d a : Reg, a.toNat < 8 →
    OnBoth (.mcount d a) .mcount ⟨d, a, 0, 0, 0, 0, 0⟩ (fun i len _ =>
      Acts i len (fun c => c.setReg d (BitVec.ofNat 64 (((List.range c.vl).filter (on c a.toNat)).length)))) ∧
    OnBoth (.mfirst d a) .mfirst ⟨d, a, 0, 0, 0, 0, 0⟩ (fun i len _ =>
      Acts i len (fun c => c.setReg d (BitVec.ofNat 64 (((List.range c.vl).takeWhile (fun k => !on c a.toNat k)).length)))))

namespace Sys2Proof.Claim

/-- R226: element number k of a source, for k below the number of elements; else 0. -/
def elemNo (c : Core) (w : Nat) (z : BitVec 8) (r : Reg) (k : Nat) : Nat :=
  if k < c.vl * (32 / w) then elem w (swz z (lane c r (k / (32 / w)))) (k % (32 / w)) else 0

/-- A move whose element k is `g`'s, in the active lanes. -/
def Moves (d : Reg) (m : BitVec 3) (w : Nat) (g : Core → VxFields → Nat → Nat) (i : Instr) (len : Word) (x : VxFields) : Prop :=
  Acts i len (intoVector d m x (fun c i => join w (fun j => (g c x (i * (32 / w) + j) : Int))) (fun _ _ => 0))

/-- Every lane is written. -/
def MovesAll (d : Reg) (g : Core → VxFields → Nat → Nat) (i : Instr) (len : Word) (x : VxFields) : Prop :=
  Acts i len (fun c => c.setVreg d ((List.range c.vl).map (fun k => BitVec.ofNat 32 (g c x k))))

end Sys2Proof.Claim

open Sys2Proof.Claim in
/-- Table 11.5: the moves and permutations of major 0x14, short and under VX: elements by their number, an index past the
last selecting zero or no element, unsigned indices, and all sources read before any lane is written. -/
def Sys2Proof.Claim.VectorMoves : Prop :=
  ∀ (d a b : Reg) (m : BitVec 3) (e : BitVec 2), let w := 32 / 2 ^ e.toNat
    OnBoth (.vmov d a m e) .vmov ⟨d, a, 0, m, e, 0, 0⟩ (Moves d m w (fun c x k => elemNo c w x.swza a k)) ∧
    OnBoth (.vsplat d a m e) .vsplat ⟨d, a, 0, m, e, 0, 0⟩ (Moves d m w (fun c _ _ => (c.reg a).toNat)) ∧
    OnBoth (.vext d a b e) .vext ⟨d, a, b, 0, e, 0, 0⟩ (fun i len x => Acts i len (fun c =>
      c.setReg d (BitVec.ofNat 64 (elemNo c w x.swza a (c.reg b).toNat)))) ∧
    OnBoth (.vins d a b e) .vins ⟨d, a, b, 0, e, 0, 0⟩ (fun i len _ => Acts i len (fun c =>
      c.setVreg d ((List.range c.vl).map (fun i => join w (fun j =>
        if i * (32 / w) + j = (c.reg b).toNat then ((c.reg a).toNat : Int) else (elem w (lane c d i).toNat j : Int)))))) ∧
    OnBoth (.vslup d a b m e) .vslup ⟨d, a, b, m, e, 0, 0⟩ (Moves d m w (fun c x k =>
      if (c.reg b).toNat ≤ k then elemNo c w x.swza a (k - (c.reg b).toNat) else 0)) ∧
    OnBoth (.vsldn d a b m e) .vsldn ⟨d, a, b, m, e, 0, 0⟩ (Moves d m w (fun c x k => elemNo c w x.swza a (k + (c.reg b).toNat))) ∧
    OnBoth (.vperm d a b m e) .vperm ⟨d, a, b, m, e, 0, 0⟩ (Moves d m w (fun c x k =>
      elemNo c w x.swza a (elemNo c w x.swzb b k))) ∧
    OnBoth (.vmerge d a b m e) .vmerge ⟨d, a, b, m, e, 0, 0⟩ (MovesAll d (fun c x i =>
      if on c m.toNat i then swz x.swza (lane c a i) else swz x.swzb (lane c b i))) ∧
    OnBoth (.vcomp d a m) .vcomp ⟨d, a, 0, m, 0, 0, 0⟩ (MovesAll d (fun c x i =>
      match ((List.range c.vl).filter (on c m.toNat))[i]? with
      | some k => swz x.swza (lane c a k)
      | none => 0)) ∧
    OnBoth (.vidx d m e) .vidx ⟨d, 0, 0, m, e, 0, 0⟩ (Moves d m w (fun _ _ k => k))

/-- Compares, mask logic, and the moves (11 R236–R238). -/
def Obligations.VectorMasksAndMoves : Prop := Claim.VectorMasks ∧ Claim.VectorMoves

namespace Sys2Proof.Claim

/-- The elements of the active lanes, in order. -/
def activeElems (c : Core) (m : BitVec 3) (w : Nat) (z : BitVec 8) (a : Reg) : List Nat :=
  ((List.range c.vl).filter (on c m.toNat)).flatMap (fun i => (List.range (32 / w)).map (elem w (swz z (lane c a i))))

/-- An integer reduction to a scalar, with no flag. -/
def ReduceRow (op : VOp) (i : Reg → Reg → BitVec 3 → BitVec 2 → Instr) (g : Nat → List Nat → Int) : Prop :=
  ∀ (d a : Reg) (m : BitVec 3) (e : BitVec 2), let w := 32 / 2 ^ e.toNat
    OnBoth (i d a m e) op ⟨d, a, 0, m, e, 0, 0⟩ (fun i len x =>
      Acts i len (fun c => c.setReg d (BitVec.ofInt 64 (g w (activeElems c m w x.swza a)))))

/-- A float reduction: an FP32 code in the low half, with its flags and those of the decoding. -/
def FloatReduceRow (op : VOp) (i : Reg → Reg → BitVec 3 → BitVec 1 → Instr) (g : Modes → List Num → Nat × Flags) : Prop :=
  ∀ (d a : Reg) (m : BitVec 3) (e : BitVec 1), let w := 32 / 2 ^ e.toNat
    OnBoth (i d a m e) op ⟨d, a, 0, m, e.setWidth 2, 0, 0⟩ (fun i len x => Acts i len (fun c =>
      let md := modesOf c.nmode
      let l := (activeElems c m w x.swza a).map (decodeNum md (floatFmt e x))
      let r := g md (l.map (·.1))
      { c.setReg d (BitVec.ofNat 64 r.1) with nflags := c.nflags ||| (orAll (r.2 :: l.map (·.2))).setWidth 64 }))

/-- A fold of the elements, none of them an identity; the identity when there are none. -/
def foldOr (id : Nat) (g : Num → Num → Num) (md : Modes) : List Num → Nat × Flags
  | [] => (id, 0)
  | x :: t => encodeNum .fp32 { md with rm := 0 } (t.foldl g x)

end Sys2Proof.Claim

open Sys2Proof.Claim in
/-- Table 11.6: the reductions of major 0x15 over the elements of the active lanes, short and under VX, with the identities
when no lane is active; VFRSUM is the exact sum rounded once to FP32 under RNE (R76), and a NaN is passed over by the float
minimum and maximum unless every element is one. -/
def Sys2Proof.Claim.VectorReductions : Prop :=
  ReduceRow .vrsum .vrsum (fun w l => (l.map (sext w)).sum) ∧
  ReduceRow .vrmin .vrmin (fun w l => (l.map (sext w)).foldr min (2 ^ (w - 1) - 1)) ∧
  ReduceRow .vrmax .vrmax (fun w l => (l.map (sext w)).foldr max (-2 ^ (w - 1))) ∧
  ReduceRow .vrminu .vrminu (fun w l => (l.foldr min (2 ^ w - 1) : Nat)) ∧
  ReduceRow .vrmaxu .vrmaxu (fun _ l => (l.foldr max 0 : Nat)) ∧
  ReduceRow .vrand .vrand (fun w l => (l.foldr (· &&& ·) (2 ^ w - 1) : Nat)) ∧
  ReduceRow .vrior .vrior (fun _ l => (l.foldr (· ||| ·) 0 : Nat)) ∧
  ReduceRow .vrxor .vrxor (fun _ l => (l.foldr (· ^^^ ·) 0 : Nat)) ∧
  FloatReduceRow .vfrsum .vfrsum (fun md l => once .fp32 { md with rm := 0 } (exactSum l)) ∧
  FloatReduceRow .vfrmin .vfrmin (foldOr 0x7F800000 smaller) ∧
  FloatReduceRow .vfrmax .vfrmax (foldOr 0xFF800000 larger) ∧
  FloatReduceRow .vframax .vframax (fun md l => foldOr 0 larger md (l.map Num.absNum))

namespace Sys2Proof.Claim

/-- R228: element j of the selected half of a swizzled lane of w-bit elements. -/
def halfElem (w : Nat) (h : BitVec 1) (l j : Nat) : Nat := elem w l (j + if h = 1 then 32 / w / 2 else 0)

/-- A lane-to-lane function of the swizzled sources and the old destination. -/
def Lanewise (d a b : Reg) (m : BitVec 3) (g : Core → VxFields → Nat → Nat → Nat → Lane × Flags) (i : Instr) (len : Word)
    (x : VxFields) : Prop :=
  let at_ := fun (c : Core) (i : Nat) => g c x (swz x.swza (lane c a i)) (swz x.swzb (lane c b i)) (lane c d i).toNat
  Acts i len (intoVector d m x (fun c i => (at_ c i).1) (fun c i => (at_ c i).2))

/-- A widening function of the halves (R240). -/
def WidenRow (op : VOp) (i : Reg → Reg → Reg → BitVec 3 → BitVec 2 → BitVec 1 → BitVec 1 → Instr) (g : Nat → Nat → Nat → Int) : Prop :=
  ∀ (d a b : Reg) (m : BitVec 3) (e : BitVec 2) (h k : BitVec 1), e ≠ 0 → let w := 32 / 2 ^ e.toNat
    OnBoth (i d a b m e h k) op ⟨d, a, b, m, e, h, k⟩ (Lanewise d a b m (fun _ _ x y _ =>
      (join (2 * w) (fun j => g w (halfElem w h x j) (halfElem w k y j)), 0)))

/-- An integer dot product (R241). -/
def DotRow (op : VOp) (i : Reg → Reg → Reg → BitVec 3 → BitVec 2 → BitVec 1 → BitVec 1 → Instr) (ext : Nat → Nat → Int) : Prop :=
  ∀ (d a b : Reg) (m : BitVec 3) (e : BitVec 2) (h k : BitVec 1), 2 ≤ e.toNat → let w := 32 / 2 ^ e.toNat
    OnBoth (i d a b m e h k) op ⟨d, a, b, m, e, h, k⟩ (Lanewise d a b m (fun _ _ x y z =>
      (BitVec.ofInt 32 (z + ((List.range (32 / w / 2)).map (fun j =>
        ext w (halfElem w h x j) * ext w (halfElem w k y j))).sum), 0)))

/-- x / n rounded to the nearest integer, a half to the even one. -/
def nearest (x : Int) (n : Nat) : Int :=
  let q := x.fdiv n
  let r := x - q * n
  if (n : Int) < 2 * r ∨ (2 * r = n ∧ q % 2 = 1) then q + 1 else q

/-- A narrowing shift (R242). -/
def NarrowRow (op : VOp) (i : Reg → Reg → Reg → BitVec 3 → BitVec 2 → Instr) (ext : Nat → Nat → Int) (clamp : Nat → Int → Int × Flags) :
    Prop :=
  ∀ (d a b : Reg) (m : BitVec 3) (e : BitVec 2), e ≠ 0 → let w := 32 / 2 ^ e.toNat
    OnBoth (i d a b m e) op ⟨d, a, b, m, e, 0, 0⟩ (Lanewise d a b m (fun c _ x _ _ =>
      let at_ := fun (j : Nat) => clamp w (nearest (ext (2 * w) (elem (2 * w) x j)) (2 ^ ((c.reg b).toNat % (2 * w))))
      (join w (fun j => if j < 32 / w / 2 then (at_ j).1 else 0), orAll ((List.range (32 / w / 2)).map (fun j => (at_ j).2)))))

end Sys2Proof.Claim

open Sys2Proof.Claim in
/-- The widening functions (R240), the dot products (R241), the narrowing shifts and VPACK (R242), short and under VX. -/
def Sys2Proof.Claim.VectorWidening : Prop :=
  WidenRow .vwadd .vwadd (fun w x y => sext w x + sext w y) ∧
  WidenRow .vwmul .vwmul (fun w x y => sext w x * sext w y) ∧
  WidenRow .vwmuln .vwmuln (fun _ x y => x * y) ∧
  DotRow .vdot .vdot sext ∧
  DotRow .vdotn .vdotn (fun _ x => x) ∧
  (∀ (d a b : Reg) (m : BitVec 3) (h k : BitVec 1),
    OnBoth (.vdot d a b m 1 h k) .vdot ⟨d, a, b, m, 1, h, k⟩ (Lanewise d a b m (fun c y p q z =>
      let md := modesOf c.nmode
      let f := floatFmt 1 y
      let o := decodeNum md .fp32 z
      let ts := (List.range 1).map (fun j =>
        let x := decodeNum md f (halfElem 16 h p j)
        let y := decodeNum md f (halfElem 16 k q j)
        let z := mulNum x.1 y.1
        (z.1, x.2 ||| y.2 ||| z.2))
      let r := once .fp32 { md with rm := 0 } (exactSum (o.1 :: ts.map (·.1)))
      (BitVec.ofNat 32 r.1, orAll (o.2 :: r.2 :: ts.map (·.2)))))) ∧
  NarrowRow .vnshr .vnshr sext (fun w => clampTo (-2 ^ (w - 1)) (2 ^ (w - 1) - 1)) ∧
  NarrowRow .vnshrn .vnshrn (fun _ x => x) (fun w => clampTo 0 (2 ^ w - 1)) ∧
  (∀ (d a b : Reg) (m : BitVec 3) (e : BitVec 2), e ≠ 0 → let w := 32 / 2 ^ e.toNat
    OnBoth (.vpack d a b m e) .vpack ⟨d, a, b, m, e, 0, 0⟩ (Lanewise d a b m (fun _ _ x y _ =>
      (join w (fun j => if j < 32 / w / 2 then (elem (2 * w) x j : Int) else (elem (2 * w) y (j - 32 / w / 2) : Int)), 0))))

/-- Reductions, widening and narrowing (11 R239–R242). -/
def Obligations.VectorSums : Prop := Claim.VectorReductions ∧ Claim.VectorWidening

namespace Sys2Proof.Claim

/-- The slot of a format in an element: bits of the esize it needs (R247). -/
def slotSize : Nat → Nat
  | 1 | 2 => 1
  | 3 | 4 | 6 => 2
  | 5 | 7 => 3
  | _ => 0

/-- Table 11.11: the encoding of a widened value; a 16-bit integer for INT8. -/
def widened (code : Nat) (md : Modes) (v : Num) : Nat × Flags :=
  match code with
  | 1 | 2 => encodeFmt .fp32 md v
  | 3 | 4 => encodeFmt .bf16 md v
  | 5 => encodeFmt .t8 md v
  | 7 => encodeFmt .int8 md v
  | _ => encodeInt 16 md v

/-- A special function of FP32 lanes (R252–R256). -/
def FixedRow (op : VOp) (i : Reg → Reg → BitVec 3 → Instr) (g : Modes → Num → Nat × Flags) : Prop :=
  ∀ (d a : Reg) (m : BitVec 3), OnBoth (i d a m) op ⟨d, a, 0, m, 0, 0, 0⟩ (Lanewise d a 0 m (fun c _ x _ _ =>
    let p := decodeNum (modesOf c.nmode) .fp32 x
    let r := g (modesOf c.nmode) p.1
    (BitVec.ofNat 32 r.1, r.2 ||| p.2)))

end Sys2Proof.Claim

open Sys2Proof.Claim in
/-- The conversions (R246–R248), VSCALE (R249) and the special functions (R251–R256), short and under VX. VCVTN packs the
encoded lanes from lane 0 and zeroes the rest; VCVTW widens the selected half; VFN goes through the ensemble's table, and the
fixed functions are the recipes of R253–R256 with the flags they raise. -/
def Obligations.VectorConversions : Prop :=
  FloatRow1 .vcvti .vcvti (fun f md x => encodeInt f.bits md x) ∧
  (∀ (d a : Reg) (m : BitVec 3) (e : BitVec 1), OnBoth (.vcvtf d a m e) .vcvtf ⟨d, a, 0, m, e.setWidth 2, 0, 0⟩ (fun i len x =>
    let w := 32 / 2 ^ e.toNat
    let at_ := fun (c : Core) (i j : Nat) =>
      encodeNum (floatFmt e x) (modesOf c.nmode) (Num.ofInt (sext w (elem w (swz x.swza (lane c a i)) j)) 0)
    Acts i len (intoVector d m x (fun c i => join w (fun j => ((at_ c i j).1 : Int)))
      (fun c i => orAll ((List.range (32 / w)).map (fun j => (at_ c i j).2)))))) ∧
  (∀ (d a k : Reg) (e : BitVec 2) (f : Fmt), fmtOf k.toNat = some f → slotSize k.toNat = e.toNat → e ≠ 0 →
    OnBoth (.vcvtn d a k e) .vcvtn ⟨d, a, k, 0, e, 0, 0⟩ (fun i len x => Acts i len (fun c =>
      let w := 32 / 2 ^ e.toNat
      let md := modesOf c.nmode
      let at_ := fun (i : Nat) =>
        let p := decodeNum md .fp32 (swz x.swza (lane c a i))
        let r := encodeFmt f md p.1
        (r.1, p.2 ||| r.2)
      { c.setVreg d ((List.range c.vl).map (fun i => join w (fun j =>
          if i * (32 / w) + j < c.vl then ((at_ (i * (32 / w) + j)).1 : Int) else 0))) with
        nflags := c.nflags ||| (orAll ((List.range c.vl).map (fun i => (at_ i).2))).setWidth 64 }))) ∧
  (∀ (d a k : Reg) (m : BitVec 3) (e : BitVec 2) (h : BitVec 1) (f : Fmt), fmtOf k.toNat = some f → slotSize k.toNat = e.toNat →
    e ≠ 0 → OnBoth (.vcvtw d a k m e h) .vcvtw ⟨d, a, k, m, e, h, 0⟩ (Lanewise d a 0 m (fun c _ x _ _ =>
      let w := 32 / 2 ^ e.toNat
      let md := modesOf c.nmode
      let at_ := fun (j : Nat) =>
        let p := decodeNum md f (halfElem w h x j)
        let r := widened k.toNat { md with rm := 0 } p.1
        (r.1, p.2 ||| r.2)
      (join (2 * w) (fun j => ((at_ j).1 : Int)), orAll ((List.range (32 / w / 2)).map (fun j => (at_ j).2)))))) ∧
  (∀ (d a b : Reg) (m : BitVec 3), OnBoth (.vscale d a b m) .vscale ⟨d, a, b, m, 0, 0, 0⟩ (Lanewise d a b m (fun c _ x y _ =>
    let md := modesOf c.nmode
    let p := decodeNum md .fp32 x
    let r := encodeNum .fp32 md (p.1.scale (max (-300) (min 300 (sext 32 y))))
    (BitVec.ofNat 32 r.1, p.2 ||| r.2)))) ∧
  (∀ (d a t : Reg) (m : BitVec 3), OnBoth (.vfn d a t m) .vfn ⟨d, a, t, m, 0, 0, 0⟩ (fun i len x =>
    ∀ s : State, s.me.vl ≠ 0 →
      let table := (s.ens (ensOf s.cur)).sfu.get {} t.toNat
      let pair := fun (j : Nat) => let p := table.seg.get (0, 0) j; (p.1.toNat, p.2.toNat)
      let md := modesOf s.me.nmode
      let at_ := fun (c : Core) (i : Nat) =>
        let p := decodeNum md .fp32 (swz x.swza (lane c a i))
        let r := vfnOf pair table.lo.toNat table.inv.toNat md p.1
        (BitVec.ofNat 32 r.1, r.2 ||| p.2)
      exec i s = .next (s.after len (intoVector d m x (fun c i => (at_ c i).1) (fun c i => (at_ c i).2))))) ∧
  FixedRow .vsin .vsin (vtrigOf false) ∧ FixedRow .vcos .vcos (vtrigOf true) ∧ FixedRow .vexp .vexp vexpOf ∧
  FixedRow .vlog .vlog vlogOf ∧ FixedRow .vrcp .vrcp vrcpOf ∧ FixedRow .vrsq .vrsq vrsqOf ∧
  FixedRow .vtanh .vtanh vtanhOf ∧ FixedRow .vsigm .vsigm vsigmOf

/-! ## Vector memory and queue operands (11 R229, R243–R245) -/

namespace Sys2Proof.Claim

/-- The n bytes at an address are at the places from p on, each of which passes its address check and is quiet. -/
def InPlace (s : State) (a : Word) (n p : Nat) : Prop :=
  ∀ k < n, checkAddress (a + BitVec.ofNat 64 k) s = .ok (.place (p + k), s) ∧ Quiet s (p + k)

/-- What a vector access leaves beside what it is for. -/
def VecFrame (len : Word) (s t : State) : Prop :=
  t.me.pc = s.me.pc + len ∧ t.me.retired = s.me.retired + 1 ∧ (∀ r : Reg, t.me.reg r = s.me.reg r) ∧
  t.me.nflags = s.me.nflags ∧ t.me.nmode = s.me.nmode ∧ t.me.vl = s.me.vl ∧ t.me.masks = s.me.masks ∧ t.me.cond = s.me.cond ∧
  t.queues = s.queues ∧ (∀ c, c ≠ s.cur → t.core c = s.core c) ∧ SameMem s t

/-- Nothing of the core is buffered or outstanding, and it has lanes. -/
def Ready (s : State) : Prop := s.me.vl ≠ 0 ∧ s.me.outst = [] ∧ s.me.stbuf = [] ∧ s.me.contribs = []

/-- The first access of a vector access that fails its address check is ACCESS, one that is not aligned is ALIGN; no register
and no byte changes (R231, R243). -/
def FirstFault (i : Instr) (s : State) (al : Nat) (accesses : List Word) : Prop :=
  ∀ a rest, accesses = a :: rest →
    (checkAddress a s = .error (.trap cACCESS a) → exec i s = .next (s.takeFault s.cur cACCESS a)) ∧
    (∀ l, checkAddress a s = .ok (l, s) → a.toNat % al ≠ 0 → exec i s = .next (s.takeFault s.cur cALIGN a))

/-- A vector load: its accesses `ks` of n bytes at the addresses `addr`, and what each vector register holds after it, from the
number that stood at each access. -/
def LoadRow (short : Instr) (op : VOp) (f : VFields) (n al : Nat) (ks : Core → List Nat) (addr : Core → VxFields → Nat → Word)
    (res : Core → VxFields → (Nat → Nat) → Reg → List Lane) : Prop :=
  OnBoth short op f (fun i len x => ∀ s : State, Ready s →
    FirstFault i s al ((ks s.me).map (addr s.me x)) ∧
    ∀ pl : Nat → Nat, (∀ k ∈ ks s.me, (addr s.me x k).toNat % al = 0 ∧ InPlace s (addr s.me x k) n (pl k)) →
      ∃ t, exec i s = .next t ∧ VecFrame len s t ∧ t.me.stbuf = [] ∧ ∀ r : Reg, t.me.vregs[r.toNat]'r.isLt =
        res s.me x (fun k => natOfBytes ((List.range n).map (fun j => Memory.get s.mem (pl k + j)))) r)

/-- Where registers from d on take a lane function in their active lanes, below `top`. -/
def loaded (c : Core) (x : VxFields) (m : BitVec 3) (d : Reg) (count top : Nat) (g : Nat → Nat → Lane) (r : Reg) : List Lane :=
  if d.toNat ≤ r.toNat ∧ r.toNat < d.toNat + count then
    (List.range c.vl).map (fun i => if top ≤ i then lane c r i else if on c m.toNat i then g (r.toNat - d.toNat) i
      else if x.zero = 1 then 0 else lane c r i)
  else c.vregs[r.toNat]'r.isLt

/-- The active lanes, and the numbers of their elements of w bits (R226). -/
def lanesOn (m : BitVec 3) (c : Core) : List Nat := (List.range c.vl).filter (on c m.toNat)
def elemsOn (w : Nat) (m : BitVec 3) (c : Core) : List Nat :=
  (lanesOn m c).flatMap (fun i => (List.range (32 / w)).map (fun j => i * (32 / w) + j))

end Sys2Proof.Claim

open Sys2Proof.Claim in
/-- The vector loads of majors 0x18 (R243, R244), short and under VX, at places of the chip: the addresses of the active lanes or
elements alone are checked, aligned and read; each active lane takes its bytes, and the others follow R227. VLDT loads the
block of 16 rows and columns, transposed, into 16 registers. -/
def Sys2Proof.Claim.VectorLoads : Prop :=
  ∀ (d a b : Reg) (m : BitVec 3) (e : BitVec 2),
    let w := 32 / 2 ^ e.toNat
    let p := 32 / w
    let al := if e = 3 then 1 else w / 8
    LoadRow (.vld d a m e) .vld ⟨d, a, 0, m, e, 0, 0⟩ 4 al (lanesOn m) (fun c _ i => c.reg a + BitVec.ofNat 64 (4 * i))
      (fun c x v => loaded c x m d 1 c.vl (fun _ i => BitVec.ofNat 32 (v i))) ∧
    (e ≠ 3 → LoadRow (.vlds d a b m e) .vlds ⟨d, a, b, m, e, 0, 0⟩ (w / 8) al (elemsOn w m)
      (fun c _ k => c.reg a + BitVec.ofNat 64 k * c.reg b)
      (fun c x v => loaded c x m d 1 c.vl (fun _ i => join w (fun j => v (i * p + j))))) ∧
    LoadRow (.vldx d a b m) .vldx ⟨d, a, b, m, 0, 0, 0⟩ 4 4 (lanesOn m)
      (fun c x i => c.reg a + BitVec.ofNat 64 (swz x.swzb (lane c b i)))
      (fun c x v => loaded c x m d 1 c.vl (fun _ i => BitVec.ofNat 32 (v i))) ∧
    (d = 0 ∨ d = 16 → LoadRow (.vldt d a b m e) .vldt ⟨d, a, b, m, e, 0, 0⟩ (2 * w) al
      (fun c => (List.range 16).filter (fun r => decide (r / p < c.vl) && on c m.toNat (r / p)))
      (fun c _ r => c.reg a + BitVec.ofNat 64 r * c.reg b)
      (fun c x v => loaded c x m d 16 (16 / p) (fun col i => join w (fun j => (v (i * p + j) / 2 ^ (w * col) : Nat))))) ∧
    (e ≠ 3 → LoadRow (.vldb d a m e) .vldb ⟨d, a, 0, m, e, 0, 0⟩ (w / 8) al (fun c => if lanesOn m c = [] then [] else [0])
      (fun c _ _ => c.reg a) (fun c x v => loaded c x m d 1 c.vl (fun _ _ => join w (fun _ => v 0))))

namespace Sys2Proof.Claim

/-- The byte at a place as the core itself reads it: memory under its buffered stores. -/
def look (s : State) (p : Nat) : Byte := (s.me.overlay (s.coreDom s.cur) p 1 ((Memory.get s.mem p).setWidth 128)).setWidth 8

/-- The byte at a place after stores of (place, bytes, value) in order: that of the last that covers it. -/
def lastByte (l : List (Nat × Nat × Nat)) (q : Nat) : Option Byte :=
  match (l.filter (fun y => decide (y.1 ≤ q ∧ q < y.1 + y.2.1))).reverse with
  | y :: _ => some (BitVec.ofNat 8 (y.2.2 / 256 ^ (q - y.1)))
  | [] => none

/-- A vector store: its accesses of n bytes and the value of each, in the order in which they win. Of a few accesses, all
of it is in the core's store buffer; with any number it completes. -/
def StoreRow (short : Instr) (op : VOp) (f : VFields) (n al : Nat) (ks : Core → List Nat) (addr : Core → VxFields → Nat → Word)
    (val : Core → Nat → Nat) : Prop :=
  OnBoth short op f (fun i len x => ∀ s : State, Ready s →
    FirstFault i s al ((ks s.me).map (addr s.me x)) ∧
    ∀ p : Nat → Nat, (∀ k ∈ ks s.me, (addr s.me x k).toNat % al = 0 ∧ InPlace s (addr s.me x k) n (p k)) →
      (∃ t, exec i s = .next t ∧ t.me.pc = s.me.pc + len) ∧
      ((ks s.me).length ≤ 4 → ∃ t, exec i s = .next t ∧ VecFrame len s t ∧ t.me.vregs = s.me.vregs ∧ ∀ q, 2 ^ 48 ≤ q →
        look t q = (lastByte ((ks s.me).map (fun k => (p k, n, val s.me k))) q).getD (Memory.get s.mem q)))

end Sys2Proof.Claim

open Sys2Proof.Claim in
/-- The vector stores (R243, R245), short and under VX, at places of the chip: each active lane or element is stored, in
ascending order, so where addresses repeat the highest wins; nothing else of memory changes. VST's lanes lie one after the
other from the place of lane 0. -/
def Sys2Proof.Claim.VectorStores : Prop :=
  ∀ (d a b : Reg) (m : BitVec 3) (e : BitVec 2),
    let w := 32 / 2 ^ e.toNat
    let p := 32 / w
    let al := if e = 3 then 1 else w / 8
    OnBoth (.vst d a m e) .vst ⟨d, a, 0, m, e, 0, 0⟩ (fun i len _ => ∀ s : State, Ready s →
      let addr := fun (k : Nat) => s.me.reg a + BitVec.ofNat 64 (4 * k)
      FirstFault i s al ((lanesOn m s.me).map addr) ∧
      ∀ p : Nat, (∀ k ∈ lanesOn m s.me, (addr k).toNat % al = 0 ∧ InPlace s (addr k) 4 (p + 4 * k)) →
        (∃ t, exec i s = .next t ∧ t.me.pc = s.me.pc + len) ∧
        ((lanesOn m s.me).length ≤ 4 → ∃ t, exec i s = .next t ∧ VecFrame len s t ∧ t.me.vregs = s.me.vregs ∧ ∀ q, 2 ^ 48 ≤ q →
          look t q = (lastByte ((lanesOn m s.me).map (fun k => (p + 4 * k, 4, (lane s.me d k).toNat))) q).getD (Memory.get s.mem q))) ∧
    (e ≠ 3 → StoreRow (.vsts d a b m e) .vsts ⟨d, a, b, m, e, 0, 0⟩ (w / 8) al (elemsOn w m)
      (fun c _ k => c.reg a + BitVec.ofNat 64 k * c.reg b) (fun c k => elem w (lane c d (k / p)).toNat (k % p))) ∧
    StoreRow (.vstx d a b m) .vstx ⟨d, a, b, m, 0, 0, 0⟩ 4 4 (lanesOn m)
      (fun c x i => c.reg a + BitVec.ofNat 64 (swz x.swzb (lane c b i))) (fun c i => (lane c d i).toNat)

/-- Vector loads and stores (11 R243–R245). -/
def Obligations.VectorMemory : Prop := Claim.VectorLoads ∧ Claim.VectorStores

namespace Sys2Proof.Claim

/-- Lane i of an operand popped from a queue of g granules. -/
def itemLane (g : Nat) (y : Copy) (i : Nat) : Lane := if i < 4 * g then y.item.data.extractLsb' (32 * i) 32 else 0

/-- The items of a queue that the running instance can pop, in order (R131). -/
def available (s : State) (q : QKey) : List Copy :=
  (s.queue q).items.filter (fun i => i.owner = some s.me.inst.id) ++
    (if s.binds s.cur q then [] else (s.queue q).items.filter (fun i => i.core = s.cur ∧ i.owner = none))

end Sys2Proof.Claim

open Sys2Proof.Claim in
/-- Queue operands (R229, 02 R32), said of VADD.I32 under VX, by a core that no recast concerns. A source named as a queue is the next available DATA item, its
lanes swizzled, popped once whatever the mask; the same handle in both fields pops two, a's first; another tag is TAGBAD, no
item ACCESS or, of a queue not ACTIVE, QGONE, and nothing is popped. A queue destination is one DATA item with the active
result lanes, pushed even when no lane is active. -/
def Obligations.VectorQueues : Prop :=
  ∀ (s : State) (d a b : Reg) (m : BitVec 3) (q : QKey) (sa sb : BitVec 8) (zero : BitVec 1), Idle s → Settled s → s.me.vl ≠ 0 →
    d.toNat < 16 → a.toNat < 16 → b.toNat < 16 →
    let form := fun (qd qa qb : BitVec 1) => Instr.vxLongForm .vadd ⟨d, a, b, m, 0, 0, 0⟩ ⟨sa, sb, zero, qd, qa, qb, 0⟩
    let g := (s.queue q).g
    let from_ := fun (i j : Nat → Nat) => (List.range s.me.vl).map (fun k =>
      if on s.me m.toNat k then BitVec.ofNat 32 (i k + j k) else if zero = 1 then (0 : Lane) else lane s.me d k)
    let popped := fun (t : State) (l : List Copy) =>
      (t.queue q).items = (s.queue q).items.filter (fun y => ∀ z ∈ l, ¬ (y.slot = z.slot ∧ y.core = z.core)) ∧
      (∀ k, k ≠ q → t.queue k = s.queue k) ∧ t.me.pc = s.me.pc + 8 ∧ SameMem s t
    (Maps s a q → (s.queue q).st = .active → Distinct (s.queue q) →
      (∀ i rest, available s q = i :: rest → i.item.tag = 0 → ∃ t, exec (form 0 1 0) s = .next t ∧ popped t [i] ∧
        t.me.vregs = s.me.vregs.set d.toNat (from_ (fun k => swz sa (itemLane g i k)) (fun k => swz sb (lane s.me b k))) d.isLt) ∧
      (∀ i j rest, a = b → available s q = i :: j :: rest → i.item.tag = 0 → j.item.tag = 0 →
        ∃ t, exec (form 0 1 1) s = .next t ∧ popped t [i, j] ∧
          t.me.vregs = s.me.vregs.set d.toNat (from_ (fun k => swz sa (itemLane g i k)) (fun k => swz sb (itemLane g j k))) d.isLt) ∧
      (∀ i rest, available s q = i :: rest → i.item.tag ≠ 0 →
        exec (form 0 1 0) s = .next (s.takeFault s.cur cTAGBAD (i.item.tag.setWidth 64))) ∧
      (available s q = [] → exec (form 0 1 0) s = .next (s.takeFault s.cur cACCESS (a.setWidth 64)))) ∧
    (Maps s a q → (s.queue q).st ≠ .active → available s q = [] →
      exec (form 0 1 0) s = .next (s.takeFault s.cur cQGONE (a.setWidth 64))) ∧
    (∀ id, s.me.handle d = .queue id → s.qidPkg id = s.pkg → id.extractLsb' 9 6 = 0 → qkeyOf id = q → q ≠ 502 → q / 512 = s.cur / 256 →
      1 ≤ g → g ≤ 8 → ∃ item : Item, item.tag = 0 ∧
        (∀ k < 32, item.data.extractLsb' (32 * k) 32 = if k < s.me.vl ∧ k < 4 * g ∧ on s.me m.toNat k then
          BitVec.ofNat 32 (swz sa (lane s.me a k) + swz sb (lane s.me b k)) else 0) ∧
        (∀ v, s.accept q item (s.coreDom s.cur) true = .ok v → exec (form 1 0 0) s = .next (v.after 8 (fun x => x))) ∧
        (∀ code, s.accept q item (s.coreDom s.cur) true = .error code →
          exec (form 1 0 0) s = .next (s.takeFault s.cur code (id.setWidth 64))))

/-! ## Tensors and the matrix unit (12) -/

namespace Sys2Proof.Claim

/-- R260: the table entry that an id names for the core at hand: of this package, either LOCAL or of the core's own die and
cluster, no reserved bit set. -/
def TensorId (s : State) (id : BitVec 32) (k : Nat) : Prop :=
  (id.extractLsb' 20 12 = 0xFFF ∨ id.extractLsb' 20 12 = s.pkg) ∧ id.extractLsb' 10 4 = 0 ∧
  (id.getLsbD 14 = true ∧ id.extractLsb' 15 5 = 0 ∨ id.getLsbD 14 = false ∧ (id.extractLsb' 15 5).toNat = clusterOf s.cur) ∧
  k = clusterOf s.cur * 1024 + (id.extractLsb' 0 10).toNat

/-- The entry an id names is of the caller's domain; nothing else changes but the tensor table. -/
def OwnEntry (s : State) (id : BitVec 32) (k : Nat) : Prop :=
  TensorId s id k ∧ (s.tensor k).taken = true ∧ (s.tensor k).owner = s.coreDom s.cur

end Sys2Proof.Claim

open Sys2Proof.Claim in
/-- The tensor instructions (R289–R291). TDSET, of an entry of the caller's domain, writes a well-formed image of 64 bytes read at
`s[b]`, and takes TENSOR for another; TDGET buffers the 64 bytes of a valid entry for `s[b]`, here of one page; TDALLOC takes the lowest free
entry of the cluster, not valid, and gives its id with the real package; TDFREE frees, with 2 for one that is free; TDRAG sets
RAGGED alone. An id that names no entry here, or one of another domain, is TENSOR with the id. -/
def Obligations.TensorTable : Prop :=
  ∀ (s : State) (d a b : Reg) (id : BitVec 32) (k : Nat), id = (s.me.reg a).setWidth 32 →
    let bad := fun (i : Instr) => exec i s = .next (s.takeFault s.cur cTENSOR (id.setWidth 64))
    let addr := s.me.reg b
    ((∀ j, ¬ TensorId s id j) → bad (.tdset a b) ∧ bad (.tdget a b) ∧ bad (.tdfree d a) ∧ bad (.tdrag a b)) ∧
    (TensorId s id k → (s.tensor k).taken = true → (s.tensor k).owner ≠ s.coreDom s.cur →
      bad (.tdset a b) ∧ bad (.tdget a b) ∧ bad (.tdfree d a) ∧ bad (.tdrag a b)) ∧
    (TensorId s id k → (s.tensor k).taken = false →
      bad (.tdset a b) ∧ bad (.tdget a b) ∧ bad (.tdrag a b) ∧ exec (.tdfree d a) s = .next (s.after 4 (fun x => x.setReg d 2))) ∧
    (OwnEntry s id k →
      (∀ bs u, addr.toNat % 16 = 0 → loadRange addr 64 16 s = .ok (bs, u) → u.tensors = s.tensors → u.coreSvc u.cur = s.coreSvc s.cur →
        let e : Entry := BitVec.ofNat 512 (natOfBytes bs)
        (e.wellFormed (s.coreSvc s.cur) = true → ∃ t, exec (.tdset a b) s = .next t ∧
          t.tensor k = { s.tensor k with entry := e } ∧ (∀ j, j ≠ k → t.tensor j = s.tensor j) ∧ t.me.pc = u.me.pc + 4 ∧
          (∀ r : Reg, t.me.reg r = u.me.reg r) ∧ SameMem u t) ∧
        (e.wellFormed (s.coreSvc s.cur) = false → bad (.tdset a b))) ∧
      (Entry.valid (s.tensor k).entry = false → bad (.tdget a b) ∧ bad (.tdrag a b)) ∧
      (Entry.valid (s.tensor k).entry = true → ∀ ps u, addr.toNat % 16 = 0 → s.me.stbuf = [] → mapRange addr 64 .write s = .ok (ps, u) →
        u.me.stbuf = [] → addr.toNat % 2 ^ 16 + 64 ≤ 2 ^ 16 → (∀ p ∈ ps, u.mustWait p.loc p.pa p.n false = false) → (∃ l, checkAddress addr s = .ok (l, s)) →
        ∃ t, exec (.tdget a b) s = .next t ∧ t.me.stbuf.map (fun e => (e.pa, e.n, e.value)) =
          (List.range 4).map (fun j => ((ps.map (·.pa)).getD j 0, 16, (s.tensor k).entry.extractLsb' (128 * j) 128)) ∧
          ps.length = 4 ∧ t.tensors = u.tensors ∧ SameMem u t) ∧
      (∃ t, exec (.tdfree d a) s = .next t ∧ (d ≠ 0 → t.me.reg d = 0) ∧ (t.tensor k).taken = false ∧
        (∀ j, j ≠ k → t.tensor j = s.tensor j) ∧ (∀ r : Reg, r ≠ d → t.me.reg r = s.me.reg r) ∧ SameMem s t) ∧
      (Entry.valid (s.tensor k).entry = true → Entry.rdim (s.tensor k).entry ≠ 0 → addr.extractLsb' 0 52 ≠ 0 →
        (addr.extractLsb' 52 12 = 0xFFF ∨ addr.extractLsb' 52 12 = s.pkg) → (addr.extractLsb' 48 4).toNat ∈ [0, 1, 2, 3, 6, 7, 8] →
        ∃ t, exec (.tdrag a b) s = .next t ∧ Entry.ragged (t.tensor k).entry = addr.extractLsb' 0 52 ∧
          (∀ i < 512, i < 168 ∨ 220 ≤ i → (t.tensor k).entry.getLsbD i = (s.tensor k).entry.getLsbD i) ∧
          (t.tensor k).taken = true ∧ (∀ j, j ≠ k → t.tensor j = s.tensor j) ∧ SameMem s t)) ∧
    (∀ j < 1024, (s.tensor (clusterOf s.cur * 1024 + j)).taken = false → clusterOf s.cur < 32 →
      (∀ i < j, (s.tensor (clusterOf s.cur * 1024 + i)).taken = true) → ∃ t, exec (.tdalloc d) s = .next t ∧
        (d ≠ 0 → t.me.reg d = BitVec.ofNat 64 (s.pkg.toNat * 2 ^ 20 + clusterOf s.cur * 2 ^ 15 + j)) ∧
        t.tensor (clusterOf s.cur * 1024 + j) = { taken := true, owner := s.coreDom s.cur, role := none, entry := 0 } ∧
        (∀ i, i ≠ clusterOf s.cur * 1024 + j → t.tensor i = s.tensor i) ∧ (∀ r : Reg, r ≠ d → t.me.reg r = s.me.reg r) ∧ SameMem s t) ∧
    ((∀ j < 1024, (s.tensor (clusterOf s.cur * 1024 + j)).taken = true) →
      exec (.tdalloc d) s = .next (s.after 4 (fun x => x.setReg d 0x8000000000000002)))

namespace Sys2Proof.Claim

/-- What issuing a matrix command does: it enters the core's queue of the unit with what it captured, and the pc passes. -/
def Issues (s : State) (i : Instr) (q : BitVec 32) (op : MOp) : Prop :=
  (s.me.mq.length < 16 → ∃ t c, exec i s = .next t ∧ t.me.mq = s.me.mq ++ [c] ∧ c.op = op ∧ c.q = q ∧ c.core = s.cur ∧
    c.dom = s.coreDom s.cur ∧ c.svc = s.coreSvc s.cur ∧ c.nmode = s.me.nmode ∧ c.id = s.nextId ∧
    t.happenings = [(s.now + 1, .matrixAccept (ensOf s.cur))] ∧ t.me.pc = s.me.pc + 4 ∧ (∀ r : Reg, t.me.reg r = s.me.reg r) ∧
    t.ensembles = s.ensembles ∧ t.queues = s.queues ∧ SameMem s t) ∧
  (16 ≤ s.me.mq.length → exec i s = .next s)

/-- A command captures a tensor: an entry of the caller's domain, well formed, of a format and a BASE space that the command
takes, of this package; `c` is the entry with its addresses full (R266). -/
def Captures (s : State) (id : BitVec 32) (fmts spaces : List Nat) (dense : Bool) (c : Entry) : Prop :=
  ∃ k, OwnEntry s id k ∧ let e := (s.tensor k).entry
    e.wellFormed (s.coreSvc s.cur) = true ∧ Entry.fmt e ∈ fmts ∧ (dense = true → Entry.spn e = 0) ∧
    (Entry.base e |>.extractLsb' 48 4).toNat ∈ spaces ∧ c = s.captured s.cur e ∧
    ((Entry.base e).extractLsb' 52 12 = 0xFFF ∨ (Entry.base e).extractLsb' 52 12 = s.pkg)

/-- A handle that names an ACTIVE queue of the package. -/
def Completion (s : State) (h : Reg) (q : BitVec 32) : Prop :=
  s.me.handle h = .queue q ∧ s.qidPkg q = s.pkg ∧ (s.queue (qkeyOf q)).st = .active

end Sys2Proof.Claim

open Sys2Proof.Claim in
/-- The matrix commands at issue (R271, R275, R280, R283, R285, R286), nothing of the core being on its way: with their checks
passed, each takes one entry of the core's queue of 16 with its operands' fields; with the queue full it waits. MLOADB,
MDRAIN and MNOTE name a queue: one that maps nothing or is not ACTIVE is QGONE; a tensor that a command does not take is TENSOR
with its id; an accumulator that is not mapped is ACCESS with its name; a reserved operand bit is MATQ. -/
def Obligations.MatrixCommands : Prop :=
  ∀ (s : State) (d a b : Reg) (n : BitVec 6) (acc : BitVec 3) (z : BitVec 1) (q : BitVec 32) (e : Entry) (t : Nat), Idle s → s.me.outst = [] →
    let x := s.me.reg a
    let y := s.me.reg b
    let id : BitVec 32 := x.setWidth 32
    let f := fun (lo n : Nat) => (y.toNat / 2 ^ lo) % 2 ^ n
    let i2 := x.toNat / 2 ^ 32 % 2 ^ 20
    let faults := fun (i : Instr) (code : BitVec 8) (detail : Word) => exec i s = .next (s.takeFault s.cur code detail)
    (Tbl.find? s.me.accs d.toNat = some t → Issues s (.mzero d) 0 (.zero t)) ∧
    (Tbl.find? s.me.accs d.toNat = none → faults (.mzero d) cACCESS (d.setWidth 64)) ∧
    Issues s (.mbinv n) 0 (.inval n) ∧
    (Completion s d q → Issues s (.mnote d a) q (.note x)) ∧
    (s.me.handle d = .unmapped → faults (.mnote d a) cQGONE (d.setWidth 64) ∧ faults (.mloadb d a b n) cQGONE (d.setWidth 64) ∧
      faults (.mdrain d a b z acc) cQGONE (d.setWidth 64)) ∧
    (s.me.handle d = .queue q → s.qidPkg q = s.pkg → (s.queue (qkeyOf q)).st ≠ .active →
      faults (.mnote d a) cQGONE (d.setWidth 64) ∧ faults (.mloadb d a b n) cQGONE (d.setWidth 64)) ∧
    (Completion s d q → Captures s id [3, 4, 5, 6, 7] [0, 1, 2, 7, 8] false e →
      (x.toNat < 2 ^ 52 → y.toNat < 2 ^ 40 → (Entry.spn e ≠ 0 → f 0 20 % 8 = 0) → (32 ≤ n.toNat → Entry.fmt e ∈ [5, 7]) →
        Issues s (.mloadb d a b n) q (.loadb n e i2 (f 0 20) (f 20 20))) ∧
      (2 ^ 52 ≤ x.toNat ∨ 2 ^ 40 ≤ y.toNat ∨ (Entry.spn e ≠ 0 ∧ f 0 20 % 8 ≠ 0) ∨ (32 ≤ n.toNat ∧ Entry.fmt e ∉ [5, 7]) →
        faults (.mloadb d a b n) cMATQ (Config.freeWord s.tick))) ∧
    (Completion s d q → (∀ k, ¬ OwnEntry s id k) → faults (.mloadb d a b n) cTENSOR (id.setWidth 64) ∧
      faults (.mdrain d a b z acc) cTENSOR (id.setWidth 64)) ∧
    (Captures s id [1, 3, 4, 5, 6, 7] [1, 2, 7, 8] true e → n.toNat + (f 45 6 + 1) ≤ 64 →
      (∀ j, 0 < j → j < f 45 6 + 1 → (s.role (s.me.role.getD 0)).banks.getLsbD ((n.toNat + j) % 32) = true) →
      (Tbl.find? s.me.accs d.toNat = none → faults (.mma d a b n) cACCESS (d.setWidth 64)) ∧
      (Tbl.find? s.me.accs d.toNat = some t → x.toNat < 2 ^ 52 → y.toNat < 2 ^ 51 →
        Issues s (.mma d a b n) 0 (.mma d.toNat t n (f 45 6 + 1) e i2 (f 0 20) (f 20 20) (f 40 5 + 1))) ∧
      (Tbl.find? s.me.accs d.toNat = some t → 2 ^ 52 ≤ x.toNat ∨ 2 ^ 51 ≤ y.toNat → faults (.mma d a b n) cMATQ (Config.freeWord s.tick))) ∧
    (Completion s d q → Captures s id [0, 1, 2, 3, 4, 5, 6, 7, 8, 9] [0, 1, 2, 7, 8] true e → Tbl.find? s.me.accs acc.toNat = some t →
      (x.toNat < 2 ^ 52 → y.toNat < 2 ^ 55 → (Entry.scale e ≠ 0 → Entry.layout e = false ∧ f 20 20 % Entry.bsize e = 0) →
        Issues s (.mdrain d a b z acc) q (.drain acc.toNat t (decide (z = 1)) e i2 (f 0 20) (f 20 20) (f 40 5 + 1) (sext 10 (f 45 10)))) ∧
      (2 ^ 52 ≤ x.toNat ∨ 2 ^ 55 ≤ y.toNat ∨ (Entry.scale e ≠ 0 ∧ (Entry.layout e = true ∨ f 20 20 % Entry.bsize e ≠ 0)) →
        faults (.mdrain d a b z acc) cMATQ (Config.freeWord s.tick)))

namespace Sys2Proof.Claim

/-- The unit is awake, and a command that it has accepted is its oldest. -/
def Starts (s : State) (e : EnsId) (c : MCmd) (op : MOp) : Prop :=
  (s.devGet (retReg 4 e)).getLsbD 0 = false ∧ s.transitions = [] ∧ c.op = op ∧ ∃ rest, (s.ens e).accepted = c :: rest ∧
    ∀ y ∈ rest, y.id ≠ c.id

/-- The command leaves the unit. -/
def Leaves (s t : State) (e : EnsId) : Prop :=
  (t.ens e).accepted = (s.ens e).accepted.drop 1 ∧ ∀ k, k ≠ e → t.ens k = s.ens k

/-- A completion item, field by field (Table 12.6). -/
def DoneItem (i : Item) (detail : Word) (status : BitVec 8) (f : Flags) (func unit index : Nat) : Prop :=
  i.tag = 0 ∧ i.data.extractLsb' 64 64 = detail ∧ i.data.extractLsb' 56 8 = status ∧ i.data.extractLsb' 49 7 = f ∧
  (i.data.extractLsb' 43 5).toNat = func ∧ (i.data.extractLsb' 37 6).toNat = unit ∧ i.data.extractLsb' 32 5 = 0 ∧
  i.data.getLsbD 48 = false ∧ (i.data.extractLsb' 0 32).toNat = index ∧ i.data.extractLsb' 128 896 = 0

end Sys2Proof.Claim

open Sys2Proof.Claim in
/-- The matrix unit (R272, R273, R278–R288). The arbiter goes on with its core up to the weight, else takes the next core that
has a command, and a core whose queue empties has had its turn; the accepted command is due. MZERO leaves every element +0; MBINV clears VALID, of both names and out of 4-bit
mode for a name below 32; MNOTE gives the held status, flags and count and clears them; a dense MLOADB fills 128 columns from the
plane, a failing read leaves the name invalid with its status; an MMA of an invalid bank changes no tile and holds MATQ;
an MMA of one bank and one row whose reads succeed adds that row's passes; a drain ends with the count of its positions, and
`.Z` zeroes the tile only then. MBSTAT is the word of Table 12.7. -/
def Obligations.MatrixUnit : Prop :=
  (∀ (s : State) (e : EnsId) (k : Nat) (c : MCmd) (rest : List MCmd), (s.ens e).arbCore < 8 → k < 8 → (s.core (8 * e + k)).mq = c :: rest →
    let a := (s.ens e).arbCore
    let stay := (s.core (8 * e + a)).mq ≠ [] ∧ (s.ens e).arbTaken < max 1 (s.core (8 * e + a)).weight
    (stay ∧ k = a ∨ ¬ stay ∧ ∀ j < 8, (s.core (8 * e + j)).mq ≠ [] → (k + 7 - a) % 8 ≤ (j + 7 - a) % 8) →
    ∃ t, exec (.matrixAccept e) s = .next t ∧ (t.ens e).accepted = (s.ens e).accepted ++ [{ c with at_ := s.now }] ∧ (t.core (8 * e + k)).mq = rest ∧
      (t.ens e).arbCore = k ∧ (rest = [] → 15 ≤ (t.ens e).arbTaken) ∧ (s.now, MCmd.event e c) ∈ t.happenings ∧ (∀ j, j ≠ 8 * e + k → t.core j = s.core j) ∧
      (t.ens e).tiles = (s.ens e).tiles ∧ (t.ens e).banks = (s.ens e).banks ∧ SameMem s t) ∧
  (∀ (s : State) (e : EnsId) (c : MCmd) (k : Nat), Starts s e c (.zero k) → ∃ t, exec (.mzeroExecute e c.id) s = .next t ∧ Leaves s t e ∧
    (∀ r n, (tileRow ((t.ens e).tiles.get [] k) r).getD n 0 = 0) ∧ (∀ j, j ≠ k → (t.ens e).tiles.get [] j = (s.ens e).tiles.get [] j) ∧
    (t.ens e).banks = (s.ens e).banks ∧ SameMem s t) ∧
  (∀ (s : State) (e : EnsId) (c : MCmd) (n : BitVec 6), Starts s e c (.inval n) → ∃ t, exec (.mbinvExecute e c.id) s = .next t ∧ Leaves s t e ∧
    ((t.ens e).bank n.toNat).valid = false ∧ (n.toNat < 32 → ((t.ens e).bank (n.toNat + 32)).valid = false ∧ (t.ens e).isFour n.toNat = false) ∧
    (32 ≤ n.toNat → (t.ens e).four = (s.ens e).four ∧ (t.ens e).bank (n.toNat - 32) = (s.ens e).bank (n.toNat - 32)) ∧
    (t.ens e).tiles = (s.ens e).tiles ∧ SameMem s t) ∧
  (∀ (s : State) (e : EnsId) (c : MCmd) (v : Word), Starts s e c (.note v) →
    let y := (s.core c.core).note
    ∃ u item, exec (.mnotePush e c.id) s = .next (u.pushFor c.core c.q item) ∧ Leaves s u e ∧ (u.core c.core).note = {} ∧
      DoneItem item v y.status y.flags 6 0 (y.count % 2 ^ 32) ∧ u.queues = s.queues ∧ (u.ens e).tiles = (s.ens e).tiles) ∧
  (∀ (s : State) (e : EnsId) (c : MCmd) (n : BitVec 6) (ent : Entry) (i2 k0 n0 : Nat) (v : Nat → Nat → Sys2Proof.Num) (f : Flags),
    Starts s e c (.loadb n ent i2 k0 n0) → Entry.spn ent = 0 → Entry.fmt ent ∈ [3, 4, 6] ∧ n.toNat < 32 ∨ Entry.fmt ent ∈ [5, 7] →
    (∀ col < 128, ∀ row < 128, readElem c.actor c.modes ent (planeIdx ent (n0 + col) (k0 + row) i2) s = .ok ((v col row, f), s)) →
    ∃ u item, exec (.mloadbExecute e c.id) s = .next (u.pushFor c.core c.q item) ∧ DoneItem item 0 0 f 0 n.toNat 0 ∧ Leaves s u e ∧
      (let b := (u.ens e).bank n.toNat
       b.valid = true ∧ b.fmt.toNat = Entry.fmt ent ∧ b.spn = 0 ∧ b.span = 128 ∧
       ∀ col < 128, ∀ row < 128, (b.cols.getD col []).getD row (Sys2Proof.Num.zero false) = v col row) ∧
      (u.ens e).isFour n.toNat = decide (Entry.fmt ent ∈ [5, 7]) ∧ (u.ens e).tiles = (s.ens e).tiles ∧ SameMem s u) ∧
  (∀ (s : State) (e : EnsId) (c : MCmd) (n : BitVec 6) (ent : Entry) (i2 k0 n0 : Nat) (code : BitVec 8) (detail : Word),
    Starts s e c (.loadb n ent i2 k0 n0) → loadCols c.actor c.modes ent (ent.withPkg ent.sparse) i2 k0 n0 s = .error (.trap code detail) →
    ∃ u item, exec (.mloadbExecute e c.id) s = .next (u.pushFor c.core c.q item) ∧ DoneItem item detail code 0 0 n.toNat 0 ∧
      Leaves s u e ∧ ((u.ens e).bank n.toNat).valid = false ∧ ((u.ens e).bank n.toNat).err = code.setWidth 6 ∧ SameMem s u) ∧
  (∀ (s : State) (e : EnsId) (c : MCmd) (acc k nb : Nat) (n : BitVec 6) (ent : Entry) (i2 row0 k0 rows j : Nat), acc < 8 → n.toNat + nb ≤ 64 →
    Starts s e c (.mma acc k n nb ent i2 row0 k0 rows) → j < nb → ((s.ens e).bank (n.toNat + j)).valid = false →
    (∀ i < j, ((s.ens e).bank (n.toNat + i)).valid = true) →
    ∃ u, exec (.mmaExecute e c.id) s = .next (u.report c.core cMATQ (BitVec.ofNat 64 (n.toNat + j + 256 * acc)) 0) ∧ Leaves s u e ∧
      (u.ens e).tiles = (s.ens e).tiles ∧ (u.core c.core).note.count = (s.core c.core).note.count + 1 ∧
      (u.core c.core).note.status = (if (s.core c.core).note.status = 0 then cMATQ else (s.core c.core).note.status) ∧ SameMem s u) ∧
  (∀ (s : State) (e : EnsId) (c : MCmd) (acc k : Nat) (n : BitVec 6) (ent : Entry) (i2 row0 k0 : Nat) (v : Nat → Sys2Proof.Num) (f : Flags),
    Starts s e c (.mma acc k n 1 ent i2 row0 k0 1) → let b := (s.ens e).bank n.toNat
    b.valid = true → b.bad = false → b.span ≤ 1024 → outside c.actor ent (planeIdx ent 0 row0 i2) s = .ok (false, s) →
    (∀ i < b.span, readElem c.actor c.modes ent (planeIdx ent (k0 + i) row0 i2) s = .ok ((v i, f), s)) →
    ∃ t, exec (.mmaExecute e c.id) s = .next t ∧ Leaves s t e ∧ (t.core c.core).note.count = (s.core c.core).note.count ∧ SameMem s t ∧
      (∀ col < 128, (tileRow ((t.ens e).tiles.get [] k) 0).getD col 0 = BitVec.ofNat 32
        (passAdd (passValue (Entry.fmt ent) b.fmt.toNat ((List.range b.span).map v) (b.cols.getD col []))
          ((tileRow ((s.ens e).tiles.get [] k) 0).getD col 0).toNat).1) ∧
      (∀ r, 1 ≤ r → r < 32 → tileRow ((t.ens e).tiles.get [] k) r = tileRow ((s.ens e).tiles.get [] k) r) ∧
      (∀ j, j ≠ k → (t.ens e).tiles.get [] j = (s.ens e).tiles.get [] j)) ∧
  (∀ (s u : State) (e : EnsId) (c : MCmd) (acc k : Nat) (z : Bool) (ent : Entry) (i2 row0 col0 rows j : Nat) (ex : Int) (f : Flags)
      (st : Option Stop), Starts s e c (.drain acc k z ent i2 row0 col0 rows ex) → acc < 8 → 1 ≤ rows → rows ≤ 32 →
    s.drainAll (drainWrites c.actor c.modes ent i2 row0 col0 rows ex ((s.ens e).tiles.get [] k)) 0 0 = (j, f, st, u) →
    (st = none → ∃ v item, exec (.mdrainExecute e c.id) s = .next (v.pushFor c.core c.q item) ∧
      DoneItem item 0 0 f 2 acc (rows * 128) ∧ SameMem u v ∧
      (z = true → ∀ r n, (tileRow ((v.ens e).tiles.get [] k) r).getD n 0 = 0) ∧ (z = false → (v.ens e).tiles = (u.ens e).tiles)) ∧
    (∀ code detail, st = some (.trap code detail) → ∃ v item, exec (.mdrainExecute e c.id) s = .next (v.pushFor c.core c.q item) ∧
      DoneItem item detail code f 2 acc j ∧ (v.ens e).tiles = (u.ens e).tiles ∧ SameMem u v)) ∧
  (∀ (s : State) (d : Reg) (n : BitVec 6), ∃ v : Word, exec (.mbstat d n) s = .next (s.after 4 (fun x => x.setReg d v)) ∧
    let e := s.ens (ensOf s.cur)
    let b := e.bank n.toNat
    v.extractLsb' 58 3 = b.spn ∧ v.extractLsb' 54 4 = b.fmt ∧ v.extractLsb' 48 6 = b.err ∧ v.extractLsb' 0 48 = 0 ∧
    v.getLsbD 61 = e.four.getLsbD (n.toNat % 32) ∧
    (e.accepted = [] → v.getLsbD 63 = b.valid ∧ v.getLsbD 62 = false) ∧
    (∀ c ent i2 k0 n0, e.accepted = [c] → c.op = .loadb n ent i2 k0 n0 → v.getLsbD 63 = false ∧ v.getLsbD 62 = true))

/-! ## Rounding and aligned sums (03) and the engines (13) -/

namespace Sys2Proof.Claim

/-- A finite value times 2^k, for k that makes it an integer. -/
def scaled (k : Nat) : Sys2Proof.Num → Int
  | .fin neg m e => (if neg then -(m : Int) else m) * 2 ^ (e + k).toNat
  | _ => 0

/-- A finite code of a format. -/
def Finite (f : Fmt) (c : Nat) : Prop := c < 2 ^ f.bits ∧ ∃ neg m e, decodeFloat f c = .fin neg m e

end Sys2Proof.Claim

open Sys2Proof.Claim in
/-- Rounding (R62, R63, R66, without the flush modes): of a nonzero finite value, encoding without OVF gives a finite code that is
the nearest under RNE, a half going to the even one, the greatest in magnitude not above it under RTZ, the greatest not above
it under RDN, the least not below it under RUP; INX tells whether it is the value itself. OVF is raised only by a value beyond
every finite code. -/
def Obligations.Rounding : Prop :=
  ∀ f ∈ [Fmt.fp32, .bf16, .fp16, .t8, .t6, .k4], ∀ (md : Modes) (neg : Bool) (m : Nat) (e : Int) (k : Nat),
    md.flushN = false → md.flush32 = false → m ≠ 0 → 200 ≤ k → 0 ≤ e + k →
    let r := encodeNum f md (.fin neg m e)
    let v := scaled k (.fin neg m e)
    let at_ := fun (c : Nat) => scaled k (decodeFloat f c)
    (r.2 &&& flagOVF = 0 → Finite f r.1 ∧ (r.2 &&& flagINX = 0 ↔ at_ r.1 = v) ∧ ∀ c, Finite f c →
      (md.rm = 0 → (at_ r.1 - v).natAbs ≤ (at_ c - v).natAbs ∧
        ((at_ r.1 - v).natAbs = (at_ c - v).natAbs → at_ c ≠ at_ r.1 → r.1 % 2 = 0)) ∧
      (md.rm = 1 → (at_ r.1).natAbs ≤ v.natAbs ∧ ((at_ c).natAbs ≤ v.natAbs → (at_ c).natAbs ≤ (at_ r.1).natAbs)) ∧
      (md.rm = 2 → at_ r.1 ≤ v ∧ (at_ c ≤ v → at_ c ≤ at_ r.1)) ∧
      (md.rm = 3 → v ≤ at_ r.1 ∧ (v ≤ at_ c → at_ r.1 ≤ at_ c))) ∧
    (r.2 &&& flagOVF ≠ 0 → ∀ c, Finite f c → (at_ c).natAbs < v.natAbs)

namespace Sys2Proof.Claim

/-- x / 2^q rounded to the nearest integer, a half to the even one (R71's align, R77's q). -/
def onGrid (x : Sys2Proof.Num) (q : Int) : Int := match x with
  | .fin neg m e =>
    let r := if q ≤ e then (m : Int) * 2 ^ (e - q).toNat else nearest m (2 ^ (q - e).toNat)
    if neg then -r else r
  | _ => 0

/-- R71: the exponent of a nonzero value of a format with aligned width w; an integer's is that of its block factor. -/
def exponent (f w : Nat) : Sys2Proof.Num → Option Int
  | .fin _ m e => if m = 0 then none else some (if 6 ≤ f then e + w - 2 else Nat.log2 m + e)
  | _ => none

/-- The largest exponent of a list. -/
def Top (f w : Nat) (xs : List Sys2Proof.Num) (k : Int) : Prop :=
  (∃ x ∈ xs, exponent f w x = some k) ∧ ∀ x ∈ xs, ∀ j, exponent f w x = some j → j ≤ k

def AllFinite (xs : List Sys2Proof.Num) : Prop := ∀ x ∈ xs, x.isNan = false ∧ x.isInf = false

/-- A value is the integer t times 2^q. -/
def IsScaled (x : Sys2Proof.Num) (t q : Int) : Prop := ∃ neg m e, x = .fin neg m e ∧ ∀ k : Nat, 0 ≤ e + k → 0 ≤ q + k →
  scaled k x = t * 2 ^ (q + k).toNat

/-- The exact sums of a block over the rows of its ranks (R77; 13 R310). -/
def redSums (rows : List (List Sys2Proof.Num)) (n : Nat) : List (Sys2Proof.Num × Flags) :=
  let es := emaxOf n (rows.map maxima)
  redChunk es (rows.map (alignedRow es)) n

/-- Table 3.9. -/
def width : Nat → Nat
  | 1 => 12
  | 5 | 7 => 4
  | _ => 8

end Sys2Proof.Claim

open Sys2Proof.Claim in
/-- The aligned-block rule. A pass over one group of 32 positions (R71–R73) is the exact sum of the products of its aligned
integers, scaled by the two shifts, and +0 when one side is all zero; an XRED block (R77) is the exact sum of the q of its
ranks, for each element, scaled by 2^(emax − 46); NaNs and infinities are resolved first, INV raised where there is no sum. -/
def Obligations.AlignedSums : Prop :=
  (∀ fa ∈ [1, 3, 4, 5, 6, 7], ∀ fb ∈ [3, 4, 5, 6, 7], ∀ A B : List Sys2Proof.Num, A.length = 32 → B.length = 32 →
    let v := passValue fa fb A B
    let P := A.zip B
    (AllFinite A → AllFinite B → ∀ ea eb, Top fa (width fa) A ea → Top fb (width fb) B eb →
      let qa := ea - ((width fa : Int) - 2)
      let qb := eb - ((width fb : Int) - 2)
      v.2 = 0 ∧ IsScaled v.1 (P.map (fun p => onGrid p.1 qa * onGrid p.2 qb)).sum (qa + qb)) ∧
    (AllFinite A → AllFinite B → (∀ x ∈ A, x.isZero = true) ∨ (∀ x ∈ B, x.isZero = true) → v.2 = 0 ∧ ∃ e, v.1 = .fin false 0 e) ∧
    ((∃ p ∈ P, p.1.isNan = true ∨ p.2.isNan = true) → v = (.nan false, 0)) ∧
    ((∀ p ∈ P, p.1.isNan = false ∧ p.2.isNan = false) → (∃ p ∈ P, p.1.isInf = true ∧ p.2.isZero = true) → v = (.nan false, flagINV)) ∧
    (∀ n, (∀ p ∈ P, p.1.isNan = false ∧ p.2.isNan = false) → (∃ p ∈ P, p.1.isInf = true) →
      (∀ p ∈ P, p.1.isInf = true → p.2.isZero = false ∧ (p.1.isNeg != p.2.isNeg) = n) → v = (.inf n, 0))) ∧
  (∀ (rows : List (List Sys2Proof.Num)) (n j : Nat), j < n → n ≤ 32 → (∀ r ∈ rows, r.length = n) →
    let v := (redSums rows n).getD j (.nan false, 0)
    let xs := rows.map (fun r => r.getD j (Sys2Proof.Num.zero false))
    (AllFinite xs → ∀ emax, Top 0 8 rows.flatten emax → v.2 = 0 ∧ IsScaled v.1 (xs.map (fun x => onGrid x (emax - 46))).sum (emax - 46)) ∧
    (AllFinite xs → (∀ x ∈ rows.flatten, exponent 0 8 x = none) → v.2 = 0 ∧ ∃ e, v.1 = .fin false 0 e) ∧
    ((∃ x ∈ xs, x.isNan = true) → v = (.nan false, 0)) ∧
    (∀ b, (∀ x ∈ xs, x.isNan = false) → (∃ x ∈ xs, x.isInf = true) → (∀ x ∈ xs, x.isInf = true → x.isNeg = b) → v = (.inf b, 0)) ∧
    ((∀ x ∈ xs, x.isNan = false) → (∃ x ∈ xs, x = .inf true) → (∃ x ∈ xs, x = .inf false) → v = (.nan false, flagINV)))

namespace Sys2Proof.Claim

/-- R300: the table entry that an id names for an engine: of any cluster of the package, or LOCAL. -/
def EngineId (s : State) (id : BitVec 32) (k : Nat) : Prop :=
  (id.extractLsb' 20 12 = 0xFFF ∨ id.extractLsb' 20 12 = s.pkg) ∧ id.extractLsb' 10 4 = 0 ∧
  (id.getLsbD 14 = true → id.extractLsb' 15 5 = 0) ∧
  k = (if id.getLsbD 14 then clusterOf s.cur else (id.extractLsb' 15 5).toNat) * 1024 + (id.extractLsb' 0 10).toNat

/-- A dense well-formed entry of the caller's domain, as the command captures it; `own`: its BASE is of the package (R311). -/
def EngineTensor (s : State) (own : Bool) (id : BitVec 32) (c : Entry) : Prop :=
  ∃ k, EngineId s id k ∧ (own = true → (Entry.base (s.tensor k).entry).extractLsb' 52 12 = 0xFFF ∨
    (Entry.base (s.tensor k).entry).extractLsb' 52 12 = s.pkg) ∧ (s.tensor k).taken = true ∧ (s.tensor k).owner = s.coreDom s.cur ∧
    (s.tensor k).entry.wellFormed (s.coreSvc s.cur) = true ∧ Entry.spn (s.tensor k).entry = 0 ∧ c = s.captured s.cur (s.tensor k).entry

/-- R298: the engine of the core's own die with the fewest commands, the lowest of them. -/
def Fewest (s : State) (g : Nat) : Prop :=
  let load := fun (e : Nat) => (s.engine e).queue.length + (s.engine e).running.length
  g / 32 = s.cur / 4096 ∧ ∀ e, e / 32 = s.cur / 4096 → load g ≤ load e ∧ (load g = load e → g ≤ e)

/-- What placing a command on an engine does (R297): it starts while fewer than four run, else takes an entry of the queue of 32,
else waits at issue. -/
def Places (s : State) (i : Instr) (g : Nat) (q : BitVec 32) (start : Nat) (op : XOp) : Prop :=
  let e := s.engine g
  let holds := fun (t : State) (c : XCmd) => c.op = op ∧ c.id = s.nextId ∧ c.core = s.cur ∧ c.q = q ∧ c.dom = s.coreDom s.cur ∧
    c.svc = s.coreSvc s.cur ∧ c.nmode = s.me.nmode ∧ c.start = start ∧ c.pos = start ∧ c.flags = 0 ∧
    t.me.pc = s.me.pc + 4 ∧ (∀ r : Reg, t.me.reg r = s.me.reg r) ∧ t.queues = s.queues ∧ (∀ k, k ≠ g → t.engine k = s.engine k) ∧ SameMem s t
  (e.queue = [] → e.running.length < 4 → ∃ t c, exec i s = .next t ∧ holds t c ∧ (t.engine g).queue = [] ∧
    (t.engine g).running = e.running ++ [c]) ∧
  (4 ≤ e.running.length → e.queue.length < 32 → ∃ t c, exec i s = .next t ∧ holds t c ∧ (t.engine g).running = e.running ∧
    (t.engine g).queue = e.queue ++ [c]) ∧
  (32 ≤ e.queue.length → exec i s = .next s)

/-- The checks of a control word (R305, R316): reserved bits zero, the start index within the count, or 0 without `.RES`. -/
def Control (w : Word) (res : BitVec 1) (count : Nat) : Prop :=
  w.extractLsb' 7 9 = 0 ∧ w.extractLsb' 56 8 = 0 ∧ (if res = 1 then (w.extractLsb' 16 40).toNat ≤ count else w.extractLsb' 16 40 = 0)

/-- An engine's completion item, field by field (Table 13.3). -/
def DoneEngine (i : Item) (detail : Word) (status : BitVec 8) (f : Flags) (func eng index : Nat) : Prop :=
  i.tag = 0 ∧ i.data.extractLsb' 64 64 = detail ∧ i.data.extractLsb' 56 8 = status ∧ i.data.extractLsb' 49 7 = f ∧
  (i.data.extractLsb' 46 3).toNat = func ∧ (i.data.extractLsb' 40 6).toNat = eng ∧ (i.data.extractLsb' 0 40).toNat = index ∧
  i.data.extractLsb' 128 896 = 0

/-- The elements of a tensor (R301). -/
def total (e : Entry) : Nat := Entry.ext e 0 * Entry.ext e 1 * Entry.ext e 2 * Entry.ext e 3 * Entry.ext e 4 * Entry.ext e 5

end Sys2Proof.Claim

open Sys2Proof.Claim in
/-- The engine instructions at issue (R297–R301, R305, R309, R311, R316–R318), nothing of the core being on its way. XCOPY, XFILL
and XRED whose checks pass place a command with what it captured on the engine that the operand names or ANY chooses; an id
that names no tensor they take is TENSOR; a failed check of the control word, the shapes or the descriptor is COPY. XSTAT gives
the word of Table 13.7; XABORT ends the core's running local copy with COPY and detail 1 and gives the number ended. -/
def Obligations.EngineCommands : Prop :=
  ∀ (s : State) (d a b : Reg) (res : BitVec 1) (q : BitVec 32) (S D : Entry) (g : Nat), Idle s → s.me.outst = [] →
    let x := s.me.reg a
    let w := s.me.reg b
    let faults := fun (i : Instr) (code : BitVec 8) (detail : Word) => exec i s = .next (s.takeFault s.cur code detail)
    let named := if w.getLsbD 6 then Fewest s g else g = (w.extractLsb' 0 6).toNat
    let shapes := Entry.rank S = Entry.rank D ∧ ∀ k < 6, Entry.ext S k = Entry.ext D k
    let here := (Entry.base S).extractLsb' 52 12 = s.pkg ∨ (Entry.base D).extractLsb' 52 12 = s.pkg
    (s.cur < 8192 → Completion s d q → EngineTensor s false (x.extractLsb' 0 32) S → EngineTensor s false (x.extractLsb' 32 32) D →
      (Control w res (total D) → total D < 2 ^ 40 → shapes → here → named →
        Places s (.xcopy d a b res) g q (w.extractLsb' 16 40).toNat (.copy S D)) ∧
      (¬ Control w res (total D) ∨ 2 ^ 40 ≤ total D ∨ ¬ shapes ∨ ¬ here → faults (.xcopy d a b res) cCOPY (Config.freeWord s.tick))) ∧
    (s.cur < 8192 → Completion s d q → EngineTensor s false (x.extractLsb' 0 32) D →
      (Control w res (total D) → total D < 2 ^ 40 → named →
        Places s (.xfill d a b res) g q (w.extractLsb' 16 40).toNat (.fill D (x.extractLsb' 32 32))) ∧
      (¬ Control w res (total D) ∨ 2 ^ 40 ≤ total D → faults (.xfill d a b res) cCOPY (Config.freeWord s.tick))) ∧
    (Completion s d q → (∀ k, ¬ EngineId s (x.extractLsb' 0 32) k) → ∀ i ∈ [Instr.xcopy d a b res, .xfill d a b res, .xred d a b res],
      faults i cTENSOR ((x.extractLsb' 0 32).setWidth 64)) ∧
    (s.me.handle d = .unmapped → ∀ i ∈ [Instr.xcopy d a b res, .xfill d a b res, .xred d a b res], faults i cQGONE (d.setWidth 64)) ∧
    (∀ bs, Completion s d q → EngineTensor s true (x.extractLsb' 0 32) S → EngineTensor s true (x.extractLsb' 32 32) D →
      x.extractLsb' 32 32 ≠ 0 → Entry.fmt S ≤ 5 → Entry.fmt D ≤ 5 → total S < 2 ^ 40 → total D < 2 ^ 40 → loadRange w 32 16 s = .ok (bs, s) →
      let y : BitVec 256 := BitVec.ofNat 256 (natOfBytes bs)
      let start := (y.extractLsb' 88 40).toNat
      let good := y.extractLsb' 208 16 = 0 ∧ y.extractLsb' 168 6 = 0 ∧ y.extractLsb' 128 8 = 0 ∧ y.extractLsb' 80 8 = 0 ∧
        y.extractLsb' 0 73 = 0 ∧ (y.extractLsb' 136 16).toNat ≤ (y.extractLsb' 152 16).toNat ∧ y.extractLsb' 180 12 ≠ 0xFFF ∧
        (if res = 1 then start % 1024 = 0 ∧ start ≤ total S else start = 0)
      (¬ good → faults (.xred d a b res) cCOPY (Config.freeWord s.tick)) ∧
      (good → start ≠ total S → y.getLsbD 79 = false → y.extractLsb' 180 12 = s.pkg → g = (y.extractLsb' 73 6).toNat →
        Places s (.xred d a b res) g q start (.red S (some D)
          { pkg := s.pkg, eng := BitVec.ofNat 6 g, id := s.nextId, key := y.extractLsb' 224 32, rank := (y.extractLsb' 136 16).toNat
            ranks := (y.extractLsb' 152 16).toNat + 1, start := start, count := total S, fmt := BitVec.ofNat 4 (Entry.fmt S)
            dst := some (BitVec.ofNat 4 (Entry.fmt D)), dcount := total D, nmode := s.me.nmode
            tmo := (y.extractLsb' 192 16).toNat } s.pkg (y.extractLsb' 174 6)))) ∧
    (64 ≤ x.toNat → faults (.xstat d a) cCOPY (Config.freeWord s.tick) ∧ faults (.xabort d a) cCOPY (Config.freeWord s.tick)) ∧
    (x.toNat < 64 → let e := s.engine x.toNat
      e.queue.length ≤ 32 → e.running.length ≤ 4 → e.roots.length ≤ 8 →
        ∃ v : Word, exec (.xstat d a) s = .next (s.after 4 (fun y => y.setReg d v)) ∧ v.getLsbD 63 = decide (e.running ≠ []) ∧
          (v.extractLsb' 57 6).toNat = e.queue.length ∧ (v.extractLsb' 54 3).toNat = e.running.length ∧
          (v.extractLsb' 50 4).toNat = e.roots.length ∧
          ∀ c rest, e.running = c :: rest → c.pos < 2 ^ 40 → (v.extractLsb' 0 40).toNat = c.pos - c.start) ∧
    (∀ (c : XCmd) (A B : Entry), x.toNat < 64 → (s.engine x.toNat).queue = [] → (s.engine x.toNat).running = [c] → c.core = s.cur →
      c.op = .copy A B → c.sent = [] → c.stop = none →
      ∃ u item, DoneEngine item 1 cCOPY c.flags 0 x.toNat (c.pos % 2 ^ 40) ∧ u.queues = s.queues ∧ (u.engine x.toNat).running = [] ∧
        SameMem s u ∧ exec (.xabort d a) s = .next ((u.pushFor c.core c.q item).after 4 (fun y => y.setReg d 1))) ∧
    (x.toNat < 64 → (∀ c ∈ (s.engine x.toNat).queue ++ (s.engine x.toNat).running, c.core ≠ s.cur) →
      exec (.xabort d a) s = .next (s.after 4 (fun y => y.setReg d 0)))

namespace Sys2Proof.Claim

/-- An engine that runs one command alone. -/
def RunsAlone (s : State) (g : Nat) (c : XCmd) : Prop :=
  g < 64 ∧ (s.engine g).queue = [] ∧ (s.engine g).running = [c] ∧ c.sent = [] ∧ c.stop = none ∧ c.saved = [] ∧
  c.written = [] ∧ c.tail = [] ∧ c.tailFlags = 0

/-- A place computed from a base stays in its space and package (12 R264). -/
def SameSpace (base addr : Word) : Prop := addr.extractLsb' 48 16 = base.extractLsb' 48 16

/-- The command ends with its completion item, and nothing else of it is left. -/
def Ends (i : Instr) (s u : State) (g : Nat) (c : XCmd) (detail : Word) (status : BitVec 8) (f : Flags) (func index : Nat) : Prop :=
  ∃ item, DoneEngine item detail status f func g index ∧ exec i s = .next (u.pushFor c.core c.q item) ∧ (u.engine g).running = [] ∧
    (∀ k, k ≠ g → u.engine k = s.engine k) ∧ u.queues = s.queues

/-- A rank that has arrived at a root agrees with those there (R311). -/
def Agrees (c : Coll) (r : RankArrival) : Prop :=
  (∀ y ∈ c.arrived, y.rank ≠ r.rank ∧ y.ranks = r.ranks ∧ y.start = r.start ∧ y.count = r.count) ∧ r.dcount = r.count ∧
  r.fmt.toNat ≤ 5 ∧ ∀ f, r.dst = some f → f.toNat ≤ 5

/-- A collective as it is begun (R310). -/
def begun (r : RankArrival) (arrived : List RankArrival) (by_ : Nat) : Coll :=
  { key := r.key, arrived := arrived, pos := r.start, deadline := by_, st := .idle, rows := [], emax := [], heard := [] }

end Sys2Proof.Claim

open Sys2Proof.Claim in
/-- The engines at work (R302–R304, R307, R310–R313). The last element of a copy of equal 4-byte formats between places of the chip
moves its bytes and nothing else, and ends the command with status 0 and the count; that of an INT32 fill writes the value; a
source that fails its checks ends the copy there, with the code, the address and the index, and no byte changes. At a root a
rank begins a collective with its deadline, joins it, makes it run when it is the last, waits, with its deadline, when eight are
held, and ends it with COPY when it disagrees; a chunk without all ranks changes nothing; the last chunk of a single rank that receives nothing ends
it; a passed deadline ends it with TIMEOUT, one that has not passed is waited for. -/
def Obligations.EngineRuns : Prop :=
  (∀ (s : State) (g n p q : Nat) (c : XCmd) (S D : Entry), RunsAlone s g c → c.op = .copy S D → 0 < n → total D < 2 ^ 40 →
    c.pos + 1 = total D → (Entry.base S).extractLsb' 52 12 = s.pkg → (Entry.base D).extractLsb' 52 12 = s.pkg →
    Entry.fmt S = Entry.fmt D → Entry.fmt D = 0 ∨ Entry.fmt D = 8 → Entry.scale S = 0 → Entry.scale D = 0 →
    (∀ k < 6, Entry.ext S k = Entry.ext D k) → Entry.rdim S = 0 → Entry.rdim D = 0 →
    let from_ := (S.place (S.idx c.pos)).1
    let to_ := (D.place (D.idx c.pos)).1
    SameSpace (Entry.base S) from_ → SameSpace (Entry.base D) to_ → mirrorOf q = none →
    from_.toNat % 4 = 0 → to_.toNat % 4 = 0 → unitPlace c.actor from_ .read s = .ok (p, s) → unitPlace c.actor to_ .write s = .ok (q, s) →
    Quiet s p → Quiet s q → s.inFrameArea q = false → s.redCells = [] → (∀ k, (s.core k).arms = []) → Memory.wf s.mem →
    ∃ u, Ends (.xcopyExecute (BitVec.ofNat 6 g) c.id n) s u g c 0 0 c.flags 0 (total D) ∧
      ∀ a, Memory.get u.mem a = if q ≤ a ∧ a < q + 4 then Memory.get s.mem (p + (a - q)) else Memory.get s.mem a) ∧
  (∀ (s : State) (g n q : Nat) (c : XCmd) (D : Entry) (v : BitVec 32), RunsAlone s g c → c.op = .fill D v → 0 < n → total D < 2 ^ 40 →
    c.pos + 1 = total D → (Entry.base D).extractLsb' 52 12 = s.pkg → Entry.fmt D = 8 → Entry.scale D = 0 → Entry.rdim D = 0 →
    let to_ := (D.place (D.idx c.pos)).1
    SameSpace (Entry.base D) to_ → mirrorOf q = none →
    to_.toNat % 4 = 0 → unitPlace c.actor to_ .write s = .ok (q, s) → Quiet s q → s.inFrameArea q = false → s.redCells = [] →
    (∀ k, (s.core k).arms = []) → Memory.wf s.mem →
    ∃ u, Ends (.xfillExecute (BitVec.ofNat 6 g) c.id n) s u g c 0 0 c.flags 2 (total D) ∧
      ∀ a, Memory.get u.mem a = if q ≤ a ∧ a < q + 4 then v.extractLsb' (8 * (a - q)) 8 else Memory.get s.mem a) ∧
  (∀ (s : State) (g n : Nat) (c : XCmd) (S D : Entry), RunsAlone s g c → c.op = .copy S D → 0 < n → total D < 2 ^ 40 →
    c.pos < total D → (Entry.base S).extractLsb' 52 12 = s.pkg → (Entry.base D).extractLsb' 52 12 = s.pkg →
    Entry.fmt S = 8 → Entry.fmt D = 8 → Entry.scale S = 0 → Entry.scale D = 0 → (∀ k < 6, Entry.ext S k = Entry.ext D k) →
    Entry.rdim S = 0 → (Entry.base S).extractLsb' 48 4 ≠ (Entry.base D).extractLsb' 48 4 →
    let from_ := (S.place (S.idx c.pos)).1
    from_.toNat % 4 = 0 → unitPlace c.actor from_ .read s = .error (.trap cACCESS from_) →
    ∃ u, Ends (.xcopyExecute (BitVec.ofNat 6 g) c.id n) s u g c from_ cACCESS c.flags 0 c.pos ∧ SameMem s u) ∧
  (∀ (s : State) (eng : BitVec 6) (r : RankArrival), r.pkg ≠ s.pkg → let g := s.engine eng.toNat
    let by_ := s.now + (if r.tmo = 0 then 1000 else r.tmo) * 2000
    (8 ≤ g.roots.length → (∀ k ∈ g.roots, k.key ≠ r.key) → (∀ w ∈ g.waiting, w.1.key ≠ r.key) → ∃ t, exec (.xredRootArrival eng r) s = .next t ∧
      t.engine eng.toNat = { g with waiting := g.waiting ++ [(r, s.now)] } ∧
      t.happenings = s.happenings ++ [(by_, .xredDeadline s.pkg eng r.key)] ∧ SameMem s t) ∧
    (g.roots.length < 8 → g.waiting = [] → (∀ k ∈ g.roots, k.key ≠ r.key) → Agrees (begun r [] by_) r → r.ranks ≠ 1 →
      ∃ t, exec (.xredRootArrival eng r) s = .next t ∧ (t.engine eng.toNat).roots = g.roots ++ [begun r [r] by_] ∧
        t.happenings = s.happenings ++ [(by_, .xredDeadline s.pkg eng r.key)] ∧ SameMem s t) ∧
    (∀ c, g.roots = [c] → g.waiting = [] → c.key = r.key → Agrees c r → c.arrived.length + 1 = r.ranks → ∃ t, exec (.xredRootArrival eng r) s = .next t ∧
      (t.engine eng.toNat).roots = [{ c with arrived := c.arrived ++ [r] }] ∧
      t.happenings = s.happenings ++ [(s.now + 1, .xredChunk eng r.key [] .none)] ∧ SameMem s t) ∧
    (∀ c, g.roots = [c] → g.waiting = [] → c.key = r.key → ¬ Agrees c r → c.arrived = [] → ∃ u, (u.engine eng.toNat).roots = [] ∧
      exec (.xredRootArrival eng r) s = .next
        (u.send r.pkg (.chunk r.eng eng c.key (.ended r.rank cCOPY 65536 (min r.start c.pos)))) ∧ SameMem s u)) ∧
  (∀ (s : State) (eng : BitVec 6) (c : Coll) (r : RankArrival) (rest : List RankArrival), (s.engine eng.toNat).roots = [c] →
    (s.engine eng.toNat).waiting = [] → c.heard = [] → c.arrived = r :: rest → rest.length + 1 ≠ r.ranks →
    ∃ t, exec (.xredChunk eng c.key [] .none) s = .next t ∧ (∀ k, t.engine k = s.engine k) ∧ t.happenings = s.happenings ∧
      t.egress = s.egress ∧ t.queues = s.queues ∧ SameMem s t) ∧
  (∀ (s : State) (g : Nat) (c : XCmd) (k : Coll) (r : RankArrival) (S : Entry) (v : Nat → Sys2Proof.Num) (root : BitVec 6),
    RunsAlone s g c → g = root.toNat → c.op = .red S none r s.pkg root → (s.engine g).roots = [k] → (s.engine g).waiting = [] →
    k.key = r.key → k.st = .idle → k.heard = [] → k.arrived = [r] → r.ranks = 1 → r.pkg = s.pkg → r.eng = root → r.id = c.id → r.count = k.pos + 32 → r.count < 2 ^ 40 → r.nmode = 0 →
    (∀ j < 32, readElem c.actor c.modes S (S.idx (k.pos + j)) s = .ok ((v j, 0), s)) →
    ∃ u, Ends (.xredChunk root r.key [] .none) s u g c 0 0
        (c.flags ||| orAll ((List.range 32).map (fun j => let p := (redSums [(List.range 32).map v] 32).getD j (.nan false, 0)
          p.2 ||| (encodeNum .fp32 plainModes p.1).2))) 1 r.count ∧
      (u.engine g).roots = [] ∧ SameMem s u) ∧
  (∀ (s : State) (eng : BitVec 6) (c : Coll), (s.engine eng.toNat).roots = [c] →
    (s.now < c.deadline → s.happenings = [] → ∃ t, exec (.xredDeadline s.pkg eng c.key) s = .next t ∧ t.engine eng.toNat = s.engine eng.toNat ∧
      t.happenings = [(c.deadline, .xredDeadline s.pkg eng c.key)] ∧ SameMem s t) ∧
    (∀ r, c.deadline ≤ s.now → c.arrived = [r] → r.ranks ≠ 1 → r.ranks ≠ 0 → r.pkg ≠ s.pkg → (s.engine eng.toNat).waiting = [] → ∃ u, (u.engine eng.toNat).roots = [] ∧
      exec (.xredDeadline s.pkg eng c.key) s = .next (u.send r.pkg (.chunk r.eng eng c.key (.ended r.rank cTIMEOUT 65536 c.pos))) ∧ SameMem s u))

/-! ## Remote access and cues (15) -/

namespace Sys2Proof.Claim

/-- R323: the checks of R15 that a remote request makes at issue: one of the spaces 0 to 3, no offset bit that no field names, at
role level not the reserved top of chip SRAM. -/
def Names (s : State) (addr : Word) : Prop :=
  let space := (addr.extractLsb' 48 4).toNat
  let off := (addr.extractLsb' 0 48).toNat
  space ≤ 3 ∧ (space = 1 → off / 2 ^ 27 % 2 ^ 20 = 0 ∧ (s.coreSvc s.cur = false → off % 2 ^ 27 < 0x07C00000)) ∧
  (space = 2 → off / 2 ^ 22 % 2 ^ 21 = 0) ∧ (space = 3 → off / 2 ^ 14 % 2 ^ 21 = 0)

/-- The package that an address names. -/
def pkgOf (s : State) (addr : Word) : BitVec 12 := if addr.extractLsb' 52 12 = 0xFFF then s.pkg else addr.extractLsb' 52 12

/-- The cue-table entry of a cue, and R328: the entry is in use with the cue's generation, and its lifetime runs. -/
def entryOf (s : State) (c : BitVec 32) : Cue := s.cue (c.extractLsb' 8 12).toNat
def Current (s : State) (c : BitVec 32) : Prop :=
  (entryOf s c).st ≠ .free ∧ (entryOf s c).gen = c.extractLsb' 0 8 ∧
  s.now < (entryOf s c).issuedAt + (s.devGet (lifeReg (entryOf s c).dom)).toNat * 2000

/-- R337: a store may carry the null cue, another package's, or one of this package's that is neither stale nor FAILED. -/
def MayCarry (s : State) (c : BitVec 32) : Prop :=
  c.extractLsb' 0 8 = 0 ∨ (c.extractLsb' 20 12 ≠ 0xFFF ∧ (c.extractLsb' 20 12 = s.pkg → Current s c ∧ (entryOf s c).st ≠ .failed))

/-- Nothing of the core is buffered, contributed or being read: a remote request goes at once (09 R192, R193). -/
def Quick (s : State) : Prop := s.me.stbuf = [] ∧ s.me.contribs = [] ∧ ∀ o ∈ s.me.outst, o.read = true → o.inst ≠ s.me.inst.id

/-- R329 steps 2 and 3: the mark of a carried cue and the destinations its entry then holds. -/
def Marked (s t : State) (c : BitVec 32) (dst : BitVec 12) (m : CueMark) : Prop :=
  let e := entryOf s c
  let e' := entryOf t c
  if c.extractLsb' 0 8 = 0 then m = .plain
  else if c.extractLsb' 20 12 ≠ s.pkg then m = .watch
  else if e.st = .landed then m = .landed ∧ e' = e
  else if dst ∈ e.dest then m = .plain ∧ e' = e
  else if e.dest.length < 16 then m = .plain ∧ e' = { e with dest := e.dest ++ [dst] }
  else m = .watch ∧ e'.dest = e.dest ∧ e'.overrun = true

/-- The remote stores: the instruction, the cue it carries, whether it returns one, its length. -/
def remoteStores (s : State) (d a b c : Reg) (w : BitVec 2) : List (Instr × BitVec 32 × Bool × Word) :=
  [(.stx d a b w, 0, true, 4), (.stCue d a b w, (s.me.reg d).setWidth 32, false, 4),
   (.stxCue d a b c w, (s.me.reg c).setWidth 32, true, 8)]

/-- A request leaves: one more outstanding slot of the instance, and the request on its way to the package it names, after what
the instruction did to the cue table (`u`). -/
def Leaves1 (s u : State) (i : Instr) (len : Word) (dst : BitVec 12) (m : Msg) (o : Outst) (f : Core → Core) : Prop :=
  u.me = { s.me with outst := s.me.outst ++ [o] } ∧ (∀ k, k ≠ s.cur → u.core k = s.core k) ∧ u.cur = s.cur ∧ u.queues = s.queues ∧
  SameMem s u ∧ u.trunks = s.trunks ∧ u.routes = s.routes ∧ u.egress = s.egress ∧ exec i s = .next ((u.send dst m).after len f)

end Sys2Proof.Claim

open Sys2Proof.Claim in
/-- The remote stores (R323, R324, R328, R329, R337), with nothing of the core before them and no error of the cue table armed. A bad field is ACCESS, a misaligned address ALIGN, a cue that may not be
carried CUEBAD, in that order. With 64 slots in use, or no FREE cue-table entry for the cue that it returns, the store waits.
Else it takes a slot, and the lowest FREE entry as a new PENDING cue of the next generation, whose lifetime's end is pending;
marks the cue that it carries; sends the low bytes of `s[b]` to the package of the address; and writes the new cue to `s[d]`. -/
def Sys2Proof.Claim.RemoteStores : Prop :=
  ∀ (s : State) (d a b c : Reg) (w : BitVec 2), Quick s → (s.dev.get 0 (injReg 5 0)).getLsbD 63 = false →
    let addr := s.me.reg a
    let n := 2 ^ w.toNat
    let dst := pkgOf s addr
    ∀ f ∈ remoteStores s d a b c w,
      let free := fun (k : Nat) => k < 4096 ∧ (s.cue k).st = .free
      (¬ Names s addr → exec f.1 s = .next (s.takeFault s.cur cACCESS addr)) ∧
      (Names s addr → addr.toNat % n ≠ 0 → exec f.1 s = .next (s.takeFault s.cur cALIGN addr)) ∧
      (Names s addr → addr.toNat % n = 0 → ¬ MayCarry s f.2.1 → exec f.1 s = .next (s.takeFault s.cur cCUEBAD (f.2.1.setWidth 64))) ∧
      (Names s addr → addr.toNat % n = 0 → MayCarry s f.2.1 →
        (64 ≤ s.me.outst.length ∨ (f.2.2.1 = true ∧ ∀ k, ¬ free k) → exec f.1 s = .next s) ∧
        (s.me.outst.length < 64 → ∀ k, (f.2.2.1 = true → free k ∧ ∀ j, free j → k ≤ j) →
          let gen : BitVec 8 := if (s.cue k).gen = 255 then 1 else (s.cue k).gen + 1
          let new : BitVec 32 := if f.2.2.1 then s.pkg ++ BitVec.ofNat 12 k ++ gen else 0
          ∃ u mark, Marked s u f.2.1 dst mark ∧
            (f.2.2.1 = true → (u.cue k).st = .pending ∧ (u.cue k).gen = gen ∧ (u.cue k).target = dst ∧ (u.cue k).dom = s.coreDom s.cur ∧
              (u.cue k).issuedAt = s.now ∧ (u.cue k).dest = [] ∧ u.happenings = s.happenings ++
                [(s.now + (s.devGet (lifeReg (s.coreDom s.cur))).toNat * 2000, .cueEntryFree (BitVec.ofNat 12 k))]) ∧
            (f.2.2.1 = false → u.happenings = s.happenings) ∧
            (∀ j, j ≠ (f.2.1.extractLsb' 8 12).toNat → (f.2.2.1 = true → j ≠ k) → u.cue j = s.cue j) ∧
            Leaves1 s u f.1 f.2.2.2 dst
              (.request { serial := s.nextId, origin := s.pkg, core := s.cur, domain := s.coreDom s.cur, svc := s.coreSvc s.cur
                          inst := s.me.inst.id, pc := s.me.pc, addr := addr
                          kind := .store n (BitVec.ofNat 64 ((s.me.reg b).toNat % 2 ^ (8 * n))) f.2.1 mark new })
              { serial := s.nextId, inst := s.me.inst.id, store := true, read := false, addr := addr, qid := none, cue := 0, notice := false
                at_ := s.now }
              (fun y => if f.2.2.1 then y.setReg d (new.setWidth 64) else y)))

open Sys2Proof.Claim in
/-- CUEQ, GETQ and AMOQ (R323, R324, R338, R339), with nothing of the core before them. A handle whose queue is not ACTIVE is QGONE, before GETQ's and AMOQ's alignment
and after their fields' check. With 64 slots in use each waits. GETQ and AMOQ send their read or atomic to the package of the
address, with the handle's queue for the answer; CUEQ asks the cue's origin, a null cue being answered at once with 0. -/
def Sys2Proof.Claim.RemoteReads : Prop :=
  ∀ (s : State) (d a b : Reg) (w : BitVec 2) (x : BitVec 1) (o : BitVec 4) (q : BitVec 32), Quick s → o.toNat ≤ 9 →
    (o = 9 → b.toNat < 31) →
    let addr := s.me.reg a
    let cue : BitVec 32 := addr.setWidth 32
    let slot : Bool → Outst := fun rd => { serial := s.nextId, inst := s.me.inst.id, store := rd, read := rd, addr := addr, qid := none
                                           cue := if rd then 0 else cue, notice := false, at_ := s.now }
    let m := if x = 1 then 8 else 4
    let forms : List (Instr × Nat × RemoteKind) :=
      [(.getq d a b w, 2 ^ w.toNat, .read (2 ^ w.toNat) q (s.me.reg b)),
       (.amoq d a b x o, m, .atomic o m (s.me.reg b) (if o = 9 then s.me.reg (b + 1) else 0) q)]
    (s.me.handle d = .unmapped → exec (.cueq d a) s = .next (s.takeFault s.cur cQGONE (d.setWidth 64))) ∧
    (∀ f ∈ forms,
      (¬ Names s addr → exec f.1 s = .next (s.takeFault s.cur cACCESS addr)) ∧
      (Names s addr → s.me.handle d = .unmapped → exec f.1 s = .next (s.takeFault s.cur cQGONE (d.setWidth 64))) ∧
      (Names s addr → Completion s d q → addr.toNat % f.2.1 ≠ 0 → exec f.1 s = .next (s.takeFault s.cur cALIGN addr)) ∧
      (Names s addr → Completion s d q → addr.toNat % f.2.1 = 0 → 64 ≤ s.me.outst.length → exec f.1 s = .next s) ∧
      (Names s addr → Completion s d q → addr.toNat % f.2.1 = 0 → s.me.outst.length < 64 →
        ∃ u, u.happenings = s.happenings ∧ u.cues = s.cues ∧ Leaves1 s u f.1 4 (pkgOf s addr)
          (.request { serial := s.nextId, origin := s.pkg, core := s.cur, domain := s.coreDom s.cur, svc := s.coreSvc s.cur
                      inst := s.me.inst.id, pc := s.me.pc, addr := addr, kind := f.2.2 }) (slot true) (fun y => y))) ∧
    (Completion s d q → 64 ≤ s.me.outst.length → exec (.cueq d a) s = .next s) ∧
    (Completion s d q → s.me.outst.length < 64 → ∃ u, u.happenings = s.happenings ∧ u.cues = s.cues ∧
      u.me = { s.me with outst := s.me.outst ++ [slot false] } ∧ u.queues = s.queues ∧ SameMem s u ∧
      (cue.extractLsb' 0 8 = 0 → exec (.cueq d a) s = .next ((u.post 0 (.cueqAnswer
        { core := s.cur, serial := s.nextId, q := q, cue := cue, status := 0 })).after 4 (fun y => y))) ∧
      (cue.extractLsb' 0 8 ≠ 0 → cue.extractLsb' 20 12 ≠ 0xFFF → exec (.cueq d a) s = .next
        ((u.send (cue.extractLsb' 20 12) (.watch cue (.core s.pkg s.cur s.nextId q))).after 4 (fun y => y))))

/-- The instructions that reach another package (15 R323, R324, R328, R329, R337–R339). -/
def Obligations.RemoteInstructions : Prop := Claim.RemoteStores ∧ Claim.RemoteReads

namespace Sys2Proof.Claim

/-- No monitor is enabled (22 R448). -/
def Unmonitored (s : State) : Prop := ∀ r ∈ s.dev, ∀ m, devRegOf r.1 = .monitor m 0 → r.2.getLsbD 63 = false

/-- No instance of a core waits. -/
def Awake (s : State) (c : CoreId) : Prop := (s.core c).held = [] ∧ ((s.core c).cond = .idle ∨ (s.core c).cond = .running)

/-- The request reaches a place at which it can be applied at once: translated there, and writable. -/
def AppliesAt (s : State) (r : RemoteReq) (p : Nat) (t : State) : Prop := s.requestPlace r = .ok (p, t) ∧ Writable t p

/-- No earlier read of the request's instance is on its way from here (15 R335). -/
def Foremost (s : State) (r : RemoteReq) : Prop :=
  r.origin = s.pkg → ∀ o ∈ (s.core r.core).outst, o.read = true → o.inst = r.inst → r.serial ≤ o.serial

/-- The acknowledgement of an engine's packet (13 R306). -/
def packetAck (r : RemoteReq) (code : BitVec 8) (x : Word) (at_ : Nat) (got : List Nat) : Msg :=
  .ack { core := r.core, serial := r.serial, code := code, where_ := x, data := got, at_ := at_ }

/-- The n bytes at a place become those of a value; every other byte is as before. -/
def Stored (t u : State) (p n v : Nat) : Prop :=
  (∀ i < n, Memory.get u.mem (p + i) = BitVec.ofNat 8 (v / 2 ^ (8 * i))) ∧ ∀ a, a < p ∨ p + n ≤ a → Memory.get u.mem a = Memory.get t.mem a

/-- Two doublewords as the payload of a one-granule item. -/
def granule (tag : BitVec 4) (lo hi : Word) : Item := { tag := tag, data := (hi ++ lo : BitVec 128).setWidth 1024 }

end Sys2Proof.Claim

open Sys2Proof.Claim in
/-- Requests at their target, and what comes back (R324–R326, R329, R335, R338, R339), nothing else being on its way. A store
without a cue writes its bytes and is acknowledged; a read answers with the bytes and its cookie, an atomic with the old value
and the address, after Table 9.8's effect; what fails the target's checks answers with the code, a read as POISON. A page that is
absent takes a remote-miss slot and asks the pager. An engine's packet writes, or reads, its elements and is acknowledged, or
fails at one. A store whose cue is not known to have landed is held, with its lifetime's end
pending, and with the mark WATCH the cue's origin is asked. A request behind an earlier one of its instance to common bytes waits.
An acknowledgement frees the slot, a push's credit comes back, and a failure is reported; a result and a CUEQ's answer push their item, then free it. -/
def Obligations.RemoteAnswers : Prop :=
  ∀ (s t : State) (r : RemoteReq) (p n : Nat) (q : BitVec 32), s.hold = [] → s.misses = [] → s.happenings = [] → Foremost s r →
    let go := Instr.remoteRequestArrival r
    let result := fun (i : Item) => Msg.result { core := r.core, serial := r.serial, q := q, item := i }
    let ack := fun (code : BitVec 8) => Msg.ack { core := r.core, serial := r.serial, code := code, where_ := r.addr, data := [], at_ := 0 }
    (∀ v c mark, r.kind = .store n v c mark 0 → c.extractLsb' 0 8 = 0 ∨ mark = .landed → n ∈ [1, 2, 4, 8] → v.toNat < 2 ^ (8 * n) →
      (AppliesAt s r p t → ∃ u, Stored t u p n v.toNat ∧ u.queues = t.queues ∧ (∀ c, u.core c = t.core c) ∧ exec go s = .next (u.send r.origin (ack 0))) ∧
      (∀ code x, s.requestPlace r = .error (.trap code x) → exec go s = .next (s.send r.origin (ack code)))) ∧
    (∀ cookie, r.kind = .read n q cookie → n ∈ [1, 2, 4, 8] →
      (AppliesAt s r p t → ∃ u, SameMem t u ∧ u.queues = t.queues ∧
        exec go s = .next (u.send r.origin (result (granule 0 (BitVec.ofNat 64 (numAt t p n)) cookie)))) ∧
      (∀ code x, s.requestPlace r = .error (.trap code x) →
        exec go s = .next (s.send r.origin (result (granule 9 (code.setWidth 64) cookie))))) ∧
    (∀ (op : BitVec 4) x y, r.kind = .atomic op n x y q → op.toNat ≤ 9 → n ∈ [4, 8] → AppliesAt s r p t →
      ∃ u, Stored t u p n (amoNew n op.toNat (numAt t p n) (x.toNat % 2 ^ (8 * n)) (y.toNat % 2 ^ (8 * n))) ∧
        exec go s = .next (u.send r.origin (result (granule 0 (BitVec.ofInt 64 (sext (8 * n) (numAt t p n))) r.addr)))) ∧
    (∀ f, s.requestPlace r = .error (.page f) → f.bad = none → (∀ m v c mark ret, r.kind = .store m v c mark ret → c.extractLsb' 0 8 = 0) →
      (∀ lo hi ws, r.kind ≠ .packet lo hi ws) → (∀ lo hi xs, r.kind ≠ .fetch lo hi xs) →
      ∃ u m, u.misses = [m] ∧ m.req = r ∧ m.die = s.ingressDie r ∧ u.queues = s.queues ∧ SameMem s u ∧
        exec go s = .next (u.askPager (8192 + m.die) 0 (pagerItem r.pc inPlace r.origin r.core r.domain f.level 5 f.kind.code r.addr))) ∧
    (∀ lo hi w, r.kind = .packet lo hi [w] → 8192 ≤ r.core → 1 ≤ w.n → w.addr.toNat % 16 + w.n ≤ 16 → w.bits = 2 ^ (8 * w.n) - 1 →
      s.brokenCopies = [] →
      (s.placeFor r .write w.addr = .ok (p, t) → Writable t p →
        ∃ u, Stored t u p w.n w.value ∧ u.queues = t.queues ∧ exec go s = .next (u.send r.origin (packetAck r 0 r.addr hi []))) ∧
      (∀ code x, s.placeFor r .write w.addr = .error (.trap code x) →
        ∃ u, u.brokenCopies = [(r.origin, r.core, r.serial)] ∧ SameMem s u ∧
          exec go s = .next (u.send r.origin (packetAck r code x w.index [])))) ∧
    (∀ lo hi x, r.kind = .fetch lo hi [x] → 8192 ≤ r.core → 1 ≤ x.n → x.addr.toNat % 16 + x.n ≤ 16 →
      (s.placeFor r .read x.addr = .ok (p, t) → Quiet t p →
        ∃ u, SameMem t u ∧ exec go s = .next (u.send r.origin (packetAck r 0 r.addr hi [numAt t p x.n])))) ∧
    (∀ v c mark ret, r.kind = .store n v c mark ret → c.extractLsb' 0 8 ≠ 0 → mark ≠ .landed → (∀ e ∈ s.landed, e.1 ≠ c) →
      s.failedCues = [] → (s.dev.get 0 (injReg 5 0)).getLsbD 63 = false →
      ∃ u h, u.hold = [h] ∧ h.req = r ∧ h.cue = c ∧ h.at_ = s.now ∧ SameMem s u ∧
        u.happenings = [(s.now + (s.devGet (lifeReg r.domain)).toNat * 2000, .heldStoreExpiry h.id)] ∧
        exec go s = .next (if mark = .watch then u.send (c.extractLsb' 20 12) (.watch c (.package s.pkg)) else u)) ∧
    (∀ (u : State) (y : RemoteReq) (k : Nat), u = { s with happenings := [(k, .remoteRequestArrival y)] } →
      y.origin = r.origin → y.core = r.core → r.core < 8192 → y.inst = r.inst → y.serial < r.serial →
      (y.addr.extractLsb' 0 52).toNat < (r.addr.extractLsb' 0 52).toNat + requestBytes r →
      (r.addr.extractLsb' 0 52).toNat < (y.addr.extractLsb' 0 52).toNat + requestBytes y → exec go u = .next (u.post 1 go)) ∧
    (∀ (c serial : Nat) (code : BitVec 8) (x : Word) (o : Outst), c < 8192 → 0 < serial → Awake s c → Unmonitored s →
      (s.core c).outst = [o] → o.serial = serial → o.read = false →
      let u := s.updCore c (fun y => { y with outst := [] })
      exec (.remoteAcknowledge { core := c, serial := serial, code := code, where_ := x, data := [], at_ := 0 }) s = .next (match o.qid with
        | none => if code = 0 then u else u.report c code x x
        | some id =>
          let u := u.updCore c (fun y => y.landed (farFlight id))
          if code = 0 then u
          else (if o.notice then u.updCore c (fun y => { y with dbgctl := y.dbgctl ||| 2 }) else u).report c code (id.setWidth 64) (id.setWidth 64))) ∧
    (∀ (c serial : Nat) (item : Item) (v : State) (o : Outst) (cue : BitVec 32) (st : BitVec 8), (s.core c).outst = [o] → o.serial = serial →
      s.qidPkg q = s.pkg → qkeyOf q ≠ 502 → Awake v c → Unmonitored v → v.egress = [] → v.trunks = [] →
      (s.accept (qkeyOf q) item (s.coreDom c) true = .ok v → exec (.remoteResult { core := c, serial := serial, q := q, item := item }) s =
        .next (v.updCore c (fun y => { y with outst := y.outst.filter (fun o => o.serial ≠ serial) }))) ∧
      (s.accept (qkeyOf q) (granule 0 ((st ++ cue : BitVec 40).setWidth 64) 0) (s.coreDom c) true = .ok v →
        exec (.cueqAnswer { core := c, serial := serial, q := q, cue := cue, status := st }) s =
        .next (v.updCore c (fun y => { y with outst := y.outst.filter (fun o => o.serial ≠ serial) }))))

namespace Sys2Proof.Claim

/-- R332, R330, R331: a held store of no cue is discarded with a code: a cue-fault item (address, code and cue) goes to the queue
that the domain's register names, or the network service's, and the origin hears, with the cue. -/
def Discards (s : State) (r : RemoteReq) (c : BitVec 32) (code : BitVec 8) (i : Instr) (at_ : State) : Prop :=
  let reg := s.devGet (cueFaultReg r.domain)
  let id : BitVec 32 := if reg = 0 then s.qidOf 503 else reg.setWidth 32
  s.qidPkg id = s.pkg → ∀ v, s.acceptNote (qkeyOf id) (granule 0 ((code ++ c : BitVec 40).setWidth 64) r.addr) r.domain = .ok v →
    exec i at_ = .next (v.send r.origin (.ack { core := r.core, serial := r.serial, code := code, where_ := c.setWidth 64, data := [], at_ := 0 }))

end Sys2Proof.Claim

open Sys2Proof.Claim in
/-- The life of a cue (R328–R332, R338). At its origin a PENDING cue lands or fails: its entry says so, every recorded destination
and every CUEQ that waits hears, and the entry's release is due; a cue that its entry does not hold as PENDING changes nothing. A
landing notice releases the store that is held for it; a failure notice, or the end of its lifetime, discards it. A watch of a
package is answered with the cue's fate, recorded while it is PENDING, and told NOTYET by a full entry; a CUEQ waits with it, and
its lifetime's end answers CUEEXP. A held store asks again. An entry is FREE, with its generation kept, once its lifetime has ended
and nobody is to hear; a cue leaves the cache of landed cues. -/
def Obligations.Cues : Prop :=
  ∀ (s : State) (cue : BitVec 32) (p : BitVec 12) (h : HoldE) (v : Word) (n c serial : Nat) (q : BitVec 32) (mark : CueMark), s.happenings = [] →
    let k := (cue.extractLsb' 8 12).toNat
    let e := entryOf s cue
    let life := (s.devGet (lifeReg h.req.domain)).toNat * 2000
    let end_ := e.issuedAt + (s.devGet (lifeReg e.dom)).toNat * 2000
    let free := Instr.cueEntryFree (cue.extractLsb' 8 12)
    (∀ f ∈ [(Instr.landingAckAtOrigin cue, CueSt.landed, Msg.landing cue, (0 : BitVec 8)), (.cueFailure cue, .failed, .failure cue cCUEBAD, cCUEBAD)],
      (¬ (e.st = .pending ∧ e.gen = cue.extractLsb' 0 8) → exec f.1 s = .next s) ∧
      (e.st = .pending → e.gen = cue.extractLsb' 0 8 → e.queries = [] →
        exec f.1 s = .next ((e.dest.foldl (fun s p => s.send p f.2.2.1) (s.setCue k { e with st := f.2.1 })).postOnce 0 free)) ∧
      (e.st = .pending → e.gen = cue.extractLsb' 0 8 → e.dest = [] → e.queries = [.core p c serial q] →
        exec f.1 s = .next (((s.setCue k { e with st := f.2.1, queries := [] }).send p
          (.cueq { core := c, serial := serial, q := q, cue := cue, status := f.2.2.2 })).postOnce 0 free))) ∧
    (s.hold = [h] → h.cue = cue → h.req.kind = .store n v cue mark 0 → s.now < h.at_ + life → ∃ t, exec (.landingNotice cue) s = .next t ∧
      t.hold = [] ∧ t.happenings = [(s.now, .remoteRequestArrival { h.req with kind := .store n v cue .landed 0 }),
        (s.now + life, .landedCueCacheExpiry cue)] ∧ (cue, s.now) ∈ t.landed ∧ SameMem s t) ∧
    (s.hold = [h] → h.cue = cue → h.req.kind = .store n v cue mark 0 → Unmonitored s → s.trunks = [] →
      Discards { s with hold := [], failedCues := s.failedCues.filter (fun e => e.2 == s.now) ++ [(cue, s.now)] } h.req cue cCUEBAD
        (.failureNotice cue) s ∧
      (h.at_ + life ≤ s.now → Discards { s with hold := [] } h.req cue cCUEEXP (.heldStoreExpiry h.id) s) ∧
      (s.now < h.at_ + life → exec (.heldStoreExpiry h.id) s = .next (s.post (h.at_ + life - s.now) (.heldStoreExpiry h.id))) ∧
      exec (.watchResend cue) s = .next (s.send (cue.extractLsb' 20 12) (.watch cue (.package s.pkg)))) ∧
    (s.hold = [] → exec (.watchResend cue) s = .next s ∧ exec (.heldStoreExpiry n) s = .next s) ∧
    (∀ w ∈ [Watcher.package p, .core p c serial q], w ∉ e.queries →
      let bad := cue.extractLsb' 20 12 ≠ s.pkg ∨ ¬ Current s cue ∨ e.st = .failed
      let answer := fun (t : State) (m : Msg) (status : BitVec 8) => Host.Outcome.next (match w with
        | .package p => t.send p m
        | .core p c serial q => t.send p (.cueq { core := c, serial := serial, q := q, cue := cue, status := status }))
      (bad → exec (.watch cue w) s = answer s (.failure cue cCUEBAD) cCUEBAD) ∧
      (¬ bad → e.st = .landed → exec (.watch cue w) s = answer s (.landing cue) 0) ∧
      (¬ bad → e.st = .pending → exec (.watch cue w) s = .next (match w with
        | .package p => if p ∈ e.dest then s else if e.dest.length < 16 then s.setCue k { e with dest := e.dest ++ [p] }
          else s.send p (.notYet cue)
        | .core _ _ _ _ => (s.setCue k { e with queries := e.queries ++ [w] }).post (end_ - e.issuedAt) (.watch cue w)))) ∧
    (e.queries = [.core p c serial q] → exec (.watch cue (.core p c serial q)) s = .next ((s.setCue k { e with queries := [] }).send p
      (.cueq { core := c, serial := serial, q := q, cue := cue, status := cCUEEXP }) |>.postOnce 0 free)) ∧
    (e.st = .free → exec free s = .next s) ∧
    (e.st ≠ .free → s.now < end_ → exec free s = .next (s.post (end_ - s.now) free)) ∧
    (e.st = .pending → end_ ≤ s.now → e.dest ≠ [] ∨ e.queries ≠ [] → exec free s = .next s) ∧
    (e.st = .landed ∨ e.st = .failed → end_ ≤ s.now → s.egress = [] → (∀ x ∈ s.cores, Awake s x.1) →
      exec free s = .next (s.setCue k { gen := e.gen })) ∧
    (∃ t, exec (.landedCueCacheExpiry cue) s = .next t ∧ t.landed = s.landed.filter (fun x => x.1 ≠ cue) ∧ t.cues = s.cues ∧ t.cores = s.cores)

/-! ## Links (15 R340–R352) -/

namespace Sys2Proof.Claim

/-- R344: the lane sets of a trunk of p ports at a step: all 4p lanes, one of the two halves, one of the four quarters. -/
def laneSets (p : Nat) : Nat → List (BitVec 16)
  | 0 => [BitVec.ofNat 16 (2 ^ (4 * p) - 1)]
  | 1 => (List.range 2).map (fun k => BitVec.ofNat 16 ((2 ^ (2 * p) - 1) * 2 ^ (2 * p * k)))
  | 2 => (List.range 4).map (fun k => BitVec.ofNat 16 ((2 ^ p - 1) * 2 ^ (p * k)))
  | _ => []

/-- R344: from step k on, the trunk retrains to the first step that has a set without a faulted lane, to the lowest such set; with
none it is DOWN. -/
def RetrainsFrom (k n : Nat) (bad : BitVec 16) (restoring : Bool) (u : State) : Prop :=
  let t := u.trunk n
  (∃ j m, k ≤ j ∧ t.st = .retraining ∧ t.target = (j, m) ∧ t.restoring = restoring ∧
    (laneSets t.ports j).find? (fun m => m &&& bad == 0) = some m ∧
    (∀ i, k ≤ i → i < j → ∀ m ∈ laneSets t.ports i, m &&& bad ≠ 0) ∧ (u.now, Instr.retrainComplete (BitVec.ofNat 6 n)) ∈ u.happenings) ∨
  (t.st = .down ∧ t.inuse = 0 ∧ ∀ i, k ≤ i → ∀ m ∈ laneSets t.ports i, m &&& bad ≠ 0)

/-- The status word of a trunk, field by field (Table 15.12). -/
def LinkWord (t : Trunk) (v : Word) : Prop :=
  (v.extractLsb' 62 2).toNat = (match t.st with | .up => 0 | .retraining => 1 | .down => 2) ∧ (v.extractLsb' 60 2).toNat = t.step ∧
  (v.extractLsb' 55 5).toNat = ((List.range 16).filter (fun i => t.inuse.getLsbD i)).length ∧ v.extractLsb' 48 7 = 0 ∧
  v.extractLsb' 32 16 = t.inuse ∧ v.extractLsb' 16 16 = t.failed ||| t.injected ∧ v.extractLsb' 8 8 = t.retrains ∧ v.extractLsb' 0 8 = t.replays

/-- Nothing is pending, and no trunk has anything to send, to be acknowledged or to give back. -/
def Still (s : State) : Prop := s.egress = [] ∧ s.happenings = [] ∧
  ∀ t ∈ s.trunks, t.2.stream = [] ∧ t.2.ending = [] ∧ t.2.owed = [] ∧ ∀ f ∈ t.2.replay, f.packets = []

end Sys2Proof.Claim

open Sys2Proof.Claim in
/-- LNKSTAT and LNKDIAG (R351, R352; at service level). LNKSTAT gives the trunk's word, or the word of state 3 for what names no
trunk. LNKDIAG gives 4 for a reserved bit, 1 for no trunk, 2 for a lane that the trunk has not, or of a fault that is not in use, 3 while the trunk retrains or, to arm,
while a fault is armed, and then changes nothing; else 0: a lane fault is injected and the trunk narrows, or one is armed with its
count of packets, or what was injected is cleared and the trunk restored, or the next flit is corrupted. -/
def Sys2Proof.Claim.LinkInstructions : Prop :=
  ∀ (s : State) (d a b : Reg), s.coreSvc s.cur = true → Still s →
    let x := s.me.reg a
    let y := s.me.reg b
    let n := (x.extractLsb' 0 6).toNat
    let op := (x.extractLsb' 8 2).toNat
    let lane := (y.extractLsb' 0 4).toNat
    let t := s.trunk n
    let word := fun (u : State) (v : Word) => Host.Outcome.next (u.after 4 (fun c => c.setReg d v))
    (64 ≤ x.toNat ∨ t.ports = 0 → exec (.lnkstat d a) s = word s 0xC000000000000000) ∧
    (x.toNat < 64 → t.ports ≠ 0 → t.step ≤ 3 → ∃ v, LinkWord t v ∧ exec (.lnkstat d a) s = word s v) ∧
    (let reserved := x.extractLsb' 10 54 ≠ 0 ∨ x.extractLsb' 6 2 ≠ 0 ∨ y.extractLsb' 40 24 ≠ 0 ∨ y.extractLsb' 4 12 ≠ 0
     let noLane := 4 * t.ports ≤ lane ∨ (op ≤ 1 ∧ t.inuse.getLsbD lane = false)
     let busy := t.st = .retraining ∨ (op = 1 ∧ t.armed ≠ none)
     let diag := exec (.lnkdiag d a b) s
     (reserved → diag = word s 4) ∧ (¬ reserved → t.ports = 0 → diag = word s 1) ∧
     (¬ reserved → t.ports ≠ 0 → noLane → diag = word s 2) ∧ (¬ reserved → t.ports ≠ 0 → ¬ noLane → busy → diag = word s 3) ∧
     (¬ reserved → t.ports ∈ [1, 2, 4] → ¬ noLane → ¬ busy →
       (op = 0 → t.st = .up → t.step ≤ 2 → (t.failed ||| t.injected).getLsbD lane = false →
         ∃ u, diag = word u 0 ∧ (u.trunk n).injected = t.injected ||| BitVec.ofNat 16 (2 ^ lane) ∧ (u.trunk n).failed = t.failed ∧
           (u.trunk n).ports = t.ports ∧ RetrainsFrom (t.step + 1) n (t.failed ||| t.injected ||| BitVec.ofNat 16 (2 ^ lane)) false u ∧
           u.cores = s.cores ∧ SameMem s u) ∧
       (op = 1 → diag = word (s.setTrunk n { t with armed := some (lane, (y.extractLsb' 16 24).toNat) }) 0) ∧
       (op = 2 → ∃ u, diag = word u 0 ∧ (u.trunk n).injected = 0 ∧ (u.trunk n).retrains = 0 ∧ (u.trunk n).replays = 0 ∧
         (u.trunk n).armed = none ∧ (u.trunk n).ports = t.ports ∧ RetrainsFrom 0 n t.failed true u ∧ u.cores = s.cores ∧ SameMem s u) ∧
       (op = 3 → diag = word (s.setTrunk n { t with corrupt := true }) 0)))

open Sys2Proof.Claim in
/-- The trunks' own happenings (R342–R344). A lane in use that faults takes an UP trunk to its next step; one not in use is only
counted. When a retraining completes the trunk is UP at its target's step and lanes, with the timeout of that width, and the sender
replays. A flit that fails its CRC, or is not the next one, asks for a replay; the next one is taken, its packets are delivered and
its credit goes back; what it acknowledges leaves the replay buffer, a NAK replays the rest, and the credits it returns are free
again; a link-control flit stands outside the sequence (log 8). An acknowledgement that stays out replays. -/
def Sys2Proof.Claim.LinkEvents : Prop :=
  ∀ (s : State) (trunk : BitVec 6) (lane : Nat) (f : Flit), Still s →
    let n := trunk.toNat
    let t := s.trunk n
    let replayed := fun (t : Trunk) => { t with replays := BitVec.ofNat 8 (min 255 (t.replays.toNat + 1)), recent := t.recent + 1
                                                replay := t.replay.map (fun f => { f with crc := flitCode f }) }
    let out := fun (m : Msg) => ({ dst := s.pkg, msg := m, waiting := false, transit := false } : Out)
    let asks := Host.Outcome.next { s with egress := [out (.link n t.rxSeq true 0 0)] }
    (t.ports = 0 ∨ 4 * t.ports ≤ lane → exec (.laneFault trunk lane) s = .next s) ∧
    (t.ports ∈ [1, 2, 4] → lane < 4 * t.ports → (t.failed ||| t.injected).getLsbD lane = false → t.st = .up → t.step ≤ 2 →
      ∃ u, exec (.laneFault trunk lane) s = .next u ∧ (u.trunk n).failed = t.failed ||| BitVec.ofNat 16 (2 ^ lane) ∧
        (u.trunk n).injected = t.injected ∧ (u.trunk n).ports = t.ports ∧ (∀ k, k ≠ n → u.trunk k = s.trunk k) ∧
        (if t.inuse.getLsbD lane then RetrainsFrom (t.step + 1) n (t.failed ||| t.injected ||| BitVec.ofNat 16 (2 ^ lane)) false u
         else (u.trunk n).st = .up ∧ u.happenings = [])) ∧
    (t.st = .retraining → exec (.retrainComplete trunk) s = .next (s.setTrunk n (
      let t' := { t with st := .up, step := t.target.1, inuse := t.target.2, ackTime := 4000 * 2 ^ t.target.1, restoring := false }
      if t.restoring then t' else { replayed t' with retrains := BitVec.ofNat 8 (min 255 (t.retrains.toNat + 1)) }))) ∧
    (t.st ≠ .retraining → exec (.retrainComplete trunk) s = .next s) ∧
    (t.ports ≠ 0 → t.st = .up → t.replay ≠ [] → exec (.ackTimeout trunk) s = .next (s.setTrunk n (replayed t))) ∧
    (t.ports = 0 ∨ t.st ≠ .up ∨ t.replay = [] → exec (.ackTimeout trunk) s = .next s) ∧
    (t.ports = 0 ∨ t.st = .down → exec (.flitReceive trunk f) s = .next s) ∧
    (t.ports ≠ 0 → t.st ≠ .down →
      (flitIntact f = false → exec (.flitReceive trunk f) s = asks) ∧
      (flitIntact f = true → f.cls ≠ 3 → f.seq ≠ t.rxSeq + 1 → exec (.flitReceive trunk f) s = asks) ∧
      (∀ r, flitIntact f = true → f.cls ≠ 3 → f.seq = t.rxSeq + 1 → f.packets = [(s.pkg, .request r)] →
        ∃ u, exec (.flitReceive trunk f) s = .next u ∧ u.happenings = [(s.now, .remoteRequestArrival r)] ∧ (u.trunk n).rxSeq = f.seq ∧
          u.cores = s.cores ∧ SameMem s u) ∧
      (flitIntact f = true → f.cls = 3 ∨ f.seq = t.rxSeq + 1 → f.packets = [] →
        ∃ u, exec (.flitReceive trunk f) s = .next u ∧ (∀ k, k ≠ n → u.trunk k = s.trunk k) ∧ u.cores = s.cores ∧ SameMem s u ∧
          u.happenings = [] ∧ (u.trunk n).rxSeq = (if f.cls = 3 then t.rxSeq else f.seq) ∧
          (f.cls = 3 → u.egress = []) ∧ (f.cls ≠ 3 → s.hold = [] → s.misses = [] → u.egress = [out (.link n f.seq false 1 f.cls)]) ∧
          (f.nak = false → (u.trunk n).replay = (if f.ackv then t.replay.filter (fun g => 2 ^ 23 ≤ (f.ack - g.seq).toNat) else t.replay)) ∧
          (f.nak = true → f.ackv = false → (u.trunk n).replay = (replayed t).replay ∧ (u.trunk n).replays = (replayed t).replays) ∧
          (u.trunk n).credits.get 0 f.ccls.toNat = t.credits.get 0 f.ccls.toNat - f.cred.toNat))

/-- The links: their instructions and their events (15 R342–R344, R351, R352). -/
def Obligations.Links : Prop := Claim.LinkInstructions ∧ Claim.LinkEvents

/-! ## Requests and batch formers (18) -/

namespace Sys2Proof.Claim

/-- R360: a handle that is valid for the caller names record i: no bit above 31 or in 23:14, the record in use, its generation, its
domain the caller's or the caller at service level. -/
def Handle (s : State) (x : Word) (i : Nat) : Prop :=
  let r := s.record i
  x.toNat < 2 ^ 32 ∧ x.extractLsb' 14 10 = 0 ∧ i = (x.extractLsb' 0 14).toNat ∧ r.extractLsb' 53 3 ≠ 0 ∧
  r.extractLsb' 56 8 = x.extractLsb' 24 8 ∧ (r.extractLsb' 16 12 = s.coreDom s.cur ∨ s.coreSvc s.cur = true)

/-- Bit fields of a record, as first bit and width. -/
def bitsOfRecord (r : BitVec 2048) (lo w : Nat) : Nat := (r.extractLsb' lo w).toNat

/-- A record with fields set: bit for bit, a field's value where a field covers the bit, else as before. -/
def Sets (r r' : BitVec 2048) (fields : List (Nat × Nat × Nat)) : Prop :=
  ∀ k < 2048, r'.getLsbD k = match fields.find? (fun f => decide (f.1 ≤ k ∧ k < f.1 + f.2.1)) with
    | some f => f.2.2.testBit (k - f.1)
    | none => r.getLsbD k

/-- An instruction on record i, nothing of the core being on its way: the record, in both copies, becomes as `ok` says, no other
byte of memory changes, and of the cores only `s[d]` of this one, which takes v, and its pc. -/
def RecordOp (s : State) (i : Instr) (d : Reg) (k : Nat) (ok : BitVec 2048 → Prop) (v : Word) : Prop :=
  ∃ t, exec i s = .next t ∧ ok (t.record k) ∧
    (∀ p, (∀ m < 256, p ≠ recordPlace 0 k + m ∧ p ≠ recordPlace 1 k + m) → Memory.get t.mem p = Memory.get s.mem p) ∧
    (∀ j < 256, Memory.get t.mem (recordPlace 1 k + j) = (t.record k).extractLsb' (8 * j) 8) ∧
    (∀ c, t.core c = (s.after 4 (fun x => x.setReg d v)).core c) ∧ t.queues = s.queues

/-- The bits that RQWRITE may change only while a record is prepared: the SET fields of Table 18.1. -/
def SetBit (k : Nat) : Bool :=
  [(736, 32), (512, 16), (448, 64), (404, 12), (320, 64), (304, 16), (288, 16), (272, 16), (256, 16), (224, 32), (192, 32), (128, 64),
    (64, 32), (48, 3), (46, 2)].any (fun f => decide (f.1 ≤ k ∧ k < f.1 + f.2))

/-- R385: what RQQUEUE asks of a record: a prompt, a KV map in a space 0 to 3, penalty counts in SRAM or scratchpad of this package
if any, TOPK at most 256, and an enabled former of its domain. -/
def MayQueue (s : State) (r : BitVec 2048) : Prop :=
  let f := bitsOfRecord r
  let cfg := s.devGet (formerReg (f 46 2) 7)
  1 ≤ f 64 32 ∧ f 128 64 ≠ 0 ∧ f 176 4 ≤ 3 ∧
  (f 448 64 = 0 ∨ ((f 496 4 = 1 ∨ f 496 4 = 2) ∧ (f 500 12 = 0xFFF ∨ f 500 12 = s.pkg.toNat))) ∧ f 288 16 ≤ 256 ∧
  cfg.getLsbD 63 = true ∧ (cfg.extractLsb' 0 12).toNat = f 16 12

/-- R373, on numbers below 2^32. -/
def laharStep (k r : Nat) (x : Nat × Nat × Nat × Nat) : Nat × Nat × Nat × Nat :=
  let m := 2 ^ 32
  let rot := fun (v n : Nat) => (v * 2 ^ n) % m + v / 2 ^ (32 - n)
  let a := (x.1 + x.2.1 + k + r) % m
  let d := rot (x.2.2.2 ^^^ a) 16
  let c := (x.2.2.1 + d) % m
  let b := rot (x.2.1 ^^^ c) 12
  let a := (a + b) % m
  let d := rot (d ^^^ a) 8
  let c := (c + d) % m
  (a, rot (b ^^^ c) 7, c, d)

def laharOut (seed pos row draw : Nat) : Nat :=
  let x0 := (pos, row, draw, 0x4C414852)
  let x := (List.range 12).foldl (fun x r => laharStep (if r % 2 = 0 then seed % 2 ^ 32 else seed / 2 ^ 32) r x) x0
  (x.1 + x0.1) % 2 ^ 32 + (x.2.1 + x0.2.1) % 2 ^ 32 * 2 ^ 32 + (x.2.2.1 + x0.2.2.1) % 2 ^ 32 * 2 ^ 64 +
    (x.2.2.2 + x0.2.2.2) % 2 ^ 32 * 2 ^ 96

/-- R372: does the record stop with token j of its provisional ones, COMMIT having become `c`? The code of the stop, without a stop
set: 1 the end token, 3 the length; 0 it goes on. -/
def stopCode (r : BitVec 2048) (j c : Nat) : Nat :=
  let f := bitsOfRecord r
  if f (768 + 32 * j) 32 = f 192 32 then 1 else if f 224 32 ≠ 0 ∧ f 64 32 + f 224 32 ≤ c then 3 else 0

end Sys2Proof.Claim

open Sys2Proof.Claim in
/-- The record instructions (R360, R361, R363, R372, R373, R385, R390), nothing of the core being on its way and no word of
storage being bad. A handle that is not
valid is REQ with the operand. RQALLOC takes the lowest FREE record as a PARKED and held one of the next generation, RQREAD reads a
doubleword; RQWRITE writes the SOFT fields, and the SET fields of a PARKED and held record; RQQUEUE, RQPARK, RQRETIRE and RQRETIRE.FREE
move a record between its states, or answer with a status that changes nothing; RQCOMMIT accepts provisional tokens up to the first
that stops the request; LAHAR computes. -/
def Sys2Proof.Claim.RequestRecords : Prop :=
  ∀ (s : State) (d a b w : Reg) (i : Nat) (h : BitVec 1), Idle s → s.me.outst = [] → Plain s → s.injected = [] → s.tests = [] →
    let x := s.me.reg a
    let y := s.me.reg b
    let r := s.record i
    let f := bitsOfRecord r
    let st := f 53 3
    let held := decide (st = 3 ∧ f 52 1 = 1)
    let status := fun (i : Instr) (v : Word) => exec i s = .next (s.after 4 (fun c => c.setReg d v))
    ((∀ k, ¬ Handle s x k) → ∀ j ∈ [Instr.rqread d a w, .rqwrite d a b w, .rqqueue d a, .rqpark d a, .rqretire d a b, .rqretireFree d a,
        .rqcommit d a b], exec j s = .next (s.takeFault s.cur cREQ x)) ∧
    (i < 16384 → st = 0 → (∀ j < i, bitsOfRecord (s.record j) 53 3 ≠ 0) →
      let gen := if f 56 8 = 255 then 1 else f 56 8 + 1
      RecordOp s (.rqalloc d) d i (fun r' => r' = BitVec.ofNat 2048 (i + (s.coreDom s.cur).toNat * 2 ^ 16 + 2 ^ 52 + 3 * 2 ^ 53 + gen * 2 ^ 56 +
        0xFFFFFFFF * 2 ^ 192)) (BitVec.ofNat 64 (gen * 2 ^ 24 + i))) ∧
    ((∀ j < 16384, bitsOfRecord (s.record j) 53 3 ≠ 0) → status (.rqalloc d) 0x8000000000000002) ∧
    (Handle s x i →
      status (.rqread d a w) (r.extractLsb' (64 * w.toNat) 64) ∧
      RecordOp s (.rqwrite d a b w) d i (fun r' => ∀ k < 2048, r'.getLsbD k =
          if k / 64 = w.toNat ∧ (1024 ≤ k ∨ (held = true ∧ SetBit k = true)) then y.getLsbD (k % 64) else r.getLsbD k)
        (if held = false ∧ (List.range 64).any (fun k => SetBit (64 * w.toNat + k)) = true then 1 else 0) ∧
      (st ≠ 3 → status (.rqqueue d a) 0x8000000000000001) ∧
      (st = 3 → ¬ MayQueue s r → status (.rqqueue d a) 0x8000000000000002) ∧
      (st = 3 → MayQueue s r → RecordOp s (.rqqueue d a) d i (fun r' => Sets r r' [(53, 3, 1), (52, 1, 0), (28, 8, 0), (576, 64, s.now / 2),
        (96, 32, if f 96 32 = 0 then f 64 32 else f 96 32)]) 0) ∧
      (st ≠ 1 → st ≠ 2 → status (.rqpark d a) 0x8000000000000001) ∧
      (st = 1 ∨ st = 2 → RecordOp s (.rqpark d a) d i (fun r' => Sets r r' [(53, 3, 3), (52, 1, 1), (672, 32, 0)]) 0) ∧
      (256 ≤ y.toNat → exec (.rqretire d a b) s = .next (s.takeFault s.cur cREQ (Config.freeWord s.tick))) ∧
      (y.toNat < 256 → st ∉ [1, 2, 3] → status (.rqretire d a b) 0x8000000000000001) ∧
      (y.toNat < 256 → st ∈ [1, 2, 3] → RecordOp s (.rqretire d a b) d i (fun r' => Sets r r'
        (if y.toNat = 0 then [(53, 3, 4), (28, 8, 4)] else [(53, 3, 5), (28, 8, y.toNat)])) 0) ∧
      (¬ (st = 4 ∨ st = 5 ∨ held = true) → status (.rqretireFree d a) 0x8000000000000001) ∧
      (st = 4 ∨ st = 5 ∨ held = true → f 36 1 = 1 ∨ f 656 16 ≠ 0 → status (.rqretireFree d a) 0x8000000000000003) ∧
      (st = 4 ∨ st = 5 ∨ held = true → f 36 1 = 0 → f 656 16 = 0 →
        RecordOp s (.rqretireFree d a) d i (fun r' => Sets r r' [(53, 3, 0)]) 0) ∧
      (st ≠ 2 → status (.rqcommit d a b) 0x8000000000000001) ∧
      (st = 2 → f 652 4 < y.toNat → status (.rqcommit d a b) 0x8000000000000003) ∧
      (st = 2 → y.toNat ≤ f 652 4 → f 652 4 ≤ 8 → f 448 64 = 0 → f 404 12 = 0 → f 96 32 + 16 < 2 ^ 32 → ∀ k ≤ y.toNat,
        (∀ j < k - 1, stopCode r j (f 96 32 + j + 1) = 0) →
        let stop := if k = 0 then 0 else stopCode r (k - 1) (f 96 32 + k)
        (k < y.toNat → stop ≠ 0) →
        RecordOp s (.rqcommit d a b) d i (fun r' => Sets r r' ([(652, 4, 0), (576, 64, s.now / 2)] ++
          (if k = 0 then [] else [(96, 32, f 96 32 + k), (416, 32, f 416 32 + k), (704, 32, f (768 + 32 * (k - 1)) 32)]) ++
          (if stop = 0 then [] else [(53, 3, 4), (28, 8, stop)]))) (BitVec.ofNat 64 k))) ∧
    (let o := laharOut x.toNat (y.toNat % 2 ^ 32) (y.toNat / 2 ^ 32) ((s.me.reg d).toNat % 2 ^ 32)
     status (.lahar d a b h) (BitVec.ofNat 64 (if h = 1 then o / 2 ^ 64 else o)))

namespace Sys2Proof.Claim

/-- R364: the former is enabled for the caller's domain. -/
def Enabled (s : State) (b : Nat) : Prop :=
  let w := s.devGet (formerReg b 7)
  w.getLsbD 63 = true ∧ w.extractLsb' 0 12 = s.coreDom s.cur

/-- R384: the command joins the former's queue of 64, and the oldest command's event is pending; a full queue is waited for. -/
def Joins (s : State) (i : Instr) (b : Nat) (q : BitVec 32) (op : FOp) : Prop :=
  let l := (s.former b).queue
  let c : FCmd := { core := s.cur, q := q, dom := s.coreDom s.cur, svc := s.coreSvc s.cur, op := op }
  (l.length < 64 → ∃ t : State, exec i s = .next t ∧ (t.former b).queue = l ++ [c] ∧ (∀ k, k ≠ b → t.former k = s.former k) ∧
    t.happenings = [(s.now + 1, (l.headD c).event b)] ∧ t.me.pc = s.me.pc + 4 ∧ (∀ r : Reg, t.me.reg r = s.me.reg r) ∧
    t.queues = s.queues ∧ SameMem s t) ∧
  (64 ≤ l.length → exec i s = .next s)

/-- An FP32 matrix without SPN that SMPL or BEAM takes, as captured: its BASE in one of the spaces, of this package. -/
def RowMatrix (s : State) (id : BitVec 32) (spaces : List Nat) (c : Entry) : Prop :=
  EngineTensor s false id c ∧ Entry.fmt c = 0 ∧ Entry.rank c = 2 ∧ ((Entry.base c).extractLsb' 48 4).toNat ∈ spaces ∧
  (Entry.base c).extractLsb' 52 12 = s.pkg

end Sys2Proof.Claim

open Sys2Proof.Claim in
/-- The formers' instructions at issue (R384, R386–R389), nothing of the core being on its way: BFSTEP, RQFORK, SMPL and BEAM queue
their command with what they captured at the former that they name. A completion handle that maps nothing is QGONE, a bad operand
REQ, a former that is not enabled for the domain ACCESS. -/
def Sys2Proof.Claim.FormerCommands : Prop :=
  ∀ (s : State) (d a b : Reg) (q : BitVec 32) (e : Entry) (i : Nat) (bs : List Byte), Idle s → s.me.outst = [] →
    let x := s.me.reg a
    let y := s.me.reg b
    let faults := fun (i : Instr) (code : BitVec 8) (detail : Word) => exec i s = .next (s.takeFault s.cur code detail)
    let free := Config.freeWord s.tick
    let f := fun (lo n : Nat) => y.toNat / 2 ^ lo % 2 ^ n
    (s.me.handle d = .unmapped → ∀ i ∈ [Instr.bfstep d a, .rqfork d a b, .smpl d a b, .beam d a b], faults i cQGONE (d.setWidth 64)) ∧
    (Completion s d q →
      (4 ≤ x.toNat → faults (.bfstep d a) cREQ free) ∧
      (x.toNat < 4 → ¬ Enabled s x.toNat → faults (.bfstep d a) cACCESS free) ∧
      (x.toNat < 4 → Enabled s x.toNat → Joins s (.bfstep d a) x.toNat q .step) ∧
      ((∀ k, ¬ Handle s (x.extractLsb' 0 32 |>.setWidth 64) k) → faults (.rqfork d a b) cREQ (x.extractLsb' 0 32 |>.setWidth 64)) ∧
      (Handle s (x.extractLsb' 0 32 |>.setWidth 64) i → let g := bitsOfRecord (s.record i) 46 2
        (2 ^ 48 ≤ x.toNat → faults (.rqfork d a b) cREQ free) ∧
        (x.toNat < 2 ^ 48 → ¬ Enabled s g → faults (.rqfork d a b) cACCESS free) ∧
        (x.toNat < 2 ^ 48 → Enabled s g → loadRange y 16 16 s = .ok (bs, s) →
          Joins s (.rqfork d a b) g q (.fork (x.extractLsb' 0 32) (x.extractLsb' 32 16).toNat (BitVec.ofNat 64 (natOfBytes bs))
            (BitVec.ofNat 64 (natOfBytes bs / 2 ^ 64))))) ∧
      (let good := f 17 7 = 0 ∧ f 56 8 = 0 ∧ f 8 6 ≤ f 2 6
       (¬ good → faults (.smpl d a b) cREQ free) ∧
       (good → ¬ Enabled s (f 0 2) → faults (.smpl d a b) cACCESS free) ∧
       (good → Enabled s (f 0 2) → RowMatrix s (x.extractLsb' 0 32) [1, 2] e →
         ((s.devGet (formerReg (f 0 2) 3)).extractLsb' 31 9).toNat + 1 ≤ Entry.ext e 1 →
         Joins s (.smpl d a b) (f 0 2) q (.smpl e (f 2 6 + 1) (f 8 6) (f 14 3) (f 24 32))) ∧
       (good → Enabled s (f 0 2) → (∀ k, ¬ EngineId s (x.extractLsb' 0 32) k) →
         faults (.smpl d a b) cTENSOR ((x.extractLsb' 0 32).setWidth 64))) ∧
      (let good := f 18 46 = 0 ∧ f 0 16 ≠ 0
       (¬ good → faults (.beam d a b) cREQ free) ∧
       (good → ¬ Enabled s (f 16 2) → faults (.beam d a b) cACCESS free) ∧
       (good → Enabled s (f 16 2) → RowMatrix s (x.extractLsb' 0 32) [0, 1, 2, 3] e →
         Entry.ext e 0 = ((s.devGet (formerReg (f 16 2) 4)).extractLsb' 32 32).toNat →
         Joins s (.beam d a b) (f 16 2) q (.beam e (f 0 16)))))

/-- Request records and the commands to a former (18 R360–R363, R372, R373, R384–R390). -/
def Obligations.Requests : Prop := Claim.RequestRecords ∧ Claim.FormerCommands

namespace Sys2Proof.Claim

/-- The former's only command is done. -/
def Taken (u : State) (b : Nat) : State := u.setFormer b { u.former b with queue := [] }

/-- A completion of the sampler or the beam engine (Table 18.6). -/
def sampled (step : Word) (status done faulted b detail : Nat) : Item :=
  granule 0 (BitVec.ofNat 64 (status * 2 ^ 56 + done * 2 ^ 46 + faulted * 2 ^ 36 + b * 2 ^ 32 + detail)) step

/-- The order of a merge's shards for a greedy request: the greater of two finite values that are not negative, by their code;
of equal ones the lower entry (R376). -/
def greedy (x y : BitVec 32 × Nat) : Nat := if x.1.toNat > y.1.toNat ∨ (x.1 = y.1 ∧ x.2 < y.2) then x.2 else y.2

end Sys2Proof.Claim

open Sys2Proof.Claim in
/-- The formers at work (R366, R377–R382), in the cases that one step shows. A step of a former without slots and candidates publishes
an empty manifest for the next step. A fork of a parent without KV and penalties makes the lowest FREE record its queued child; with
no FREE record it answers NOENTRY, with an empty pool NOPAGE. A first shard opens the merge with its deadline, and a lone one is complete; before any manifest a
shard is answered REQ. A merge of two shards gives a greedy slot the better entry, or faults the slot with the code that a shard
found; one whose deadline passes ends with TIMEOUT. A beam group of one takes its best candidate; an empty one is answered REQ. The
occupancy monitor chooses only what R382 allows, and a core that is clear joins its new pool. -/
def Obligations.FormerWork : Prop :=
  ∀ (s : State) (bf : BitVec 2) (c : FCmd), Plain s → s.migrations = [] → s.happenings = [] → s.injected = [] → s.tests = [] →
    let b := bf.toNat
    let g := s.former b
    let w := fun (k : Nat) => s.devGet (formerReg b k)
    let step := w 6
    let inPool := fun (k : Nat) => k < ((w 2).extractLsb' 32 32).toNat ∧ g.holders.get 0 k = 0
    ((s.former b).queue = [c] → c.op = .step → g.merge = none → g.slots = [] → s.candidates b = [] →
      ((w 0).extractLsb' 48 4 = 1 ∨ (w 0).extractLsb' 48 4 = 2) → w 5 % 2 ^ 48 = 0xFFFFFFFFFFFF →
      ∃ (u : State) (g' : Former), g'.queue = [] ∧ g'.published = true ∧ g'.lens = [] ∧ g'.sample = [] ∧ u.devGet (formerReg b 6) = step + 1 ∧
        exec (.bfstepExecute bf) s = .next ((u.pushFor c.core c.q (granule 0 (BitVec.ofNat 64 ((step + 1).toNat % 2 ^ 24 * 2 ^ 40 + b))
          (w 0 + 8192 * ((step + 1) % 2)))).setFormer b g')) ∧
    (∀ parent index kvmap penptr pi p, (s.former b).queue = [c] → c.op = .fork parent index kvmap penptr →
      s.validRecord parent c.dom c.svc = some (pi, p) →
      ((∀ j < 16384, bitsOfRecord (s.record j) 53 3 ≠ 0) → exec (.rqforkExecute bf) s =
        .next (Taken (s.pushFor c.core c.q (granule 0 0x200000000 0)) b)) ∧
      ((∃ i < 16384, bitsOfRecord (s.record i) 53 3 = 0) → (∀ k, ¬ inPool k) → exec (.rqforkExecute bf) s =
        .next (Taken (s.pushFor c.core c.q (granule 0 0x300000000 0)) b)) ∧
      (∀ i < 16384, bitsOfRecord (s.record i) 53 3 = 0 → (∀ j < i, bitsOfRecord (s.record j) 53 3 ≠ 0) → (∃ k, inPool k) →
        bitsOfRecord p 672 32 = 0 → bitsOfRecord p 448 64 = 0 →
        let gen := if bitsOfRecord (s.record i) 56 8 = 255 then 1 else bitsOfRecord (s.record i) 56 8 + 1
        let fields := [(128, 64, kvmap.toNat), (448, 64, penptr.toNat),
          (320, 64, laharOut (bitsOfRecord p 320 64) (2 ^ 32 - 1) (index % 2 ^ 32) (2 ^ 32 - 1)), (96, 32, bitsOfRecord p 96 32),
          (544, 32, parent.toNat), (528, 16, index), (53, 3, 1), (576, 64, s.now / 2), (56, 8, gen), (16, 12, bitsOfRecord p 16 12), (0, 14, i)]
        ∃ u : State, u.queues = s.queues ∧ (∀ j, j < 16384 → j ≠ i → u.record j = s.record j) ∧
          (∀ k < 2048, (u.record i).getLsbD k = match fields.find? (fun f => decide (f.1 ≤ k ∧ k < f.1 + f.2.1)) with
            | some f => f.2.2.testBit (k - f.1)
            | none => (SetBit k || decide (1024 ≤ k)) && p.getLsbD k) ∧
          exec (.rqforkExecute bf) s = .next (Taken (u.pushFor c.core c.q (granule 0 (BitVec.ofNat 64 (gen * 2 ^ 24 + i)) 0)) b))) ∧
    (∀ ent n k spec v0, (s.former b).queue = [c] → c.op = .smpl ent n k spec v0 →
      (g.published = false → exec (.smplShardArrival bf) s =
        .next (Taken (s.pushFor c.core c.q (sampled step cREQ.toNat 0 0 b 0)) b)) ∧
      (g.published = true → g.merged ≠ some step → g.expired = none → g.merge = none → g.sample = [] →
        let vocab := ((w 4).extractLsb' 32 32).toNat
        let wait := (if (w 4).extractLsb' 16 16 = 0 then 20 else ((w 4).extractLsb' 16 16).toNat) * 2000
        v0 % 1024 = 0 → v0 + Entry.ext ent 0 ≤ vocab → (v0 + Entry.ext ent 0 = vocab ∨ (v0 + Entry.ext ent 0) % 1024 = 0) →
        (1 < n ∨ (n = 1 ∧ Entry.ext ent 0 = vocab)) →
        ∃ t m x, exec (.smplShardArrival bf) s = .next t ∧ (t.former b).merge = some m ∧ (t.former b).queue = [] ∧ m.step = step ∧
          m.deadline = s.now + wait ∧ m.shards = [x] ∧ x.cmd = c ∧ x.v0 = v0 ∧ x.count = Entry.ext ent 0 ∧ x.shards = n ∧ x.shard = k ∧
          x.spec = spec ∧ x.code = 0 ∧ SameMem s t ∧
          t.happenings = (s.now + wait, Instr.mergeDeadline bf) :: (if n = 1 then [(s.now + 1, .mergeComplete bf)] else []))) ∧
    (g.merge = none → exec (.mergeComplete bf) s = .next s ∧ exec (.mergeDeadline bf) s = .next s) ∧
    (∀ m x y slot i p p', g.merge = some m → g.queue = [] → m.shards = [x, y] → x.shards = 2 → x.spec = 0 → g.sample = [(slot, i)] →
      Tbl.find? g.slots slot = some i → i < 16384 → slot < 512 → bitsOfRecord (s.record i) 53 3 = 2 → bitsOfRecord (s.record i) 304 15 = 0 →
      x.slots = [p] → y.slots = [p'] → p.slot = slot → p'.slot = slot →
      (p.fault = 0 → p'.fault = 0 → ∀ e e', p.best = [e] → p'.best = [e'] → e.2 ≠ e'.2 → e.1.toNat < 0x7F800000 → e'.1.toNat < 0x7F800000 →
        ∃ u : State, Sets (s.record i) (u.record i) [(768, 32, greedy e e'), (652, 4, max 1 (bitsOfRecord (s.record i) 652 4))] ∧
          (u.former b).merge = none ∧ (u.former b).merged = some m.step ∧ u.queues = s.queues ∧
          exec (.mergeComplete bf) s = .next ((u.pushFor x.cmd.core x.cmd.q (sampled m.step x.code.toNat 1 0 b 0)).pushFor
            y.cmd.core y.cmd.q (sampled m.step y.code.toNat 1 0 b 0))) ∧
      (p.fault ≠ 0 →
        ∃ u : State, Sets (s.record i) (u.record i) [(53, 3, 5), (28, 8, p.fault.toNat)] ∧ (u.former b).merge = none ∧ u.queues = s.queues ∧
          exec (.mergeComplete bf) s = .next ((u.pushFor x.cmd.core x.cmd.q (sampled m.step x.code.toNat 0 1 b slot)).pushFor
            y.cmd.core y.cmd.q (sampled m.step y.code.toNat 0 1 b slot)))) ∧
    (∀ m x, g.merge = some m → g.queue = [] → g.sample = [] → m.shards = [x] → 1 < x.shards →
      (s.now < m.deadline → exec (.mergeDeadline bf) s = .next (s.post (m.deadline - s.now) (.mergeDeadline bf))) ∧
      (m.deadline ≤ s.now → ∃ u : State, (u.former b).merge = none ∧ (u.former b).expired = some (m.step, cTIMEOUT) ∧ u.queues = s.queues ∧
        let v := u.pushFor x.cmd.core x.cmd.q (sampled m.step cTIMEOUT.toNat 0 0 b 0)
        exec (.mergeDeadline bf) s = .next (v.report x.cmd.core cTIMEOUT (Config.freeWord v.tick) (Config.freeWord v.tick)))) ∧
    (∀ ent gp, (s.former b).queue = [c] → c.op = .beam ent gp → gp < 2 ^ 16 →
      (s.beamMembers b c.dom gp = [] → exec (.beamExecute bf) s =
        .next (Taken (s.pushFor c.core c.q (sampled step cREQ.toNat 0 0 b gp)) b)) ∧
      (∀ i cs score v, s.beamMembers b c.dom gp = [i] → i < 16384 → bitsOfRecord (s.record i) 448 64 = 0 →
        beamCands { core := c.core, dom := c.dom, svc := c.svc } ent [bitsOfRecord (s.record i) 736 32] ((w 4).extractLsb' 32 32).toNat s = .ok (cs, s) →
        (∃ x ∈ cs, (codeNum x.1).isInf = false) → beamBest 1 cs = [(score, 0, v)] →
        ∃ u : State, Sets (s.record i) (u.record i) [(736, 32, score.toNat), (768, 32, v), (652, 4, 1), (656, 16, (s.kvOf b i).length)] ∧
          u.queues = s.queues ∧ exec (.beamExecute bf) s = .next (Taken (u.pushFor c.core c.q (sampled step 0 1 0 b gp)) b))) ∧
    (g.moving = none → s.poolChoice b = none → exec (.poolCoreMove bf) s = .next s) ∧
    (∀ k x y, s.poolChoice b = some (k, y, x) → let cl := clusterOf k
      let nx := (s.coresIn x cl).length
      let ny := (s.coresIn y cl).length
      x ≠ y ∧ 0 < nx ∧ 2 ≤ ny ∧ k ∈ s.coresIn y cl ∧ (∀ j ∈ s.coresIn y cl, (s.core j).index ≤ (s.core k).index) ∧
      2 * s.poolItems y cl * nx + ((w 5).extractLsb' 48 16).toNat * nx * ny ≤ s.poolItems x cl * ny ∧
      (g.moving = none → ∃ t : State, exec (.poolCoreMove bf) s = .next t ∧ (t.former b).moving = some (k, y, x) ∧ (t.core k).joining = some x ∧
        (t.core k).rows = (s.core k).rows ∧ SameMem s t)) ∧
    (∀ k x y, g.moving = some (k, y, x) →
      (s.coreClear k y = false → exec (.poolCoreMove bf) s = .next (s.post 1024 (.poolCoreMove bf))) ∧
      (s.coreClear k y = true → x ≠ y → ∃ t : State, exec (.poolCoreMove bf) s = .next t ∧ (t.former b).moving = none ∧ (t.core k).role = some x ∧
        (t.core k).joining = none ∧ (∀ j ∈ (s.role x).cores, (s.core j).index < (t.core k).index) ∧
        (t.role y).cores = (s.role y).cores.filter (fun j => j ≠ k) ∧ (t.role x).cores = (s.role x).cores ++ [k] ∧
        (∀ r : Reg, (t.core k).reg r = if r.toNat < 16 then (s.core k).reg r else 0) ∧ SameMem s t))

/-! ## What services do to cores (20 R425–R429; 22 R441) -/

namespace Sys2Proof.Claim

/-- The core that a target word names (R425). -/
def Target (s : State) (w : Word) (c : CoreId) : Prop :=
  (w.extractLsb' 52 12 = 0xFFF ∨ w.extractLsb' 52 12 = s.pkg) ∧ w.extractLsb' 48 4 = 0 ∧ w.extractLsb' 6 29 = 0 ∧
  c = (w.extractLsb' 47 1).toNat * 4096 + (w.extractLsb' 43 4).toNat * 256 + (w.extractLsb' 35 8).toNat

/-- The binding row that three doublewords give (04 Table 4.1), with the posts that stand. -/
def rowGiven (entry arg w : Word) (pend : BitVec 8) : Row :=
  { entry := entry, arg := arg, valid := w.getLsbD 0, en := w.getLsbD 1, fault := w.getLsbD 2, prio := w.extractLsb' 3 3
    qh0 := w.extractLsb' 6 4, q0v := w.getLsbD 10, qh1 := w.extractLsb' 11 4, q1v := w.getLsbD 15, trig0 := w.extractLsb' 16 8
    trig1 := w.extractLsb' 24 8, pend := if w.getLsbD 0 then pend else 0, budget := w.extractLsb' 40 24 }

/-- A service instruction that changes another core: `s[d]` takes v, the other core becomes x, nothing else changes but the value
record of the caller, and a FAILED queue that then has no row is FREE (06 R139). -/
def Sets1 (s : State) (i : Instr) (d : Reg) (v : Word) (c : CoreId) (x : Core) : Prop :=
  ∃ t, exec i s = .next t ∧ (∀ r : Reg, t.me.reg r = if r = 0 then 0 else if r = d then v else s.me.reg r) ∧ t.me.pc = s.me.pc + 4 ∧
    t.core c = x ∧ (∀ k, k ≠ c → k ≠ s.cur → t.core k = s.core k) ∧ SameMem s t ∧
    ∀ q, t.queue q = s.queue q ∨ ((s.queue q).st = .failed ∧ (t.queue q).st = .free)

/-- The item of a core that has halted (R427): the target word; status, items discarded, frame. -/
def haltedItem (w : Word) (status discarded frame : Nat) : Item :=
  granule 0 w (BitVec.ofNat 64 (status + min (2 ^ 24 - 1) discarded * 2 ^ 8 + frame * 2 ^ 32))

end Sys2Proof.Claim

open Sys2Proof.Claim in
/-- The service instructions (R425–R429) at service level, on another core of the package. SVBIND reads a row and writes it when the
core's rows then keep the rules of 04 R80, else answers 1 without a role or 2; SVHALT leaves a stop, a kill or a checkpoint pending with
its operands; SVRESUME makes the instance that waits in a frame ready, or ends it with a code, and answers 1 where none waits; with .R
it answers the remote-miss slots of a page, counts them and returns the credit that waited for one; SVMAP maps a handle of a core that no role holds, or of one in step 6 of its
recast. A bad target word or operand is ACCESS. -/
def Sys2Proof.Claim.ServiceInstructions : Prop :=
  ∀ (s : State) (d a b : Reg) (c p : Nat) (q : BitVec 32), s.coreSvc s.cur = true → s.me.outst = [] → s.me.stbuf = [] → s.me.contribs = [] →
    let w := s.me.reg a
    let y := s.me.reg b
    let x := s.core c
    let faults := fun (i : Instr) (code : BitVec 8) (detail : Word) => exec i s = .next (s.takeFault s.cur code detail)
    let gives := fun (i : Instr) (v : Word) => exec i s = .next (s.after 4 (fun c => c.setReg d v))
    ((∀ k, ¬ Target s w k) → ∀ i ∈ [Instr.svbind d a b, .svhalt d a b, .svresume d a b, .svmap d a b], faults i cACCESS w) ∧
    (Target s w c → c ≠ s.cur →
      (InPlace s y 24 p → y.toNat % 8 = 0 →
        let n := (w.extractLsb' 0 6).toNat
        let row := rowGiven (BitVec.ofNat 64 (numAt s p 8)) (BitVec.ofNat 64 (numAt s (p + 8) 8)) (BitVec.ofNat 64 (numAt s (p + 16) 8)) (x.row n).pend
        let role := s.coreRole c
        let ok := s.rowsOk c x.handles role.codeVa role.codeLen (x.rows.set n row) = true ∧
          (row.valid = true → row.prio = 7 → role.svc = true ∨ row.fault = true)
        (x.role = none → Sets1 s (.svbind d a b) d 0x8000000000000001 c x) ∧
        (x.role ≠ none → ¬ ok → Sets1 s (.svbind d a b) d 0x8000000000000002 c x) ∧
        (x.role ≠ none → ok → Sets1 s (.svbind d a b) d 0 c { x with rows := x.rows.set n row })) ∧
      (let op := (y.extractLsb' 0 2).toNat
       let e : SvcEvent := { target := c, word := w, by_ := s.cur, queue := q, addr := y - BitVec.ofNat 64 (y.toNat % 256) }
       (y.extractLsb' 2 6 ≠ 0 ∨ op = 3 → faults (.svhalt d a b) cACCESS y) ∧
       (y.extractLsb' 2 6 = 0 → op ≠ 3 → s.me.handle d = .unmapped → faults (.svhalt d a b) cQGONE 0) ∧
       (y.extractLsb' 2 6 = 0 → op ≠ 3 → s.me.handle d = .queue q → exec (.svhalt d a b) s = .next (({ s with
         happenings := s.happenings ++ [(s.now, if op = 0 then .serviceStop e else if op = 1 then .serviceKill e else .serviceCkpt e)] } : State).after
           4 (fun c => c)))) ∧
      (let f := (w.extractLsb' 0 4).toNat
       (256 ≤ y.toNat → faults (.svresume d a b) cACCESS y) ∧
       (y.toNat < 256 → f ≠ 15 → (∀ h ∈ x.held, h.frame = some f → h.st ≠ .parked .pager ∧ h.st ≠ .stopped) → gives (.svresume d a b) 1) ∧
       (f = 15 → (x.cond = .idle ∨ x.cond = .running) → x.held = [] → y.toNat < 256 → gives (.svresume d a b) 1) ∧
       (∀ h, f ≠ 15 → x.held = [h] → h.frame = some f → h.st = .parked .pager ∨ h.st = .stopped →
         (y = 0 → Sets1 s (.svresume d a b) d 0 c { x with held := [{ h with st := .ready, inst := { h.inst with readySince := s.now } }] }) ∧
         (0 < y.toNat → y.toNat < 256 → exec (.svresume d a b) s =
           .next ((s.faultHeld c h (y.setWidth 8) (Config.freeWord s.tick)).after 4 (fun c => c.setReg d 0))))) ∧
      (let id : BitVec 32 := y.setWidth 32
       let t := s.queue (qkeyOf id)
       let step6 := ∃ r, (s.coreRole c).recast = some r ∧ r.installing = true
       let gone := s.qidPkg id ≠ s.pkg ∨ id.extractLsb' 9 6 ≠ 0 ∨ t.st = .free
       let foreign := x.role ≠ none ∧ t.dom ≠ s.coreDom c ∧ t.openAll = false
       (x.role ≠ none → ¬ step6 → gives (.svmap d a b) 0x8000000000000003) ∧
       (x.role = none ∨ step6 → gone → gives (.svmap d a b) 0x8000000000000002) ∧
       (x.role = none ∨ step6 → ¬ gone → foreign → gives (.svmap d a b) 0x8000000000000004) ∧
       (x.role = none ∨ step6 → ¬ gone → ¬ foreign → Sets1 s (.svmap d a b) d 0 c
         { x with handles := x.handles.set (w.extractLsb' 0 4).toNat (.queue (s.qidOf (qkeyOf id))) }))) ∧
    (let own := (w.extractLsb' 52 12 = 0xFFF ∨ w.extractLsb' 52 12 = s.pkg) ∧ w.extractLsb' 48 4 = 0
     let good := y.extractLsb' 44 20 = 0 ∧ y.extractLsb' 8 24 = 0
     let hit := fun (m : Miss) => m.dom = y.extractLsb' 32 12 ∧ m.page = (w.extractLsb' 16 32).toNat
     (¬ own → faults (.svresumeR d a b) cACCESS w) ∧ (own → ¬ good → faults (.svresumeR d a b) cACCESS y) ∧
     (own → good → (∀ m ∈ s.misses, ¬ hit m) → (∀ t ∈ s.trunks, t.2.owed = []) → gives (.svresumeR d a b) 0) ∧
     (∀ m, own → good → s.misses = [m] → hit m → let u : State := { s with misses := [] }
       exec (.svresumeR d a b) s = .next ((if y.setWidth 8 = 0#8 then u.tryRequest m.req else u.failRequest m.req (y.setWidth 8)).giveCredit.after 4
         (fun c => c.setReg d 1))))

open Sys2Proof.Claim in
/-- The halts (R427, 04 R94; 22 R441). A stop of a core that is idle answers status 1; of a running one, with frame S free, it puts the
instance there with all that it has and leaves the core idle; of one parked in place it keeps the wait, and answers 2 when that is the
pager's. A kill ends the instance without a fault, leaves no row enabled, and counts what was discarded. A checkpoint stops likewise and
writes the record of R441; while the role is recast it answers BUSY. Each pushes its item for the service that asked. -/
def Sys2Proof.Claim.Halts : Prop :=
  ∀ (s : State) (e : SvcEvent),
    let c := e.target
    let x := s.core c
    let tells := fun (i : Instr) (u : State) (status n f : Nat) =>
      exec i s = .next (u.pushFor e.by_ e.queue (haltedItem e.word status n f))
    (x.cond = .idle → ∃ u, tells (.serviceStop e) u 1 0 0 ∧ (u.core c).cond = .idle ∧ (u.core c).held = x.held ∧ u.queues = s.queues ∧ SameMem s u) ∧
    (x.cond = .running → (∀ h ∈ x.held, h.frame ≠ some 14) → x.held.length < 64 →
      ∃ u h, tells (.serviceStop e) u 0 0 14 ∧ (u.core c).cond = .idle ∧ (u.core c).held = x.held ++ [h] ∧ h.st = .stopped ∧ h.frame = some 14 ∧
        h.pc = x.pc ∧ h.inst.id = x.inst.id ∧ h.nflags = x.nflags ∧ h.vl = x.vl ∧ h.vregs = x.vregs ∧ h.masks = x.masks ∧ h.blocks = x.blocks ∧
        (∀ k : Fin 16, h.sregs[k] = x.regs[k.val]'(by omega)) ∧ u.queues = s.queues) ∧
    (∀ w, x.cond = .parked w → ∃ u, tells (.serviceStop e) u (if w = .pager then 2 else 0) 0 15 ∧ (u.core c).cond = .stopped (some w) ∧
      (u.core c).held = x.held ∧ (u.core c).regs = x.regs ∧ (u.core c).pc = x.pc ∧ u.queues = s.queues ∧ SameMem s u) ∧
    (x.cond = .idle → x.held = [] → ∃ u, tells (.serviceKill e) u 1 0 0 ∧ (u.core c).cond = .idle ∧ (∀ r ∈ (u.core c).rows, r.2.en = false) ∧
      u.queues = s.queues ∧ SameMem s u) ∧
    (x.cond = .running → x.held = [] → ∃ u, tells (.serviceKill e) u 0 (s.ownedCount x.inst.id) 0 ∧ (u.core c).cond = .idle ∧
      (u.core c).held = [] ∧ (∀ r ∈ (u.core c).rows, r.2.en = false ∧ r.2.pend = 0) ∧ u.faults = s.faults ∧ SameMem s u) ∧
    ((∃ r, (s.coreRole c).recast = some r) → tells (.serviceCkpt e) s 14 0 0) ∧
    (∀ p, (s.coreRole c).recast = none → x.cond = .idle → e.addr.toNat % 256 = 0 → p / 2 ^ 48 = 1 ∨ p / 2 ^ 48 = 2 → (∀ k < 512, Writable s (p + k)) →
      (∀ k < 32, unitPlace { core := e.by_, dom := s.coreDom e.by_, svc := true } (e.addr + BitVec.ofNat 64 (16 * k)) .write s = .ok (p + 16 * k, s)) →
      ∃ u, tells (.serviceCkpt e) u 1 0 0 ∧ u.queues = s.queues ∧ (∀ k < 256, Memory.get u.mem (p + k) = 0) ∧
        (∀ k < 16, ∀ j < 8, Memory.get u.mem (p + 256 + 8 * k + j) = (x.regs.toList.getD (16 + k) 0).extractLsb' (8 * j) 8) ∧
        (∀ j < 8, Memory.get u.mem (p + 384 + j) = x.nmode.extractLsb' (8 * j) 8) ∧
        ∀ q, q < p ∨ p + 512 ≤ q → Memory.get u.mem q = Memory.get s.mem q)

/-- Services over cores (20 R425–R429; 22 R441). -/
def Obligations.ServiceControl : Prop := Claim.ServiceInstructions ∧ Claim.Halts

/-! ## Native services, recasts and epochs (20 R407–R418; 22 R453, R454) -/

namespace Sys2Proof.Claim

/-- Service n has call `call` at the head of its queue; `t` is the state with the call taken (R412). -/
def Asked (s : State) (n : Nat) (call : BitVec 1024) (t : State) : Prop :=
  ∃ i rest, (s.queue (500 + n)).items = i :: rest ∧ i.item.note = false ∧ i.item.data = call ∧ t = s.takeCopy (500 + n) i

/-- Table 20.6: the function, and byte b of the arguments, n bytes of them. -/
def func (call : BitVec 1024) : Nat := (call.extractLsb' 64 16).toNat
def arg (call : BitVec 1024) (b n : Nat) : Nat := (call.extractLsb' (128 + 8 * b) (8 * n)).toNat

/-- The event answers the call with a status and a result, after its effect (`u`). -/
def Answers (i : Instr) (s u : State) (call : BitVec 1024) (status result : Nat) : Prop := exec i s = .next (u.replyTo call status result)

/-- A load of several packages that stands here: where it comes from, what is known of it here, and who has yet to answer. -/
def standing (origin : BitVec 12) (serial load : Nat) (queues : List QKey) (payload : BitVec 128) (call : BitVec 1024)
    (waiting : List (BitVec 12)) : Pending :=
  { origin := origin, serial := serial, load := load, queues := queues, payload := payload, call := call, waiting := waiting,
    refused := false }

end Sys2Proof.Claim

open Sys2Proof.Claim in
/-- Loads (R407, R410, R412). A load is placed under a serial that none has, with the status of the first check that fails; one that is
placed is kept with its roles, and its epochs begin. LOAD answers BADCALL for a bad argument or an image that cannot be read (DOMAIN
where the caller's domain has no root), or that status; with no other package it launches and answers with the serial and the first role,
else the load goes to the loader of each. Such an order is placed and answered. When every package has answered, all are told to launch,
and the call is answered; when one refused, all remove it, with PEER. A word to launch or to remove is followed. (The protocol between
packages is the model's choice, log 84.) -/
def Obligations.LoadCalls : Prop :=
  ∀ (s t : State) (call : BitVec 1024),
    let dom : BitVec 12 := call.extractLsb' 80 12
    let payload : BitVec 128 := call.extractLsb' 320 128
    let mine := fun (x : Pending) (origin : BitVec 12) (serial : Nat) => x.origin == origin && x.serial == serial
    let without := fun (u : State) (origin : BitVec 12) (serial : Nat) => ({ u with orders := u.orders.filter (fun x => !mine x origin serial) } : State)
    let tell := fun (u : State) (l : Load) (serial : Nat) (launch : Bool) =>
      (l.packages.filter (fun p => p ≠ s.pkg)).foldl (fun u p => u.send p (.service (.load (.finish s.pkg serial launch)))) u
    (∀ ws load launch,
      (signedClass ws = none → s.place ws dom load launch = .error 1) ∧
      (signedClass ws = some false → asksService ws = true → s.place ws dom load launch = .error 1) ∧
      (∀ cls, signedClass ws = some cls → (asksService ws = true → cls = true) → readImage ws = none → s.place ws dom load launch = .error 2)) ∧
    (∀ ws launch pks o, let n := t.nextSerial
      (t.loads.length < 65536 → n < 65536 ∧ Tbl.find? t.loads n = none) ∧
      (∀ st, t.place ws dom n launch = .error st → t.placeLoad ws dom launch pks o = .error st) ∧
      (∀ p, t.place ws dom n launch = .ok p → ∃ qs v l, t.placeLoad ws dom launch pks o = .ok (n, qs, v) ∧
        qs = (p.queues.filter (fun q => q.1 + 1 = launch)).map (·.2) ∧ Tbl.find? v.loads n = some l ∧ l.dom = dom ∧
        l.roles = p.roles.map (·.num) ∧ l.image = ws ∧ l.packages = pks ∧ (l.origin, l.serial) = o.getD (t.pkg, n) ∧ v.roles = p.s.roles ∧
        (p.s.now + 1000 * 2000000, Instr.epochTimer n) ∈ v.happenings)) ∧
    (∀ q v, t.accept q { tag := 0, data := payload.setWidth 1024 } 0 true = .ok v → t.launch [q] payload = v) ∧
    (Asked s 0 call t → func call ∉ [1, 2, 3, 4] ∨ (func call = 1 ∧ 64 < arg call 14 2) → Answers (.load .call) s t call 16 0) ∧
    (Asked s 0 call t → func call = 1 → arg call 14 2 ≤ 64 →
      (∀ code x, t.peersOf dom (arg call 14 2) (arg call 16 8) = .error (.trap code x) → Answers (.load .call) s t call 16 0) ∧
      (∀ others u, t.peersOf dom (arg call 14 2) (arg call 16 8) = .ok (others, u) →
        (∀ code x, u.readFor dom (arg call 0 8) (arg call 8 4) = .error (.trap code x) → Answers (.load .call) s u call 16 0) ∧
        (∀ x, u.readFor dom (arg call 0 8) (arg call 8 4) = .error (.page x) →
          Answers (.load .call) s u call (if (u.devGet (rootReg dom)).getLsbD 0 then 16 else 9) 0) ∧
        (∀ bs w, u.readFor dom (arg call 0 8) (arg call 8 4) = .ok (bs, w) →
          let ws := if arg call 8 4 % 8 = 0 then wordsOf bs else []
          let pks := w.pkg :: others
          (∀ st, w.placeLoad ws dom (arg call 12 2) pks none = .error st → st ≠ 0 → Answers (.load .call) s w call st 0) ∧
          (∀ n qs v, w.placeLoad ws dom (arg call 12 2) pks none = .ok (n, qs, v) →
            (others = [] → Answers (.load .call) s (v.launch qs payload) call 0 (n + 65536 * (v.loads.get {} n).roles.headD 0)) ∧
            (others ≠ [] → exec (.load .call) s = .next (others.foldl (fun u p => u.send p (.service (.load (.order
              { origin := v.pkg, serial := n, dest := p, dom := dom, image := ws, launch := arg call 12 2, payload := payload,
                packages := v.pkg :: others }))))
              ({ v with orders := v.orders ++ [standing v.pkg n n qs payload call others] } : State))))))) ∧
    (∀ x : LoadOrder,
      (∀ st, s.placeLoad x.image x.dom x.launch x.packages (some (x.origin, x.serial)) = .error st → st ≠ 0 →
        exec (.load (.order x)) s = .next (s.send x.origin (.service (.load (.answer x.serial s.pkg false))))) ∧
      (∀ n qs v, s.placeLoad x.image x.dom x.launch x.packages (some (x.origin, x.serial)) = .ok (n, qs, v) →
        exec (.load (.order x)) s = .next (({ v with orders := v.orders ++ [standing x.origin x.serial n qs x.payload 0 []] } : State).send x.origin
          (.service (.load (.answer x.serial s.pkg true)))))) ∧
    (∀ (o : Pending) (pkg : BitVec 12) (placed : Bool), s.orders = [o] → o.origin = s.pkg →
      let left := o.waiting.filter (fun p => p ≠ pkg)
      let o' : Pending := { o with waiting := left, refused := o.refused || !placed }
      let l := s.loads.get {} o.load
      (left ≠ [] → exec (.load (.answer o.serial pkg placed)) s = .next { s with orders := [o'] }) ∧
      (left = [] → placed = true → o.refused = false → Answers (.load (.answer o.serial pkg placed)) s
        (tell (({ s with orders := [] } : State).launch o.queues o.payload) l o.serial true) o.call 0 (o.load + 65536 * l.roles.headD 0)) ∧
      (∀ k v, left = [] → placed = false ∨ o.refused = true → s.loadFrom s.pkg o.serial = some k →
        ({ s with orders := [o'] } : State).tryRemove k.1 = some v →
        Answers (.load (.answer o.serial pkg placed)) s (tell (without v s.pkg o.serial) l o.serial false) o.call 15 0)) ∧
    (∀ o : Pending, s.orders = [o] →
      exec (.load (.finish o.origin o.serial true)) s = .next (({ s with orders := [] } : State).launch o.queues o.payload)) ∧
    (∀ origin serial, (∀ o ∈ s.orders, mine o origin serial = false) → exec (.load (.finish origin serial true)) s = .next s) ∧
    (∀ origin serial k v, s.loadFrom origin serial = some k → s.tryRemove k.1 = some v →
      exec (.load (.finish origin serial false)) s = .next (without v origin serial))

open Sys2Proof.Claim in
/-- The other calls of the loader, the allocator, the network service and fumarole (R407, R410–R413), each at the head of its queue. A
reply is one granule of the cookie, the status and the result, to the queue that REPLY names. REMOVE takes a load away from its core;
QUERY tells a role; MAP and UNMAP answer for ranges, once what goes by them is applied; LIFETIME sets the register of 15 R328, and tells
the packages that a route leads to (log 84); APPEND numbers a record. -/
def Sys2Proof.Claim.ServiceCalls : Prop :=
  ∀ (s t : State) (call : BitVec 1024),
    let dom : BitVec 12 := call.extractLsb' 80 12
    let id : BitVec 32 := call.extractLsb' 96 32
    (∀ st res v, id ≠ 0 → s.qidPkg id = s.pkg → id.extractLsb' 9 6 = 0 → st < 256 → res < 2 ^ 56 →
      s.acceptPush (qkeyOf id) (granule 0 (call.extractLsb' 0 64) (BitVec.ofNat 64 (st + 256 * res))) 0 true = .ok v →
      s.replyTo call st res = v) ∧
    (Asked s 0 call t → func call = 2 → let n := arg call 0 2
      (Tbl.find? t.loads n = none → Answers .remove s t call 13 0) ∧
      (∀ l, Tbl.find? t.loads n = some l →
        (∀ r ∈ l.roles, (t.role r).recast ≠ none → Answers .remove s t call 14 0) ∧
        ((∀ r ∈ l.roles, (t.role r).recast = none) → t.settledDomain l.dom = none → exec .remove s = .next (s.post 64 .remove)) ∧
        (∀ r c, l.roles = [r] → (t.role r).recast = none → (t.role r).cores = [c] → (t.role r).pages = [] → l.queues = [] → l.pages = [] →
          l.packages = [s.pkg] → (t.core c).cond = .idle → (t.core c).held = [] → t.settledDomain l.dom = some t →
          ∃ u, (u.core c).role = none ∧ (u.core c).rows = [] ∧ (u.core c).handles = [] ∧ Tbl.find? u.roles r = none ∧ Tbl.find? u.loads n = none ∧
            Tbl.find? u.store n = none ∧ (∀ k, k ≠ c → u.core k = t.core k) ∧
            (∀ q, u.queue q = t.queue q ∨ ((t.queue q).st = .failed ∧ (u.queue q).st = .free)) ∧ Answers .remove s u call 0 0))) ∧
    (Asked s 0 call t → func call = 4 →
      (Tbl.find? t.roles (arg call 0 2) = none → Answers .query s t call 13 0) ∧
      (∀ r, Tbl.find? t.roles (arg call 0 2) = some r →
        Answers .query s t call 0 ((if r.recast = none then 0 else 1) + 2 ^ 3 * r.version.toNat + 2 ^ 19 * (r.cores.length - 1)))) ∧
    (Asked s 1 call t → let n := (arg call 0 8 + 65535) / 65536
      (func call = 1 → n = 0 → Answers .map s t call 16 0) ∧
      (func call ≠ 1 → func call ≠ 2 → Answers .map s t call 16 0) ∧
      (∀ p u, func call = 1 → n ≠ 0 → t.newRange dom n (decide (arg call 8 1 % 2 = 1)) = some (p, u) → Answers .map s u call 0 (p * 65536)) ∧
      (func call = 1 → n ≠ 0 → t.newRange dom n (decide (arg call 8 1 % 2 = 1)) = none →
        Answers .map s t call (if (t.devGet (rootReg dom)).getLsbD 0 then 5 else 9) 0) ∧
      (func call = 2 → arg call 8 8 = 0 → Answers .unmap s t call 16 0) ∧
      (func call = 2 → arg call 8 8 ≠ 0 → t.settledDomain dom = none → exec .unmap s = .next (s.post 64 .unmap)) ∧
      (∀ w, func call = 2 → arg call 8 8 ≠ 0 → t.settledDomain dom = some w →
        let va := arg call 0 8 % 2 ^ 48
        let pages := (va % 65536 + arg call 8 8 + 65535) / 65536
        (w.dropRange dom (va / 65536) pages = none → Answers .unmap s w call 13 0) ∧
        (∀ u, w.dropRange dom (va / 65536) pages = some u → Answers .unmap s u call 0 0))) ∧
    (∀ d us, s.peerWords = [.lifetime d us] →
      exec .lifetime s = .next (({ s with peerWords := [] } : State).devPut (lifeReg (BitVec.ofNat 12 d)) (BitVec.ofNat 64 us))) ∧
    (Asked s 3 call t → s.peerWords = [] → let d := arg call 0 2
      let us := arg call 2 4
      (func call ≠ 1 ∨ us < 10 ∨ 1000 < us ∨ 4096 ≤ d → Answers .lifetime s t call 16 0) ∧
      (func call = 1 → 10 ≤ us → us ≤ 1000 → d < 4096 → Answers .lifetime s (((t.routes.map (fun r => BitVec.ofNat 12 r.1)).filter
        (fun p => p ≠ t.pkg)).foldl (fun u p => u.send p (.service (.lifetime d us)))
          (t.devPut (lifeReg (BitVec.ofNat 12 d)) (BitVec.ofNat 64 us))) call 0 0)) ∧
    (Asked s 5 call t →
      (func call ≠ 1 → Answers .append s t call 16 0) ∧
      (func call = 1 → Answers .append s { t with fumarole := t.fumarole ++ [call.extractLsb' 128 896], fumaroleSeq := t.fumaroleSeq + 1 }
        call 0 (t.fumaroleSeq + 1)))

open Sys2Proof.Claim in
/-- The checkpoint service (22 R453, R454). An epoch is taken at a step boundary, once every access under the domain's translations is
applied, with the number after the last, and is kept after those before it; a load that is not there, or without a store, or one that the
store cannot hold (log 85), is NOSUCH, a recast BUSY. EPOCH gives the latest that the store holds, 0 when there is none; PERIOD sets the
period within its bounds, and the timer runs anew; the timer takes an epoch and runs on; RESUME answers what the resumption gives, and
the other packages of a load are told of its epochs and resumptions, and follow (log 84). -/
def Sys2Proof.Claim.EpochCalls : Prop :=
  ∀ (s t : State) (call : BitVec 1024) (n : Nat),
    let last := fun (t : State) => (((t.store.get {} n).epochs.getLast?).map (·.number)).getD 0
    let taken := fun (t : State) (r : Nat × State) => ∃ e : Epoch, e.number = last t + 1 ∧ (r.1 = e.number ∨ (Config.hostStore = true ∧ r.1 = 0)) ∧
      (r.2.store.get {} n).epochs = (t.store.get {} n).epochs ++ [e] ∧
      (∀ k, k ≠ n → Tbl.find? r.2.store k = Tbl.find? t.store k) ∧ r.2.loads = t.loads ∧ r.2.roles = t.roles ∧ r.2.queues = t.queues
    (s.peerWords = [] → Asked s 4 call t → n = arg call 0 2 →
      (func call = 1 →
        (Config.hostStore = true → (t.devGet (storeReg 2)).getLsbD 0 = false → Answers .take s t call 13 0) ∧
        (Tbl.find? t.loads n = none → Answers .take s t call 13 0) ∧
        (∀ l, t.savable n = some l →
          ((∃ r ∈ l.roles, (t.role r).recast ≠ none) → Answers .take s t call 14 0) ∧
          ((∀ r ∈ l.roles, (t.role r).recast = none) → t.tryEpoch n l = none → exec .take s = .next (s.post 64 .take)) ∧
          (t.canTake l = false → t.tryEpoch n l = none) ∧
          (∀ r, (∀ r ∈ l.roles, (t.role r).recast = none) → t.tryEpoch n l = some r → taken t r ∧ Answers .take s
            ((l.packages.filter (fun p => p ≠ t.pkg)).foldl (fun u p => u.send p (.service (.take l.origin l.serial))) r.2) call
            (if r.1 = 0 then 13 else 0) r.1))) ∧
      (func call ∉ [1, 2, 3, 4] → Answers .take s t call 16 0)) ∧
    (Asked s 4 call t → n = arg call 0 2 → func call = 2 →
      (t.storeOn = false → Answers .epoch s t call 0 0) ∧
      (t.storeOn = true → Tbl.find? t.store n = none → Answers .epoch s t call 13 0) ∧
      (t.storeOn = true → Tbl.find? t.store n ≠ none →
        (Config.hostStore = false → Answers .epoch s t call 0 (last t)) ∧
        Answers .epoch s (t.epochsOf n).2 call 0 ((((t.epochsOf n).1.getLast?).map (·.number)).getD 0))) ∧
    (Config.hostStore = false ∨ s.storeOn = false → s.fetchRequest = s) ∧
    (s.peerWords = [] → (s.fetchRequest.storeOn = true → s.fetchRequest.resumeReq = []) → Asked s.fetchRequest 4 call t → n = arg call 0 2 →
      func call = 3 → let k := arg call 8 8
      (t.storeOn = false → Answers .resume s t call 13 0) ∧
      (t.storeOn = true → (∀ e ∈ (t.store.get {} n).epochs, e.number ≠ k) → Answers .resume s t call 13 0) ∧
      (∀ st, t.storeOn = true → t.resumeLoad n k = .error st → st ≠ 0 → Answers .resume s t call st 0) ∧
      (∀ u, t.storeOn = true → t.resumeLoad n k = .ok u → Answers .resume s (((t.store.get {} n).packages.filter (fun p => p ≠ u.pkg)).foldl
        (fun u p => u.send p (.service (.resume (t.store.get {} n).origin (t.store.get {} n).serial k))) u) call 0 0)) ∧
    (∀ origin serial, s.peerWords = [.take origin serial] → let t : State := { s with peerWords := [] }
      (t.loadFrom origin serial = none → exec .take s = .next t) ∧
      (∀ l, t.loadFrom origin serial = some l → (t.storeOn = false → exec .take s = .next t) ∧
        (t.storeOn = true → t.tryEpoch l.1 l.2 = none → exec .take s = .next (s.post 64 .take)) ∧
        (∀ r, t.storeOn = true → t.tryEpoch l.1 l.2 = some r → exec .take s = .next r.2))) ∧
    (∀ origin serial k, s.peerWords = [.resume origin serial k] → let t : State := { s with peerWords := [] }
      (List.find? (fun (x : Nat × Saved) => x.2.origin == origin && x.2.serial == serial) t.store = none → exec .resume s = .next t) ∧
      (∀ x u, List.find? (fun (x : Nat × Saved) => x.2.origin == origin && x.2.serial == serial) t.store = some x → t.storeOn = true →
        t.resumeLoad x.1 k = .ok u → exec .resume s = .next u)) ∧
    (Asked s 4 call t → n = arg call 0 2 → func call = 4 → let ms := arg call 2 4
      (t.savable n = none → Answers .period s t call 13 0) ∧
      (t.savable n ≠ none → ms < 100 ∨ 60000 < ms → Answers .period s t call 16 0) ∧
      (t.savable n ≠ none → 100 ≤ ms → ms ≤ 60000 → ∃ u, (u.store.get {} n).period = ms ∧ (u.store.get {} n).epochs = (t.store.get {} n).epochs ∧
        u.happenings = t.happenings.filter (fun h => h.2 ≠ .epochTimer n) ++ [(t.now + ms * 2000000, .epochTimer n)] ∧ u.cores = t.cores ∧
        Answers .period s u call 0 0)) ∧
    (let period := (s.store.get {} n).period * 2000000
     (Tbl.find? s.loads n = none → exec (.epochTimer n) s = .next s) ∧
     (∀ l, Tbl.find? s.loads n = some l →
       (s.storeOn = false → exec (.epochTimer n) s = .next (s.post period (.epochTimer n))) ∧
       (∀ r, s.storeOn = true → s.tryEpoch n l = some r → taken s r ∧ exec (.epochTimer n) s = .next (r.2.post period (.epochTimer n))) ∧
       (s.storeOn = true → s.tryEpoch n l = none → exec (.epochTimer n) s = .next (s.post 64 (.epochTimer n)))))

/-- The functions of the services (20 R407–R413; 22 R453). -/
def Obligations.ServiceFunctions : Prop := Claim.ServiceCalls ∧ Claim.EpochCalls

open Sys2Proof.Claim in
/-- Recasts (20 R414–R418). RECAST answers BADCALL, or the status of the first check that fails, NOSUCH and BUSY after the image's; else the role is recasting
under the next serial and version, with its deadline. A curtain that was refused is pushed again while it is owed. An input closes when
the recast's curtain stands first, which is dropped; one whose curtain does not is looked at again. When every core is quiet and no
handle maps an output the install follows; a core that is not quiet is waited for. The deadline kills what is left, counts it, and
closes every input. The install makes the role the new version, no longer recasting, and replies. -/
def Obligations.Recasts : Prop :=
  ∀ (s t : State) (call : BitVec 1024) (role : Nat) (c : CoreId) (q : QKey),
    let live := s.role role
    (Asked s 0 call t → func call = 3 → role = arg call 0 2 →
      let us := if arg call 20 4 = 0 then 10000 else arg call 20 4
      (∀ code x, t.readFor (call.extractLsb' 80 12) (arg call 8 8) (arg call 16 4) = .error (.trap code x) → Answers .recast s t call 16 0) ∧
      (∀ bs u, t.readFor (call.extractLsb' 80 12) (arg call 8 8) (arg call 16 4) = .ok (bs, u) →
        let ws := if arg call 16 4 % 8 = 0 then wordsOf bs else []
        (∀ img cls r, checkImage ws true = .ok (img, cls) → recastForm img = some r → Tbl.find? u.roles role = none → ratesOk img = true →
          u.stage ws role = .error 13) ∧
        (∀ st, u.stage ws role = .error st → st ≠ 0 → Answers .recast s u call st 0) ∧
        (∀ p frames, u.stage ws role = .ok (p, frames) → ∃ r, Tbl.find? u.roles role = some r ∧ r.recast = none ∧ (u.inputsOf role = [] →
          ∃ v k, exec .recast s = .next v ∧ (v.role role).recast = some k ∧ k.version = r.version + 1 ∧ k.serial = p.s.nextRecast + 1 ∧
            k.call = call ∧ k.deadline = p.s.now + us * 2000 ∧ k.forwarded = false ∧ (v.role role).version = (p.s.role role).version ∧
            (p.s.now, Instr.recastForward role) ∈ v.happenings ∧ (p.s.now + us * 2000, Instr.recastDeadline role) ∈ v.happenings)))) ∧
    (live.recast = none → exec (.recastForward role) s = .next s ∧ exec (.recastDeadline role) s = .next s ∧
      exec (.recastInstall role) s = .next s ∧ ∀ id, exec (.curtainRetry role id) s = .next s) ∧
    (∀ r, live.recast = some r →
      (∀ id, id ∉ r.inputs → id ∉ r.outputs → exec (.curtainRetry role id) s = .next s) ∧
      (∀ id, id ∈ r.inputs → s.qidPkg id = s.pkg →
        let curtain : Item := { tag := 8, data := BitVec.ofNat 1024 (role % 2 ^ 16 * 2 ^ 48 + r.version.toNat * 2 ^ 32 + r.serial.toNat) }
        (∀ v, s.accept (qkeyOf id) curtain 0 true = .ok v → exec (.curtainRetry role id) s = .next (v.settled role id 0)) ∧
        (s.accept (qkeyOf id) curtain 0 true = .error cQFULL → exec (.curtainRetry role id) s = .next (s.post 1024 (.curtainRetry role id)))) ∧
      ((s.core c).role = some role → r.forced = false → r.forwarded = false → q ∉ (s.core c).closed →
        let unowned := (s.queue q).items.filter (fun i => i.core = c ∧ i.owner = none)
        let isCurtain := fun (i : Copy) => i.item.tag = 8 ∧
          (i.item.data.extractLsb' 0 64).toNat = role % 2 ^ 16 * 2 ^ 48 + r.version.toNat * 2 ^ 32 + r.serial.toNat
        (∀ i rest, unowned = i :: rest → isCurtain i → ∃ u, exec (.inputClose c q) s = .next u ∧ (u.core c).closed = (s.core c).closed ++ [q] ∧
          (q < 16384 → u.queues = (s.takeCopy q i).queues) ∧ (∀ k, k ≠ c → u.core k = s.core k)) ∧
        (∀ i rest, unowned = i :: rest → ¬ isCurtain i → exec (.inputClose c q) s = .next (s.post 64 (.inputClose c q)))) ∧
      (r.forwarded = true → exec (.recastForward role) s = .next s) ∧
      (live.cores = [c] → r.forwarded = false → s.quiet role c r.forced = false →
        exec (.recastForward role) s = .next (s.post 64 (.recastForward role))) ∧
      (live.cores = [c] → r.forwarded = false → s.holdsNothing c = true → s.inputsOf role = [] → (s.core c).contribs = [] → (s.core c).outst = [] →
        (s.core c).stbuf = [] → (s.core c).handles = [] → s.happenings = [] →
        ∃ u k, exec (.recastForward role) s = .next u ∧ (u.role role).recast = some k ∧ k.forwarded = true ∧ k.installing = true ∧ k.outputs = [] ∧
          u.happenings = [(s.now, .recastInstall role)] ∧ (∀ x ∈ (u.core c).rows, x.2.pend = 0) ∧ SameMem s u) ∧
      (s.now < r.deadline → exec (.recastDeadline role) s = .next (s.post (r.deadline - s.now) (.recastDeadline role))) ∧
      (r.deadline ≤ s.now → r.forwarded = false → r.forced = false → live.cores = [c] → (s.core c).held = [] →
        ∃ u k, exec (.recastDeadline role) s = .next u ∧ (u.role role).recast = some k ∧ k.forced = true ∧
          k.killed = (if (s.core c).cond = .idle then 0 else 1) ∧ (u.core c).cond = .idle ∧ (u.core c).held = []) ∧
      (r.deadline ≤ s.now → r.forwarded = true ∨ r.forced = true → exec (.recastDeadline role) s = .next s) ∧
      (r.installing = false → exec (.recastInstall role) s = .next s) ∧
      (∀ img rr, r.installing = true → readImage r.image = some img → img.roles = [rr] → s.settledDomain live.dom = none →
        exec (.recastInstall role) s = .next (s.post 64 (.recastInstall role))) ∧
      (∀ img rr, r.installing = true → readImage r.image = some img → img.roles = [rr] → s.settledDomain live.dom = some s →
        ∃ u, (u.role role).version = r.version ∧ (u.role role).recast = none ∧ (u.role role).codeVa = rr.codeVa ∧ (u.role role).banks = rr.banks ∧
          (u.role role).codeLen = 4 * rr.code.length ∧ (u.role role).cores = live.cores ∧
          Answers (.recastInstall role) s u r.call 0 (r.version.toNat + 65536 * min 65535 r.killed)))

/-! ## The host port, storage errors, monitors, power and start-up (20 R421–R424; 22 R442–R455; 00 R5) -/

namespace Sys2Proof.Claim

/-- The device registers but those in `rs` read as before, and nothing else of the state differs. -/
def OnlyRegs (s u : State) (rs : List Nat) : Prop :=
  u = { s with dev := u.dev } ∧ ∀ r, r ∉ rs → u.devGet r = s.devGet r

/-- A host page's control word (Table 20.12) is now w. -/
def PageWord (s u : State) (page : Nat) (w : Word) : Prop := u.devGet (pageReg page 0) = w ∧
  ∀ r, r ≠ pageReg page 0 → u.devGet r = s.devGet r

/-- A word with its bits [p+n−1:p] given by v. -/
def withBits (w : Word) (p n v : Nat) : Word := (w &&& ~~~(BitVec.ofNat 64 ((2 ^ n - 1) * 2 ^ p))) ||| BitVec.ofNat 64 (v % 2 ^ n * 2 ^ p)

/-- The device answers, or writes to, the host. -/
def toHost (s : State) (m : Msg) : Out := { dst := s.pkg, msg := m, waiting := false, transit := false }

end Sys2Proof.Claim

open Sys2Proof.Claim in
/-- The host port (R421–R423). A store of other than 128 bytes, at other than a window, or to a page that is not there, is answered
Unsupported Request. A submission that the page's registration and its record admit becomes a call of the page's domain in the
service's queue, whose reply path is the page, and is answered with success; OUTST counts it; else it is answered Retry. A posted
write to a page is discarded and counted. A reply goes to the page's completion ring, then the notification, and OUTST falls; one to a
page that is disabled is refused. -/
def Sys2Proof.Claim.HostPort : Prop :=
  ∀ (s : State) (page offset : Nat) (bs : List Byte) (reply : BitVec 128),
    let w := s.devGet (pageReg page 0)
    let r : BitVec 1024 := BitVec.ofNat 1024 (natOfBytes bs)
    let svc := (r.extractLsb' 96 16).toNat
    let out := s.accepted.get 0 page - s.completed.get 0 page
    let window := offset % 128 = 0 ∧ offset ≤ 0xF7F
    let admitted := w.getLsbD 63 = true ∧ out < 32 ∧ svc ≤ 5 ∧ svc ≠ 2 ∧ r.extractLsb' 112 16 = 0 ∧ r.extractLsb' 80 16 = 0
    let answers := fun (u : State) (n : Nat) => exec (.hostSubmission page offset bs) s =
      .next { u with egress := u.egress ++ [toHost u (.hostAnswer page n)] }
    let call : BitVec 1024 := r.extractLsb' 128 896 ++ BitVec.ofNat 32 (page * 2 ^ 20 + 0x7E00) ++ 0#4 ++ w.extractLsb' 0 12 ++ r.extractLsb' 0 80
    (1024 ≤ page ∨ bs.length ≠ 128 ∨ ¬ window → answers s 2) ∧
    (page < 1024 → bs.length = 128 → window →
      (¬ admitted → answers s 1) ∧
      (∀ code, admitted → s.accept (500 + svc) { tag := 0, data := call } (w.extractLsb' 0 12) true = .error code → answers s 1) ∧
      (∀ t, admitted → s.accept (500 + svc) { tag := 0, data := call } (w.extractLsb' 0 12) true = .ok t →
        ∃ u, u = { t with accepted := s.accepted.set page (s.accepted.get 0 page + 1), dev := u.dev } ∧
          PageWord t u page (withBits w 40 8 (s.accepted.get 0 page + 1 - s.completed.get 0 page)) ∧ answers u 0)) ∧
    (1024 ≤ page ∨ 0xF7F < offset → exec (.hostPostedWrite page offset) s = .next s) ∧
    (page < 1024 → offset ≤ 0xF7F → ∃ u, exec (.hostPostedWrite page offset) s = .next u ∧ u = { s with dev := u.dev } ∧
      PageWord s u page (withBits w 48 15 (min 0x7FFF ((w.extractLsb' 48 15).toNat + 1)))) ∧
    (page < 1024 →
      (w.getLsbD 63 = false → exec (.hostReply page reply) s = .next { s with refusals := s.refusals + 1 }) ∧
      (w.getLsbD 63 = true →
        let n := s.completed.get 0 page
        ∃ u, exec (.hostReply page reply) s = .next u ∧
          u = { s with completed := s.completed.set page (n + 1), dev := u.dev, egress := u.egress } ∧
          PageWord s u page (withBits w 40 8 (s.accepted.get 0 page - (n + 1))) ∧
          u.egress = s.egress ++
            [toHost s (.hostWrite (s.devGet (pageReg page 3) + BitVec.ofNat 64 (16 * (n % 256))) ((List.range 16).map (fun i => reply.extractLsb' (8 * i) 8))),
             toHost s (.hostWrite (s.devGet (pageReg page 2)) ((List.range 8).map (fun i => (s.devGet (pageReg page 1)).extractLsb' (8 * i) 8)))]))

namespace Sys2Proof.Claim

/-- The doublewords of the log of array (kind, n). -/
def logRegs (kind n : Nat) : List Nat := (List.range 4).flatMap (fun i => (List.range 4).map (fun k => logReg kind n i + k))

/-- An error has been logged (R443, Table 22.6): the older entries are one place down, entry 0 tells of it, and its count is one more. -/
def Logged (s u : State) (kind n code : Nat) (inj : Bool) (addr : Word) (synd : BitVec 16) (dom : BitVec 12) : Prop :=
  let count := min (2 ^ 32 - 1) ((s.dev.get 0 (countKey kind n)).toNat + 1)
  u.devGet (logReg kind n 0) = BitVec.ofNat 2 code ++ (if inj then 1#1 else 0#1) ++ 0#61 ∧
  u.devGet (logReg kind n 0 + 1) = synd ++ dom ++ 0#4 ++ BitVec.ofNat 32 count ∧
  u.devGet (logReg kind n 0 + 2) = BitVec.ofNat 64 (s.now / 2) ∧ u.devGet (logReg kind n 0 + 3) = addr ∧
  (∀ i < 3, ∀ k < 4, u.devGet (logReg kind n (i + 1) + k) = s.devGet (logReg kind n i + k)) ∧
  u.dev.get 0 (countKey kind n) = BitVec.ofNat 64 count ∧ OnlyRegs s u (logRegs kind n)

/-- An older entry of the log tells of a corrected error in the same row within 60 s (R446; rows: log 71). -/
def Again (s : State) (x : EccErr) : Prop :=
  let entry := logReg x.kind.toNat x.n
  ∃ i, 1 ≤ i ∧ i ≤ 3 ∧ (s.devGet (entry i + 1)).extractLsb' 0 32 ≠ 0 ∧ (s.devGet (entry i)).extractLsb' 62 2 = 0 ∧
    s.now / 2 ≤ (s.devGet (entry i + 2)).toNat + 60000000000 ∧
    s.errorRow x.kind.toNat x.n (s.devGet (entry i + 3)) ((s.devGet (entry i + 1)).extractLsb' 36 12) =
      s.errorRow x.kind.toNat x.n x.addr x.domain

/-- No test has word of the core. -/
def Untested (s : State) (c : CoreId) : Prop := ∀ t ∈ s.tests, t.core ≠ some c

/-- Nothing is bad in the core's TCM, and no injection register of it is armed. -/
def Sound (s : State) (c : CoreId) : Prop := s.injected = [] ∧ (s.dev.get 0 (injReg 0 (s.coreArray c))).getLsbD 63 = false

/-- A test of a row that begins, for the error x. -/
def rowTest (s u : State) (x : EccErr) : Test :=
  { id := s.nextId, kind := x.kind, n := x.n, core := none, frame := none, lost := [], again := false,
    row := u.errorRow x.kind.toNat x.n x.addr x.domain, count := (u.dev.get 0 (countKey x.kind.toNat x.n)).toNat, ended := false }

/-- An understudy has the core's place (R447): its number, and the log of the array that it leaves. -/
def TakenOver (s u : State) (c : CoreId) : Prop :=
  u.understudies = s.understudies.upd 0 (c / 256) (· + 1) ∧ (u.core c).replaced = true ∧ (u.core c).understudy = s.understudies.get 0 (c / 256) ∧
    u.coreArray c = c / 4096 * 2 ^ 13 + c / 256 % 16 * 2 ^ 9 + 256 + s.understudies.get 0 (c / 256) ∧
    (∀ i < 4, ∀ k < 4, u.devGet (logReg 0 (u.coreArray c) i + k) = s.devGet (logReg 0 (s.coreArray c) i + k)) ∧
    u.dev.get 0 (countKey 0 (u.coreArray c)) = s.dev.get 0 (countKey 0 (s.coreArray c)) ∧ (u.core c).itlb = [] ∧ (u.core c).dtlb = [] ∧
    (u.core c).rows = (s.core c).rows ∧ (u.core c).regs = (s.core c).regs ∧ (u.core c).handles = (s.core c).handles ∧
    (u.core c).nmode = (s.core c).nmode ∧ (∀ k, k ≠ c → u.core k = s.core k) ∧ SameMem s u

/-- POISON with payload zero. -/
def poison : Item := { tag := 9, data := 0 }

end Sys2Proof.Claim

open Sys2Proof.Claim in
/-- Storage errors (R442–R444, R446, R447; Tables 22.5 and 22.12). An error is logged; with an injected error at its word it is logged
as injected. A corrected one is written back. It, and an injected one, has no other effect
but that of its place when it is uncorrectable: the instruction faults, a masked write is reported, an item becomes POISON, a bank is bad,
the instance of a frame ends, a walk or a record meets it, a held store is discarded, a cue fails. One that was not injected starts a
test of its row, or of the core of a bad binding row, or tells a test that runs there. A test that passes leaves the array as it was and lets a stopped instance go on; one
that does not takes a spare row, or with none left marks the bank, or retires the core: to an understudy, which copies its log and lets what the test stopped go on, or with none left by ending
what it runs. Clearing an entry and arming an injection are writes of the service level. -/
def Obligations.StorageErrors : Prop :=
  ∀ (s : State) (x : EccErr) (id n entry : Nat) (kind : BitVec 3) (v : Word) (lasting : Bool) (c : CoreId),
    (x.n < arrayCount x.kind.toNat →
      let met := fun (e : Bad) => e.inj && e.kind == x.kind && e.n == x.n && e.word == s.wordOf x.kind.toNat x.n x.addr x.domain
      let inj := x.inj || s.injected.any met
      ∃ u, Logged s u x.kind.toNat x.n (if x.fatal then 1 else 0) inj x.addr x.synd x.domain ∧
      (x.fatal = false → inj = true ∨ ¬ Again u x →
        exec (.eccError x) s = .next { u with injected := s.injected.filter (fun e => e.fatal || !met e) }) ∧
      (x.fatal = true → inj = true →
        let to_ := fun (t : State) => exec (.eccError x) s = .next t
        (∀ c, x.site = .access c → (s.core c).cond = .running → to_ (u.takeFault c cECC x.addr)) ∧
        (∀ c, x.site = .masked c → to_ ((u.dropMasked c).report c cECC x.addr x.addr)) ∧
        (∀ c, x.site = .met c → to_ (u.report c cECC x.addr x.addr)) ∧
        (∀ q k, x.site = .item q k false → q < 500 ∨ 506 ≤ q →
          to_ (u.setQueue q { s.queue q with items := (s.queue q).items.modify k (fun i => { i with item := poison }) })) ∧
        (∀ q k, x.site = .item q k true → q < 500 ∨ 506 ≤ q →
          to_ (u.setQueue q { s.queue q with spill := (s.queue q).spill.modify k (fun _ => poison) })) ∧
        (∀ e name b, x.site = .bank e name → Tbl.find? (s.ens e).banks name = some b →
          to_ (u.setEns e { s.ens e with banks := (s.ens e).banks.set name { b with bad := true } })) ∧
        (∀ c f h, x.site = .frame c f → (s.core c).held = [h] → h.frame = some f → to_ (u.faultHeld c h cECC x.addr)) ∧
        (∀ pa, x.site = .pte pa → ∃ t, to_ t ∧ t = { u with injected := t.injected }) ∧
        (∀ i, x.site = .record i true → ∃ t, to_ t ∧ t = { u with injected := t.injected } ∧
          ∀ k < 32, ∀ copy < 2, ∃ b ∈ t.injected, b.kind = 6 ∧ b.n = copy ∧ b.word = 32 * i + k ∧ b.fatal = true) ∧
        (∀ i, x.site = .record i false → to_ u) ∧
        (∀ i h, x.site = .held i → s.hold = [h] → h.id = i → to_ (({ u with hold := [] } : State).discardHeld h.req cCUEBAD)) ∧
        (∀ slot, x.site = .cue slot → (s.cue slot).st = .pending → slot < 4096 →
          to_ (u.settleCue (s.pkg ++ BitVec.ofNat 12 slot ++ (s.cue slot).gen) false)) ∧
        (∀ c, x.site = .row c ∨ x.site = .scrub → to_ u)) ∧
      (inj = false → (x.fatal = false ∧ Again u x) ∨ (x.fatal = true ∧ x.site = .scrub ∧ x.kind ≠ 0) → (∀ c, x.site ≠ .row c) →
        let there := fun (t : Test) => t.core = none ∧ t.kind = x.kind ∧ t.n = x.n ∧ t.row = u.errorRow x.kind.toNat x.n x.addr x.domain
        ((∃ t ∈ s.tests, there t) → ∃ t, exec (.eccError x) s = .next t ∧ t = { u with tests := t.tests } ∧
          t.tests.length = s.tests.length ∧ ∀ y ∈ t.tests, there y → y.again = true) ∧
        ((∀ t ∈ s.tests, ¬ there t) → ∃ t verdict, exec (.eccError x) s = .next t ∧ t.tests = s.tests ++ [rowTest s u x] ∧
          t.happenings = s.happenings ++ [(s.now, .selfTestEnd s.nextId verdict)] ∧ t.cores = s.cores ∧ t.mem = s.mem ∧ t.dev = u.dev)) ∧
      (∀ c, inj = false → x.fatal = true → x.site = .row c → Untested s c → (s.core c).cond = .idle → ∃ t y verdict, exec (.eccError x) s = .next t ∧
        t.tests = s.tests ++ [y] ∧ y.id = s.nextId ∧ y.core = some c ∧ y.frame = none ∧ y.again = false ∧ y.ended = false ∧ (t.core c).cond = .idle ∧
        t.happenings = s.happenings ++ [(s.now + 300000, .selfTestEnd s.nextId verdict)] ∧ SameMem s t)) ∧
    ((∀ t ∈ s.tests, t.id ≠ id ∨ t.ended = true) → exec (.selfTestEnd id lasting) s = .next s) ∧
    (∀ t rest, s.tests = t :: rest → t.id = id → t.ended = false → (∀ y ∈ rest, y.id ≠ id) → t.n < arrayCount t.kind.toNat →
      let bad := lasting || t.again
      let counted := fun (i : Nat) => ((s.devGet (logReg t.kind.toNat t.n i + 1)).extractLsb' 0 32).toNat = t.count ∧ t.count ≠ 0
      ∃ u, u = { s with tests := rest, dev := u.dev } ∧
        (∀ i < 4, (∀ j < i, ¬ counted j) → counted i →
          u.devGet (logReg t.kind.toNat t.n i) = s.devGet (logReg t.kind.toNat t.n i) ||| (if bad then 0x1800000000000000 else 0x1000000000000000)) ∧
        let to_ := fun (y : State) => exec (.selfTestEnd id lasting) s = .next y
        (bad = false → t.core = none → to_ u) ∧
        (∀ c f, bad = false → t.core = some c → t.frame = some f → to_ ((u.answer c f 0).getD u)) ∧
        (∀ c, bad = false → t.core = some c → t.frame = none → to_ u) ∧
        (∀ c, bad = true → t.core = some c →
          to_ { u with tests := { t with ended := true } :: rest, happenings := s.happenings ++ [(s.now, .coreRetire c t.lost)] }) ∧
        (bad = true → t.core = none → t.kind = 7 → to_ u) ∧
        (bad = true → t.core = none → t.kind ≠ 7 →
          let spare := (t.kind.toNat * 2 ^ 24 + t.n) * 2 ^ 40 + Config.bankOf t.kind.toNat t.n t.row
          (t.kind ≠ 0 → s.spares.get 0 spare < 4 → to_ { u with spares := s.spares.upd 0 spare (· + 1) }) ∧
          (t.kind = 0 ∨ 4 ≤ s.spares.get 0 spare → ∃ y, to_ y ∧ y = { u with unusable := y.unusable } ∧ (t.kind.toNat, t.n) ∈ y.unusable ∧
            ∀ z, z ∈ y.unusable ↔ z ∈ s.unusable ∨ z = (t.kind.toNat, t.n)))) ∧
    (let k := c / 256
     let core := s.core c
     (s.understudies.get 0 k < 8 → c < 8192 → core.cond = .idle → Untested s c → Sound s c → ∃ u, exec (.coreRetire c []) s = .next u ∧
       TakenOver s u c ∧ (u.core c).cond = .idle ∧ (u.core c).held = core.held ∧ u.tests = s.tests) ∧
     (s.understudies.get 0 k < 8 → c < 8192 → core.cond = .running → (∀ h ∈ core.held, h.frame ≠ some 14 ∧ h.inst.id ≠ core.inst.id) →
       core.held.length < 64 → Untested s c → Sound s c → ∃ u h, exec (.coreRetire c []) s = .next u ∧
         u.understudies = s.understudies.upd 0 k (· + 1) ∧ (u.core c).replaced = true ∧ (u.core c).cond = .idle ∧
         (u.core c).held = core.held ++ [h] ∧ h.st = .ready ∧ h.frame = some 14 ∧ h.pc = core.pc ∧ h.inst.id = core.inst.id ∧
         (u.core c).rows = core.rows ∧ (u.core c).regs = core.regs ∧ (u.core c).itlb = [] ∧ (u.core c).dtlb = []) ∧
     (∀ t h f, s.understudies.get 0 k < 8 → c < 8192 → s.tests = [t] → t.core = some c → t.ended = true → t.frame = some f → f ≠ 15 → Sound s c →
       core.cond = .idle → core.held = [h] → h.frame = some f → h.st = .stopped → ∃ u, exec (.coreRetire c []) s = .next u ∧ TakenOver s u c ∧
         u.tests = [] ∧ (u.core c).held = [{ h with st := .ready, inst := { h.inst with readySince := s.now } }]) ∧
     (8 ≤ s.understudies.get 0 k → s.tests = [] → core.role = none → core.held = [] → ∃ u, exec (.coreRetire c []) s = .next u ∧
       (∃ un, u = { (if core.cond = .idle then s else s.takeFault c cECC s.openDetail) with unusable := un }) ∧
       (0, s.coreArray c) ∈ u.unusable)) ∧
    (¬ (n < arrayCount kind.toNat ∧ entry < 4) → exec (.errorLogClear kind n entry) s = .next s) ∧
    (n < arrayCount kind.toNat → entry < 4 → ∃ u, exec (.errorLogClear kind n entry) s = .next u ∧
      (∀ k < 4, u.devGet (logReg kind.toNat n entry + k) = 0) ∧ OnlyRegs s u ((List.range 4).map (logReg kind.toNat n entry + ·))) ∧
    (¬ n < arrayCount kind.toNat → exec (.injectionArm kind n v) s = .next s) ∧
    (n < arrayCount kind.toNat → ∃ u, exec (.injectionArm kind n v) s = .next u ∧ OnlyRegs s u [injReg kind.toNat n] ∧
      u.devGet (injReg kind.toNat n) = (s.devGet (injReg kind.toNat n) &&& 0x7F80000000000000) ||| (v &&& 0x807FFFFFFFFFFFFF))

namespace Sys2Proof.Claim

/-- The j-th bin of a monitor (Table 22.8). -/
def binAt (s : State) (m j : Nat) : Nat := ((s.devGet (monReg m (3 + j / 2))).extractLsb' (32 * (j % 2)) 32).toNat

/-- A monitor takes a sample (R448). -/
def Sampled (s u : State) (m v : Nat) (inBin : Nat → Prop) : Prop :=
  let x := min v (2 ^ 32 - 1)
  let mm := s.devGet (monReg m 2)
  OnlyRegs s u ((List.range 10).map (fun k => monReg m (k + 1))) ∧ u.devGet (monReg m 1) = s.devGet (monReg m 1) + 1 ∧
    u.devGet (monReg m 2) = BitVec.ofNat 32 (max x (mm.extractLsb' 32 32).toNat) ++ BitVec.ofNat 32 (min x (mm.extractLsb' 0 32).toNat) ∧
    ∀ j < 16, (inBin j → binAt u m j = min (2 ^ 32 - 1) (binAt s m j + 1)) ∧ (¬ inBin j → binAt u m j = binAt s m j)

/-- R449: the bin of a sample. -/
def InBin (v j : Nat) : Prop := (j = 0 ∧ v ≤ 1) ∨ (1 ≤ j ∧ j ≤ 14 ∧ 2 ^ j ≤ v ∧ v < 2 ^ (j + 1)) ∨ (j = 15 ∧ 2 ^ 15 ≤ v)

end Sys2Proof.Claim

open Sys2Proof.Claim in
/-- Retention, monitors, power, and the failure of a package (R445, R448–R450, R455). Entering or leaving retention takes its cycles;
what the retention code corrected is logged at the end of an exit, and whether it did is open. Control of a monitor, with CLR, and the time
of its next sample where its source has one; a sample goes to its bin, to the least, the greatest and the count, when the monitor is
enabled: a sensor's reading, a queue's occupancy every 256 cycles (log 90), a trunk's replays in a µs. The throttle rises above
the limit or a hot spot's, and falls after 100 clear intervals; at 115 °C the cores stop and the controller is told. A failed package's
route is fenced, and what awaited it fails with LINK, its part of a load too; a load that it carried resumes. -/
def Obligations.Upkeep : Prop :=
  ∀ (s : State) (kind : BitVec 3) (n m v watts : Nat) (on : Bool) (ctl : Word) (hot : List Nat) (pkg : BitVec 12),
    let kd := kind.toNat
    let exists_ := (kind = 1 ∨ kind = 2 ∨ kind = 4) ∧ n < arrayCount kd
    (¬ exists_ ∨ (s.devGet (retReg kd n)).getLsbD 0 = on → exec (.retentionControl kind n on) s = .next s) ∧
    (exists_ → (s.devGet (retReg kd n)).getLsbD 0 ≠ on → ∃ u, exec (.retentionControl kind n on) s = .next u ∧
      u = { s with dev := u.dev, transitions := s.transitions.filter (fun t => ¬ (t.1 = kind ∧ t.2.1 = n)) ++ [(kind, n, on)],
                   happenings := u.happenings } ∧
      u.devGet (retReg kd n) = (if on then 1 else 0) ∧ (∀ r, r ≠ retReg kd n → u.devGet r = s.devGet r) ∧
      (u.happenings = s.happenings ++ [(s.now + (if kd = 4 then 8192 else if kd = 2 then 16384 else 65536), .retentionTransitionEnd kind n)] ∨
        (u.happenings = s.happenings ∧ ∃ h ∈ s.happenings, h.2 = .retentionTransitionEnd kind n))) ∧
    ((∀ t ∈ s.transitions, ¬ (t.1 = kind ∧ t.2.1 = n)) → exec (.retentionTransitionEnd kind n) s = .next s) ∧
    (∀ entering, s.transitions = [(kind, n, entering)] → n < arrayCount kd →
      ∃ u addr synd, exec (.retentionTransitionEnd kind n) s = .next u ∧
        (u = { s with transitions := [] } ∨ (entering = false ∧ Logged { s with transitions := [] } u kd n 2 false addr synd 0))) ∧
    (2048 ≤ m → exec (.monitorControl m ctl) s = .next s ∧ ∀ v, exec (.monitorSample m v) s = .next s) ∧
    (m < 2048 →
      (∃ u, exec (.monitorControl m ctl) s = .next u ∧ u = { s with dev := u.dev, happenings := u.happenings } ∧
        (∀ r, r ∉ (List.range 11).map (monReg m) → u.devGet r = s.devGet r) ∧
        (let src := (ctl.extractLsb' 48 8).toNat
         u.happenings = s.happenings.filter (fun h => h.2 ≠ .monitorSample m 0) ++
           (if ctl.getLsbD 63 = true ∧ src = 2 then [(s.now + 256, .monitorSample m 0)] else
            if ctl.getLsbD 63 = true ∧ src = 8 then [(s.now + 2000, .monitorSample m 0)] else [])) ∧
        u.devGet (monReg m 0) = ctl &&& 0x80FFFFFFFFFFFFFF ∧
        (ctl.getLsbD 62 = true → u.devGet (monReg m 1) = 0 ∧ u.devGet (monReg m 2) = 0x00000000FFFFFFFF ∧ ∀ k, 3 ≤ k → k < 11 → u.devGet (monReg m k) = 0) ∧
        (ctl.getLsbD 62 = false → (s.devGet (monReg m 0)).getLsbD 62 = false → ∀ k, 1 ≤ k → k < 11 → u.devGet (monReg m k) = s.devGet (monReg m k))) ∧
      (let c := s.devGet (monReg m 0)
       let src := (c.extractLsb' 48 8).toNat
       let arg := (c.extractLsb' 0 48).toNat
       let due := exec (.monitorSample m v) s
       let timed := ∃ h ∈ s.happenings, h.2 = Instr.monitorSample m 0
       (c.getLsbD 63 = false ∨ (src ≠ 2 ∧ src ≠ 8 ∧ src ≠ 9) ∨ (src = 9 ∧ 64 ≤ arg) ∨ ((src = 2 ∨ src = 8) ∧ timed) → due = .next s) ∧
       (c.getLsbD 63 = true → src = 9 → arg < 64 → s.monitors 9 arg none = [m] → ∃ u, due = .next u ∧ Sampled s u m v (InBin v)) ∧
       (c.getLsbD 63 = true → src = 2 → ¬ timed → arg < 512 → s.monitors 2 arg (some (m / 64)) = [m] →
         let q := s.queue (m / 64 * 512 + arg)
         ∃ u, due = .next (u.post 256 (.monitorSample m 0)) ∧ Sampled s u m (q.onchip + q.spill.length) (InBin (q.onchip + q.spill.length))) ∧
       (c.getLsbD 63 = true → src = 8 → ¬ timed → arg < 64 → s.monitors 8 arg none = [m] →
         ∃ u, due = .next ((u.setTrunk arg { s.trunk arg with recent := 0 }).post 2000 (.monitorSample m 0)) ∧
           Sampled s u m (s.trunk arg).recent (InBin (s.trunk arg).recent)))) ∧
    (let tooMuch := s.powerLimit < watts ∨ ∃ t ∈ hot, 420 < t
     let t := if tooMuch then min 15 (s.throttle + 1) else if s.powerClear + 1 = 100 then s.throttle - 1 else s.throttle
     let k := if tooMuch ∨ s.powerClear + 1 = 100 then 0 else s.powerClear + 1
     let u : State := { s with throttle := t, powerClear := k }
     (∀ t ∈ hot, t < 460) → exec (.powerInterval watts hot) s = .next u) ∧
    ((∃ t ∈ hot, 460 ≤ t) → ∀ c x, s.cores = [(c, x)] → x.role ≠ none → x.cond = .running → (∀ h ∈ x.held, h.frame ≠ some 14) →
      x.held.length < 64 → ∃ u h, exec (.powerInterval watts hot) s = .next u ∧ u.throttle = min 15 (s.throttle + 1) ∧
        u.egress = s.egress ++ [toHost s (.control 1 watts 0)] ∧ (u.core c).cond = .idle ∧ (u.core c).held = x.held ++ [h] ∧
        h.st = .stopped ∧ h.frame = some 14 ∧ h.pc = x.pc ∧ u.queues = s.queues) ∧
    (pkg = s.pkg → exec (.packageFailure pkg) s = .next s) ∧
    (pkg ≠ s.pkg → ∃ u : State, u = { s with failedPkgs := u.failedPkgs, routes := s.routes.erase pkg.toNat } ∧
      (∀ p, p ∈ u.failedPkgs ↔ p ∈ s.failedPkgs ∨ p = pkg) ∧
      ((∀ t ∈ s.trunks, t.2.stream = []) →
        (s.egress = [] → s.orders = [] → s.storeOn = false ∨ (s.resumeReq = [] ∧ ∀ x ∈ s.store, pkg ∉ x.2.packages) →
          exec (.packageFailure pkg) s = .next u) ∧
        (∀ o p, s.egress = [o] → s.orders = [] → o.waiting = false → o.dst = pkg → o.msg = .push p → p.srcPkg = s.pkg → s.storeOn = false →
          p.core < 8192 → ((s.core p.core).outst.any (fun y => y.serial = p.serial)) = true →
          exec (.packageFailure pkg) s = .next { u with happenings := s.happenings ++
            [(s.now, .remoteAcknowledge { core := p.core, serial := p.serial, code := cLINK, where_ := p.qid.setWidth 64, data := [], at_ := 0 })] }) ∧
        (∀ o, s.egress = [] → s.orders = [o] → o.origin = s.pkg → pkg ∈ o.waiting → s.storeOn = false →
          exec (.packageFailure pkg) s = .next { u with happenings := s.happenings ++ [(s.now, .load (.answer o.serial pkg false))] }) ∧
        (∀ load x e, s.egress = [] → s.orders = [] → s.happenings = [] → s.storeOn = true → Config.hostStore = false → s.resumeReq = [] →
          s.store = [(load, x)] → pkg ∈ x.packages → x.epochs.getLast? = some e → exec (.packageFailure pkg) s =
            .next { u with resumeReq := [(load, e.number)], happenings := [(s.now, .resume)] }))) ∧
    (∀ r y, s.peerWords = [] → Config.hostStore = false → s.resumeReq = [r] → s.resumeLoad r.1 r.2 = .ok y →
      exec .resume s = .next (({ y with resumeReq := y.resumeReq.drop 1 } : State).post 0 .resume))

open Sys2Proof.Claim in
/-- Start-up and register writes (R452, R406, 15 R340, R346, R348; 00 R5, R6). The boot ROM runs firmware that a service-class key
signed, from slot A or slot B; else, and on an H9-P, it waits for a host image, of which it asks the same. Once firmware runs nothing
starts it again; a resume request is looked for. A service-level write sets the writable bits of a device register and has the register's own effect; a route, a
trunk's ports, a router's slot, the power limit, and a bank marked unusable are set likewise. -/
def Sys2Proof.Claim.StartUp : Prop :=
  ∀ (s : State) (bs : List Byte) (o : BitVec 48) (v : Word) (pkg : BitVec 12) (base : BitVec 6) (router : Nat) (slot : BitVec 8),
    let good := fun (bs : List Byte) => signedClass (if bs.length % 8 = 0 then wordsOf bs else []) = some true
    let starts := fun (i : Instr) => s.redCells = [] → ∃ u, exec i s = .next u ∧ u.boot = .running ∧ u.pkg ≠ 0xFFF ∧
      (s.now, Instr.resume) ∈ u.happenings ∧
      (Config.packageId ≠ 0xFFF → u.pkg = Config.packageId) ∧
      ∀ n < 6, let q := u.queue (500 + n)
        q = s.queue (500 + n) ∨ (q.st = .active ∧ q.elastic = true ∧ q.openAll = true ∧ q.g = 8 ∧ q.dom = 0)
    (s.boot ≠ .rom → exec .startUp s = .next s) ∧
    (s.boot = .rom → Config.hostStore = true ∨ (¬ good s.flashA ∧ ¬ good s.flashB) → exec .startUp s = .next { s with boot := .waitHost }) ∧
    (s.boot = .rom → Config.hostStore = false → good s.flashA ∨ good s.flashB → starts .startUp) ∧
    (s.boot ≠ .waitHost ∨ ¬ good bs → exec (.hostImageArrival bs) s = .next s) ∧
    (s.boot = .waitHost → good bs → starts (.hostImageArrival bs)) ∧
    (let r := o.toNat / 8
     let d := devRegOf r
     let write := exec (.registerWrite (.dev o) v) s
     ((∃ k, d = .root k ∨ d = .life k ∨ d = .cueFault k ∨ d = .stopBase k ∨ (d = .store k ∧ k ≠ 2) ∨ (∃ j, d = .page k j ∨ d = .inject k j ∨ (d = .former k j ∧ (j ≠ 7 ∨ v.getLsbD 63 = true)) ∨ (d = .monitor k j ∧ j ≠ 0))) →
       ∃ u, write = .next u ∧ OnlyRegs s u [r] ∧ u.devGet r = (s.devGet r &&& ~~~ d.writable) ||| (v &&& d.writable)) ∧
     (∀ b, d = .former b 7 → v.getLsbD 63 = false → ∃ u, write = .next u ∧ (u.former b).published = false ∧ u.dev = (s.devPut r ((s.devGet r &&& ~~~ d.writable) ||| (v &&& d.writable))).dev) ∧
     (d = .store 2 → ∃ u, write = .next u ∧ u = { s with dev := u.dev, happenings := u.happenings } ∧
       u.devGet r = (s.devGet r &&& ~~~ d.writable) ||| (v &&& d.writable) ∧ (∀ k, k ≠ r → u.devGet k = s.devGet k) ∧
       (v.getLsbD 0 = true → ∃ h ∈ u.happenings, h.2 = .resume) ∧ (v.getLsbD 0 = false → u.happenings = s.happenings)) ∧
     (∀ m, d = .monitor m 0 → write = exec (.monitorControl m v) s) ∧
     (∀ k n, d = .retain k n → write = exec (.retentionControl (BitVec.ofNat 3 k) n (v.getLsbD 0)) s) ∧
     (∀ k n i, d = .log k n i 0 → v = 0 → write = exec (.errorLogClear (BitVec.ofNat 3 k) n i) s) ∧
     ((∃ a b, d = .key a b) ∨ d = .unassigned ∨ (∃ k n i j, d = .log k n i j ∧ (j ≠ 0 ∨ v ≠ 0)) → write = .next s)) ∧
    (s.egress = [] → (∀ t ∈ s.trunks, t.2.stream = []) →
      exec (.registerWrite (.route pkg) v) s = .next { s with routes := if v.toNat < 64 then s.routes.set pkg.toNat (v.setWidth 6) else s.routes.erase pkg.toNat } ∧
      (let p := v.toNat
       let b := base.toNat
       (¬ ((p = 1 ∨ p = 2 ∨ p = 4) ∧ b % p = 0 ∧ b + p ≤ 64) → exec (.registerWrite (.trunk base) v) s = .next s) ∧
       ((p = 1 ∨ p = 2 ∨ p = 4) → b % p = 0 → b + p ≤ 64 → ∃ u, exec (.registerWrite (.trunk base) v) s = .next u ∧ u = { s with trunks := u.trunks } ∧
         (u.trunk b).ports = p ∧ (u.trunk b).st = .up ∧ (u.trunk b).inuse = BitVec.ofNat 16 (2 ^ (4 * p) - 1) ∧ (u.trunk b).failed = 0 ∧
         (∀ t ∈ u.trunks, t.1 ≠ b → t ∈ s.trunks ∧ (t.1 + t.2.ports ≤ b ∨ b + p ≤ t.1))))) ∧
    (let e := v &&& 0x0000FFFFFFFFFFFF
     let k := router % 32 * 256 + slot.toNat
     ∃ u, exec (.registerWrite (.slot router slot) v) s = .next u ∧ u = { s with slots := u.slots } ∧ u.slots.get 0 k = e ∧
       ∀ j, j ≠ k → Tbl.find? u.slots j = Tbl.find? s.slots j) ∧
    exec (.registerWrite .powerLimit v) s = .next { s with powerLimit := min 4600 v.toNat } ∧
    (∃ u, exec (.registerWrite .bankUnusable v) s = .next u ∧ u = { s with unusable := u.unusable } ∧
      ∀ z, z ∈ u.unusable ↔ z ∈ s.unusable ∨ z = ((v.extractLsb' 32 32).toNat, (v.extractLsb' 0 32).toNat))

/-- The host port, start-up and register writes (20 R421–R424; 22 R452; 00 R5). -/
def Obligations.HostAndStart : Prop := Claim.HostPort ∧ Claim.StartUp


end
end

