-- ==== Sys2Proof/Laws/Encoding.lean ====
section
/-!
SUPPORT. The fields of a word built by an encoding format (02 Table 2.3) are the fields it was built from, and a word
survives its bytes.
-/
namespace Sys2Proof

/-- A field of a word, from the word as a number. -/
theorem field_of {w n : Nat} (x : BitVec n) (p : Nat) (v : BitVec w) (h : x.toNat / 2 ^ p % 2 ^ w = v.toNat) :
    x.extractLsb' p w = v := by
  apply BitVec.eq_of_toNat_eq
  rw [BitVec.extractLsb'_toNat, Nat.shiftRight_eq_div_pow, h]

theorem toNat_concat {m n : Nat} (x : BitVec m) (y : BitVec n) : (x ++ y).toNat = x.toNat * 2 ^ n + y.toNat := by
  rw [BitVec.toNat_append, Nat.shiftLeft_eq, Nat.mul_comm, Nat.two_pow_add_eq_or_of_lt y.isLt]

theorem eA_toNat (j : BitVec 6) (d a b f : Reg) (m : BitVec 6) : (eA j d a b f m).toNat =
    j.toNat * 2 ^ 26 + d.toNat * 2 ^ 21 + a.toNat * 2 ^ 16 + b.toNat * 2 ^ 11 + f.toNat * 2 ^ 6 + m.toNat := by
  change BitVec.toNat (w := 6+5+5+5+5+6) (j ++ d ++ a ++ b ++ f ++ m) = _
  simp only [toNat_concat]; omega

theorem eI_toNat (j : BitVec 6) (d a : Reg) (f : BitVec 3) (i : BitVec 13) : (eI j d a f i).toNat =
    j.toNat * 2 ^ 26 + d.toNat * 2 ^ 21 + a.toNat * 2 ^ 16 + f.toNat * 2 ^ 13 + i.toNat := by
  change BitVec.toNat (w := 6+5+5+3+13) (j ++ d ++ a ++ f ++ i) = _
  simp only [toNat_concat]; omega

theorem eU_toNat (j : BitVec 6) (d : Reg) (i : BitVec 21) : (eU j d i).toNat =
    j.toNat * 2 ^ 26 + d.toNat * 2 ^ 21 + i.toNat := by
  change BitVec.toNat (w := 6+5+21) (j ++ d ++ i) = _
  simp only [toNat_concat]; omega

theorem ePre_toNat (k : BitVec 4) (p : BitVec 22) : (ePre k p).toNat =
    63 * 2 ^ 26 + k.toNat * 2 ^ 22 + p.toNat := by
  change BitVec.toNat (w := 6+4+22) (0x3F#6 ++ k ++ p) = _
  simp only [toNat_concat, BitVec.toNat_ofNat]; omega

@[simp] theorem fMaj_eA (j : BitVec 6) (d a b f : Reg) (m : BitVec 6) : fMaj (eA j d a b f m) = j := by
  have := j.isLt; have := d.isLt; have := a.isLt; have := b.isLt; have := f.isLt; have := m.isLt
  apply field_of; rw [eA_toNat]; omega
@[simp] theorem fD_eA (j : BitVec 6) (d a b f : Reg) (m : BitVec 6) : fD (eA j d a b f m) = d := by
  have := j.isLt; have := d.isLt; have := a.isLt; have := b.isLt; have := f.isLt; have := m.isLt
  apply field_of; rw [eA_toNat]; omega
@[simp] theorem fA_eA (j : BitVec 6) (d a b f : Reg) (m : BitVec 6) : fA (eA j d a b f m) = a := by
  have := j.isLt; have := d.isLt; have := a.isLt; have := b.isLt; have := f.isLt; have := m.isLt
  apply field_of; rw [eA_toNat]; omega
@[simp] theorem fB_eA (j : BitVec 6) (d a b f : Reg) (m : BitVec 6) : fB (eA j d a b f m) = b := by
  have := j.isLt; have := d.isLt; have := a.isLt; have := b.isLt; have := f.isLt; have := m.isLt
  apply field_of; rw [eA_toNat]; omega
@[simp] theorem fFunc_eA (j : BitVec 6) (d a b f : Reg) (m : BitVec 6) : fFunc (eA j d a b f m) = f := by
  have := j.isLt; have := d.isLt; have := a.isLt; have := b.isLt; have := f.isLt; have := m.isLt
  apply field_of; rw [eA_toNat]; omega
@[simp] theorem fMod_eA (j : BitVec 6) (d a b f : Reg) (m : BitVec 6) : fMod (eA j d a b f m) = m := by
  have := j.isLt; have := d.isLt; have := a.isLt; have := b.isLt; have := f.isLt; have := m.isLt
  apply field_of; rw [eA_toNat]; omega
@[simp] theorem fMaj_eI (j : BitVec 6) (d a : Reg) (f : BitVec 3) (i : BitVec 13) : fMaj (eI j d a f i) = j := by
  have := j.isLt; have := d.isLt; have := a.isLt; have := f.isLt; have := i.isLt
  apply field_of; rw [eI_toNat]; omega
@[simp] theorem fD_eI (j : BitVec 6) (d a : Reg) (f : BitVec 3) (i : BitVec 13) : fD (eI j d a f i) = d := by
  have := j.isLt; have := d.isLt; have := a.isLt; have := f.isLt; have := i.isLt
  apply field_of; rw [eI_toNat]; omega
@[simp] theorem fA_eI (j : BitVec 6) (d a : Reg) (f : BitVec 3) (i : BitVec 13) : fA (eI j d a f i) = a := by
  have := j.isLt; have := d.isLt; have := a.isLt; have := f.isLt; have := i.isLt
  apply field_of; rw [eI_toNat]; omega
@[simp] theorem fF3_eI (j : BitVec 6) (d a : Reg) (f : BitVec 3) (i : BitVec 13) : fF3 (eI j d a f i) = f := by
  have := j.isLt; have := d.isLt; have := a.isLt; have := f.isLt; have := i.isLt
  apply field_of; rw [eI_toNat]; omega
@[simp] theorem fI13_eI (j : BitVec 6) (d a : Reg) (f : BitVec 3) (i : BitVec 13) : fI13 (eI j d a f i) = i := by
  have := j.isLt; have := d.isLt; have := a.isLt; have := f.isLt; have := i.isLt
  apply field_of; rw [eI_toNat]; omega
@[simp] theorem fMaj_eU (j : BitVec 6) (d : Reg) (i : BitVec 21) : fMaj (eU j d i) = j := by
  have := j.isLt; have := d.isLt; have := i.isLt
  apply field_of; rw [eU_toNat]; omega
@[simp] theorem fD_eU (j : BitVec 6) (d : Reg) (i : BitVec 21) : fD (eU j d i) = d := by
  have := j.isLt; have := d.isLt; have := i.isLt
  apply field_of; rw [eU_toNat]; omega
@[simp] theorem fI21_eU (j : BitVec 6) (d : Reg) (i : BitVec 21) : fI21 (eU j d i) = i := by
  have := j.isLt; have := d.isLt; have := i.isLt
  apply field_of; rw [eU_toNat]; omega
@[simp] theorem fMaj_ePre (k : BitVec 4) (p : BitVec 22) : fMaj (ePre k p) = 0x3F#6 := by
  have := k.isLt; have := p.isLt
  apply field_of; rw [ePre_toNat]; simp only [BitVec.toNat_ofNat]; omega
@[simp] theorem fKind_ePre (k : BitVec 4) (p : BitVec 22) : fKind (ePre k p) = k := by
  have := k.isLt; have := p.isLt
  apply field_of; rw [ePre_toNat]; omega
@[simp] theorem fPay_ePre (k : BitVec 4) (p : BitVec 22) : fPay (ePre k p) = p := by
  have := k.isLt; have := p.isLt
  apply field_of; rw [ePre_toNat]; omega

theorem eV_toNat (j : BitVec 6) (f : VFields) (g : BitVec 4) : (eV j f g).toNat =
    j.toNat * 2 ^ 26 + f.d.toNat * 2 ^ 21 + f.a.toNat * 2 ^ 16 + f.b.toNat * 2 ^ 11 + f.m.toNat * 2 ^ 8 + f.e.toNat * 2 ^ 6 + f.ha.toNat * 2 ^ 5 + f.hb.toNat * 2 ^ 4 + g.toNat := by
  change BitVec.toNat (w := 6+5+5+5+3+2+1+1+4) (j ++ f.d ++ f.a ++ f.b ++ f.m ++ f.e ++ f.ha ++ f.hb ++ g) = _
  simp only [toNat_concat]; omega
@[simp] theorem fMaj_eV (j : BitVec 6) (f : VFields) (g : BitVec 4) : fMaj (eV j f g) = j := by
  have := j.isLt; have := f.d.isLt; have := f.a.isLt; have := f.b.isLt; have := f.m.isLt; have := f.e.isLt; have := f.ha.isLt; have := f.hb.isLt; have := g.isLt
  apply field_of; rw [eV_toNat]; omega
@[simp] theorem fVFunc_eV (j : BitVec 6) (f : VFields) (g : BitVec 4) : fVFunc (eV j f g) = g := by
  have := j.isLt; have := f.d.isLt; have := f.a.isLt; have := f.b.isLt; have := f.m.isLt; have := f.e.isLt; have := f.ha.isLt; have := f.hb.isLt; have := g.isLt
  apply field_of; rw [eV_toNat]; omega
@[simp] theorem fV_eV (j : BitVec 6) (f : VFields) (g : BitVec 4) : fV (eV j f g) = f := by
  have := j.isLt; have := f.d.isLt; have := f.a.isLt; have := f.b.isLt; have := f.m.isLt; have := f.e.isLt; have := f.ha.isLt; have := f.hb.isLt; have := g.isLt
  have h := eV_toNat j f g
  unfold fV; cases f; congr 1 <;> (apply field_of; simp only at h; simp only at *; omega)

theorem eVx_toNat (x : VxFields) : (eVx x).toNat =
    x.swza.toNat * 2 ^ 14 + x.swzb.toNat * 2 ^ 6 + x.zero.toNat * 2 ^ 5 + x.qd.toNat * 2 ^ 4 + x.qa.toNat * 2 ^ 3 + x.qb.toNat * 2 ^ 2 + x.alt.toNat := by
  change BitVec.toNat (w := 8+8+1+1+1+1+1+1) (x.swza ++ x.swzb ++ x.zero ++ x.qd ++ x.qa ++ x.qb ++ 0#1 ++ x.alt) = _
  simp only [toNat_concat, BitVec.toNat_ofNat]; omega
@[simp] theorem fVx_eVx (x : VxFields) : fVx (eVx x) = x := by
  have := x.swza.isLt; have := x.swzb.isLt; have := x.zero.isLt; have := x.qd.isLt; have := x.qa.isLt; have := x.qb.isLt; have := x.alt.isLt
  have h := eVx_toNat x
  unfold fVx; cases x; congr 1 <;> (apply field_of; simp only at h; simp only at *; omega)
@[simp] theorem eVx_reserved (x : VxFields) : (eVx x)[1] = false := by
  have := x.swza.isLt; have := x.swzb.isLt; have := x.zero.isLt; have := x.qd.isLt; have := x.qa.isLt; have := x.qb.isLt; have := x.alt.isLt
  have h := eVx_toNat x
  rw [← BitVec.getLsbD_eq_getElem, BitVec.getLsbD, Nat.testBit_eq_decide_div_mod_eq]; simp only [decide_eq_false_iff_not]; omega

/-! ## The modifier bits (02 R37) -/

@[simp] theorem mod0_zero : ∀ (w : BitVec 1), (0#5 ++ w : BitVec 6) &&& 62#6 = 0#6 := by decide
@[simp] theorem mod0_field0 : ∀ (w : BitVec 1), BitVec.extractLsb' 0 1 (0#5 ++ w : BitVec 6) = w := by decide
@[simp] theorem mod1_zero : ∀ (c : BitVec 5), (0#1 ++ c : BitVec 6) &&& 32#6 = 0#6 := by decide
@[simp] theorem mod1_field0 : ∀ (c : BitVec 5), BitVec.extractLsb' 0 5 (0#1 ++ c : BitVec 6) = c := by decide
@[simp] theorem mod2_zero : ∀ (k : BitVec 2) (s : BitVec 3), (0#1 ++ k ++ s : BitVec 6) &&& 32#6 = 0#6 := by decide
@[simp] theorem mod2_field0 : ∀ (k : BitVec 2) (s : BitVec 3), BitVec.extractLsb' 0 3 (0#1 ++ k ++ s : BitVec 6) = s := by decide
@[simp] theorem mod2_field1 : ∀ (k : BitVec 2) (s : BitVec 3), BitVec.extractLsb' 3 2 (0#1 ++ k ++ s : BitVec 6) = k := by decide
@[simp] theorem mod3_zero : ∀ (x : BitVec 1) (o : BitVec 4), (0#1 ++ x ++ o : BitVec 6) &&& 32#6 = 0#6 := by decide
@[simp] theorem mod3_field0 : ∀ (x : BitVec 1) (o : BitVec 4), BitVec.extractLsb' 0 4 (0#1 ++ x ++ o : BitVec 6) = o := by decide
@[simp] theorem mod3_field1 : ∀ (x : BitVec 1) (o : BitVec 4), BitVec.extractLsb' 4 1 (0#1 ++ x ++ o : BitVec 6) = x := by decide
@[simp] theorem mod4_zero : ∀ (z : BitVec 1) (c : BitVec 3), (0#2 ++ z ++ c : BitVec 6) &&& 48#6 = 0#6 := by decide
@[simp] theorem mod4_field0 : ∀ (z : BitVec 1) (c : BitVec 3), BitVec.extractLsb' 0 3 (0#2 ++ z ++ c : BitVec 6) = c := by decide
@[simp] theorem mod4_field1 : ∀ (z : BitVec 1) (c : BitVec 3), BitVec.extractLsb' 3 1 (0#2 ++ z ++ c : BitVec 6) = z := by decide
@[simp] theorem mod5_zero : ∀ (w : BitVec 2), (0#4 ++ w : BitVec 6) &&& 60#6 = 0#6 := by decide
@[simp] theorem mod5_field0 : ∀ (w : BitVec 2), BitVec.extractLsb' 0 2 (0#4 ++ w : BitVec 6) = w := by decide
@[simp] theorem mod6_zero : ∀ (g : BitVec 1) (t : BitVec 4), (g ++ 0#1 ++ t : BitVec 6) &&& 16#6 = 0#6 := by decide
@[simp] theorem mod6_field0 : ∀ (g : BitVec 1) (t : BitVec 4), BitVec.extractLsb' 0 4 (g ++ 0#1 ++ t : BitVec 6) = t := by decide
@[simp] theorem mod6_field1 : ∀ (g : BitVec 1) (t : BitVec 4), BitVec.extractLsb' 5 1 (g ++ 0#1 ++ t : BitVec 6) = g := by decide
@[simp] theorem mod7_zero : ∀ (g : BitVec 1), (g ++ 0#5 : BitVec 6) &&& 31#6 = 0#6 := by decide
@[simp] theorem mod7_field0 : ∀ (g : BitVec 1), BitVec.extractLsb' 5 1 (g ++ 0#5 : BitVec 6) = g := by decide
@[simp] theorem mod8_field0 : ∀ (s : BitVec 3) (p : BitVec 2) (w : BitVec 1), BitVec.extractLsb' 0 1 (s ++ p ++ w : BitVec 6) = w := by decide
@[simp] theorem mod8_field1 : ∀ (s : BitVec 3) (p : BitVec 2) (w : BitVec 1), BitVec.extractLsb' 1 2 (s ++ p ++ w : BitVec 6) = p := by decide
@[simp] theorem mod8_field2 : ∀ (s : BitVec 3) (p : BitVec 2) (w : BitVec 1), BitVec.extractLsb' 3 3 (s ++ p ++ w : BitVec 6) = s := by decide
@[simp] theorem mod9_field0 : ∀ (s x : BitVec 3), BitVec.extractLsb' 0 3 (s ++ x : BitVec 6) = x := by decide
@[simp] theorem mod9_field1 : ∀ (s x : BitVec 3), BitVec.extractLsb' 3 3 (s ++ x : BitVec 6) = s := by decide
@[simp] theorem esize_field : ∀ (e : BitVec 1), BitVec.extractLsb' 0 1 (0#1 ++ e : BitVec 2) = e := by decide

/-! ## The immediates of majors 0x02 (05 R108, R109) and of IX (02 R33) -/

theorem eShift_toNat (k : BitVec 2) (w : BitVec 1) (s : BitVec 6) :
    (eShift k w s).toNat = k.toNat * 2 ^ 11 + w.toNat * 2 ^ 6 + s.toNat := by
  change BitVec.toNat (w := 2+4+1+6) (k ++ 0#4 ++ w ++ s) = _
  simp only [toNat_concat, BitVec.toNat_ofNat]; omega
@[simp] theorem eShift_kind (k : BitVec 2) (w : BitVec 1) (s : BitVec 6) : (eShift k w s).toNat >>> 11 % 4 = k.toNat := by
  have := k.isLt; have := w.isLt; have := s.isLt
  rw [eShift_toNat, Nat.shiftRight_eq_div_pow]; omega
@[simp] theorem eShift_zero (k : BitVec 2) (w : BitVec 1) (s : BitVec 6) : (eShift k w s).extractLsb' 7 4 = 0#4 := by
  have := k.isLt; have := w.isLt; have := s.isLt
  apply field_of; rw [eShift_toNat]; simp only [BitVec.toNat_ofNat]; omega
@[simp] theorem eShift_w (k : BitVec 2) (w : BitVec 1) (s : BitVec 6) : (eShift k w s).extractLsb' 6 1 = w := by
  have := k.isLt; have := w.isLt; have := s.isLt
  apply field_of; rw [eShift_toNat]; omega
@[simp] theorem eShift_amount (k : BitVec 2) (w : BitVec 1) (s : BitVec 6) : (eShift k w s).extractLsb' 0 6 = s := by
  have := k.isLt; have := w.isLt; have := s.isLt
  apply field_of; rw [eShift_toNat]; omega
theorem eBfx_toNat (k : BitVec 1) (p l : BitVec 6) :
    (eBfx k p l).toNat = k.toNat * 2 ^ 12 + p.toNat * 2 ^ 6 + l.toNat := by
  change BitVec.toNat (w := 1+6+6) (k ++ p ++ l) = _
  simp only [toNat_concat]; omega
@[simp] theorem eBfx_kind (k : BitVec 1) (p l : BitVec 6) : (eBfx k p l)[12] = (k == 1#1) := by
  have := k.isLt; have := p.isLt; have := l.isLt
  have h := eBfx_toNat k p l
  rw [← BitVec.getLsbD_eq_getElem, BitVec.getLsbD, Nat.testBit_eq_decide_div_mod_eq, Bool.eq_iff_iff]
  simp only [decide_eq_true_eq, beq_iff_eq, ← BitVec.toNat_inj, BitVec.toNat_ofNat]; omega
@[simp] theorem eBfx_pos (k : BitVec 1) (p l : BitVec 6) : (eBfx k p l).extractLsb' 6 6 = p := by
  have := k.isLt; have := p.isLt; have := l.isLt
  apply field_of; rw [eBfx_toNat]; omega
@[simp] theorem eBfx_len (k : BitVec 1) (p l : BitVec 6) : (eBfx k p l).extractLsb' 0 6 = l := by
  have := k.isLt; have := p.isLt; have := l.isLt
  apply field_of; rw [eBfx_toNat]; omega
theorem ixPay_toNat (h : BitVec 19) : (0#3 ++ h : BitVec 22).toNat = h.toNat := by
  simp only [toNat_concat, BitVec.toNat_ofNat]; omega
@[simp] theorem ixPay_reserved (h : BitVec 19) : (0#3 ++ h : BitVec 22).extractLsb' 19 3 = 0#3 := by
  have := h.isLt
  apply field_of; rw [ixPay_toNat]; simp only [BitVec.toNat_ofNat]; omega
@[simp] theorem ixImm_join (x : BitVec 32) : ixImm (0#3 ++ x.extractLsb' 13 19) (x.extractLsb' 0 13) = x := by
  apply BitVec.eq_of_toNat_eq
  change BitVec.toNat (w := 19+13) (BitVec.extractLsb' 0 19 (0#3 ++ x.extractLsb' 13 19 : BitVec 22) ++ x.extractLsb' 0 13) = _
  have := x.isLt
  simp only [toNat_concat, BitVec.extractLsb'_toNat, Nat.shiftRight_eq_div_pow]; omega
theorem oxPay_toNat (c : BitVec 5) : (0#1 ++ c ++ 0#16 : BitVec 22).toNat = c.toNat * 2 ^ 16 := by
  simp only [toNat_concat, BitVec.toNat_ofNat]; omega
@[simp] theorem oxPay_cue (c : BitVec 5) : (0#1 ++ c ++ 0#16 : BitVec 22).extractLsb' 16 5 = c := by
  have := c.isLt
  apply field_of; rw [oxPay_toNat]; omega
@[simp] theorem oxPay_low (c : BitVec 5) : (0#1 ++ c ++ 0#16 : BitVec 22).extractLsb' 0 16 = 0#16 := by
  have := c.isLt
  apply field_of; rw [oxPay_toNat]; simp only [BitVec.toNat_ofNat]; omega
@[simp] theorem oxPay_top (c : BitVec 5) : (0#1 ++ c ++ 0#16 : BitVec 22)[21] = false := by
  have := c.isLt
  have h := oxPay_toNat c
  rw [← BitVec.getLsbD_eq_getElem, BitVec.getLsbD, Nat.testBit_eq_decide_div_mod_eq]
  simp only [decide_eq_false_iff_not]; omega

/-! ## Bytes -/

@[simp] theorem leWord_wordBytes (w : IWord) :
    leWord (w.extractLsb' 0 8) (w.extractLsb' 8 8) (w.extractLsb' 16 8) (w.extractLsb' 24 8) = w := by
  apply BitVec.eq_of_toNat_eq
  change BitVec.toNat (w := 8+8+8+8) (w.extractLsb' 24 8 ++ w.extractLsb' 16 8 ++ w.extractLsb' 8 8 ++ w.extractLsb' 0 8) = _
  simp only [toNat_concat, BitVec.extractLsb'_toNat, Nat.shiftRight_eq_div_pow]
  have := w.isLt; omega

/-- A short instruction's word, decoded at the head of any bytes. -/
theorem decode_short (w : IWord) (rest : List Byte) (hp : isPrefix w = false) :
    decode (wordBytes w ++ rest) = match decodeShort w with
      | .ok i => .ok i 4 rest
      | .error e => .ill e w none := by
  simp [wordBytes, decode, takesTwo, hp] <;> rfl

/-- A long form's two words, decoded at the head of any bytes. -/
theorem decode_long (w w2 : IWord) (rest : List Byte) (hp : takesTwo w = true) :
    decode (wordBytes w ++ (wordBytes w2 ++ rest)) = match decodeLong w w2 with
      | .ok i => .ok i 8 rest
      | .error e => .ill e w (some w2) := by
  simp [wordBytes, decode, hp] <;> rfl

end Sys2Proof
end

