-- ==== Sys2Proof/Laws/Table.lean ====
section
/-!
SUPPORT. Sparse tables: what a read sees after a write.
-/
namespace Sys2Proof.Machine

theorem Tbl.find_set_self {α : Type} (t : Tbl α) (k : Nat) (v : α) : Tbl.find? (Tbl.set t k v) k = some v := by
  induction t with
  | nil => simp [Tbl.set, Tbl.find?]
  | cons p t ih =>
    obtain ⟨j, w⟩ := p
    by_cases h : j = k
    · simp [Tbl.set, h, Tbl.find?]
    · by_cases h2 : k < j
      · simp [Tbl.set, h, h2, Tbl.find?]
      · simp [Tbl.set, h, h2, Tbl.find?, ih]

theorem Tbl.find_set_ne {α : Type} (t : Tbl α) (k i : Nat) (v : α) (h : i ≠ k) :
    Tbl.find? (Tbl.set t k v) i = Tbl.find? t i := by
  induction t with
  | nil => simp [Tbl.set, Tbl.find?, Ne.symm h]
  | cons p t ih =>
    obtain ⟨j, w⟩ := p
    by_cases hj : j = k
    · subst hj; simp [Tbl.set, Tbl.find?, Ne.symm h]
    · by_cases h2 : k < j
      · simp [Tbl.set, hj, h2, Tbl.find?, Ne.symm h]
      · simp [Tbl.set, hj, h2, Tbl.find?, ih]

@[simp] theorem Tbl.get_set_self {α : Type} (t : Tbl α) (d : α) (k : Nat) (v : α) : Tbl.get (Tbl.set t k v) d k = v := by
  simp [Tbl.get, Tbl.find_set_self]

theorem Tbl.get_set_ne {α : Type} (t : Tbl α) (d : α) (k i : Nat) (v : α) (h : i ≠ k) :
    Tbl.get (Tbl.set t k v) d i = Tbl.get t d i := by
  simp [Tbl.get, Tbl.find_set_ne t k i v h]

@[simp] theorem Tbl.set_set {α : Type} (t : Tbl α) (k : Nat) (v w : α) : Tbl.set (Tbl.set t k v) k w = Tbl.set t k w := by
  induction t with
  | nil => simp [Tbl.set]
  | cons p t ih =>
    obtain ⟨j, u⟩ := p
    by_cases h : j = k
    · simp [Tbl.set, h]
    · by_cases h2 : k < j
      · simp [Tbl.set, h, h2]
      · simp [Tbl.set, h, h2, ih]

theorem Tbl.find_erase_self {α : Type} (t : Tbl α) (k : Nat) : Tbl.find? (Tbl.erase t k) k = none := by
  induction t with
  | nil => rfl
  | cons p t ih =>
    obtain ⟨j, w⟩ := p
    by_cases h : j = k
    · subst h; simpa [Tbl.erase] using ih
    · have : Tbl.erase ((j, w) :: t) k = (j, w) :: Tbl.erase t k := by simp [Tbl.erase, h]
      rw [this]; simp [Tbl.find?, h, ih]

theorem Tbl.find_erase_ne {α : Type} (t : Tbl α) (k i : Nat) (h : i ≠ k) :
    Tbl.find? (Tbl.erase t k) i = Tbl.find? t i := by
  induction t with
  | nil => rfl
  | cons p t ih =>
    obtain ⟨j, w⟩ := p
    by_cases hj : j = k
    · subst hj
      have : Tbl.erase ((j, w) :: t) j = Tbl.erase t j := by simp [Tbl.erase]
      rw [this, ih]; simp [Tbl.find?, Ne.symm h]
    · have : Tbl.erase ((j, w) :: t) k = (j, w) :: Tbl.erase t k := by simp [Tbl.erase, hj]
      rw [this]; simp [Tbl.find?, ih]

@[simp] theorem Tbl.get_erase_self {α : Type} (t : Tbl α) (d : α) (k : Nat) : Tbl.get (Tbl.erase t k) d k = d := by
  simp [Tbl.get, Tbl.find_erase_self]

theorem Tbl.get_erase_ne {α : Type} (t : Tbl α) (d : α) (k i : Nat) (h : i ≠ k) :
    Tbl.get (Tbl.erase t k) d i = Tbl.get t d i := by
  simp [Tbl.get, Tbl.find_erase_ne t k i h]

@[simp] theorem Tbl.upd_def {α : Type} (t : Tbl α) (d : α) (k : Nat) (f : α → α) :
    Tbl.upd t d k f = Tbl.set t k (f (Tbl.get t d k)) := rfl

end Sys2Proof.Machine
end

