-- ==== Sys2Proof/Laws/State.lean ====
section
/-!
SUPPORT. One lemma for each field of the state and each update of the state; the same for a core; and what a read of
a table sees after its write.
-/
namespace Sys2Proof.Machine

@[simp] theorem State.setCore_schedule (s : State) (c : CoreId) (x : Core) : (s.setCore c x).schedule = s.schedule := rfl
@[simp] theorem State.setCore_happenings (s : State) (c : CoreId) (x : Core) : (s.setCore c x).happenings = s.happenings := rfl
@[simp] theorem State.setCore_cur (s : State) (c : CoreId) (x : Core) : (s.setCore c x).cur = s.cur := rfl
@[simp] theorem State.setCore_tick (s : State) (c : CoreId) (x : Core) : (s.setCore c x).tick = s.tick := rfl
@[simp] theorem State.setCore_nextId (s : State) (c : CoreId) (x : Core) : (s.setCore c x).nextId = s.nextId := rfl
@[simp] theorem State.setCore_faults (s : State) (c : CoreId) (x : Core) : (s.setCore c x).faults = s.faults := rfl
@[simp] theorem State.setCore_egress (s : State) (c : CoreId) (x : Core) : (s.setCore c x).egress = s.egress := rfl
@[simp] theorem State.setCore_now (s : State) (c : CoreId) (x : Core) : (s.setCore c x).now = s.now := rfl
@[simp] theorem State.setCore_pkg (s : State) (c : CoreId) (x : Core) : (s.setCore c x).pkg = s.pkg := rfl
@[simp] theorem State.setCore_boot (s : State) (c : CoreId) (x : Core) : (s.setCore c x).boot = s.boot := rfl
@[simp] theorem State.setCore_mem (s : State) (c : CoreId) (x : Core) : (s.setCore c x).mem = s.mem := rfl
@[simp] theorem State.setCore_dev (s : State) (c : CoreId) (x : Core) : (s.setCore c x).dev = s.dev := rfl
@[simp] theorem State.setCore_queues (s : State) (c : CoreId) (x : Core) : (s.setCore c x).queues = s.queues := rfl
@[simp] theorem State.setCore_tensors (s : State) (c : CoreId) (x : Core) : (s.setCore c x).tensors = s.tensors := rfl
@[simp] theorem State.setCore_ensembles (s : State) (c : CoreId) (x : Core) : (s.setCore c x).ensembles = s.ensembles := rfl
@[simp] theorem State.setCore_engines (s : State) (c : CoreId) (x : Core) : (s.setCore c x).engines = s.engines := rfl
@[simp] theorem State.setCore_groups (s : State) (c : CoreId) (x : Core) : (s.setCore c x).groups = s.groups := rfl
@[simp] theorem State.setCore_redCells (s : State) (c : CoreId) (x : Core) : (s.setCore c x).redCells = s.redCells := rfl
@[simp] theorem State.setCore_l2tlb (s : State) (c : CoreId) (x : Core) : (s.setCore c x).l2tlb = s.l2tlb := rfl
@[simp] theorem State.setCore_ingressTlb (s : State) (c : CoreId) (x : Core) : (s.setCore c x).ingressTlb = s.ingressTlb := rfl
@[simp] theorem State.setCore_gens (s : State) (c : CoreId) (x : Core) : (s.setCore c x).gens = s.gens := rfl
@[simp] theorem State.setCore_invals (s : State) (c : CoreId) (x : Core) : (s.setCore c x).invals = s.invals := rfl
@[simp] theorem State.setCore_migrations (s : State) (c : CoreId) (x : Core) : (s.setCore c x).migrations = s.migrations := rfl
@[simp] theorem State.setCore_redirects (s : State) (c : CoreId) (x : Core) : (s.setCore c x).redirects = s.redirects := rfl
@[simp] theorem State.setCore_migStat (s : State) (c : CoreId) (x : Core) : (s.setCore c x).migStat = s.migStat := rfl
@[simp] theorem State.setCore_ingressPager (s : State) (c : CoreId) (x : Core) : (s.setCore c x).ingressPager = s.ingressPager := rfl
@[simp] theorem State.setCore_cues (s : State) (c : CoreId) (x : Core) : (s.setCore c x).cues = s.cues := rfl
@[simp] theorem State.setCore_hold (s : State) (c : CoreId) (x : Core) : (s.setCore c x).hold = s.hold := rfl
@[simp] theorem State.setCore_landed (s : State) (c : CoreId) (x : Core) : (s.setCore c x).landed = s.landed := rfl
@[simp] theorem State.setCore_failedCues (s : State) (c : CoreId) (x : Core) : (s.setCore c x).failedCues = s.failedCues := rfl
@[simp] theorem State.setCore_misses (s : State) (c : CoreId) (x : Core) : (s.setCore c x).misses = s.misses := rfl
@[simp] theorem State.setCore_brokenCopies (s : State) (c : CoreId) (x : Core) : (s.setCore c x).brokenCopies = s.brokenCopies := rfl
@[simp] theorem State.setCore_trunks (s : State) (c : CoreId) (x : Core) : (s.setCore c x).trunks = s.trunks := rfl
@[simp] theorem State.setCore_routes (s : State) (c : CoreId) (x : Core) : (s.setCore c x).routes = s.routes := rfl
@[simp] theorem State.setCore_slots (s : State) (c : CoreId) (x : Core) : (s.setCore c x).slots = s.slots := rfl
@[simp] theorem State.setCore_formers (s : State) (c : CoreId) (x : Core) : (s.setCore c x).formers = s.formers := rfl
@[simp] theorem State.setCore_roles (s : State) (c : CoreId) (x : Core) : (s.setCore c x).roles = s.roles := rfl
@[simp] theorem State.setCore_loads (s : State) (c : CoreId) (x : Core) : (s.setCore c x).loads = s.loads := rfl
@[simp] theorem State.setCore_nextLoad (s : State) (c : CoreId) (x : Core) : (s.setCore c x).nextLoad = s.nextLoad := rfl
@[simp] theorem State.setCore_nextRecast (s : State) (c : CoreId) (x : Core) : (s.setCore c x).nextRecast = s.nextRecast := rfl
@[simp] theorem State.setCore_orders (s : State) (c : CoreId) (x : Core) : (s.setCore c x).orders = s.orders := rfl
@[simp] theorem State.setCore_usedFrames (s : State) (c : CoreId) (x : Core) : (s.setCore c x).usedFrames = s.usedFrames := rfl
@[simp] theorem State.setCore_mapped (s : State) (c : CoreId) (x : Core) : (s.setCore c x).mapped = s.mapped := rfl
@[simp] theorem State.setCore_accepted (s : State) (c : CoreId) (x : Core) : (s.setCore c x).accepted = s.accepted := rfl
@[simp] theorem State.setCore_completed (s : State) (c : CoreId) (x : Core) : (s.setCore c x).completed = s.completed := rfl
@[simp] theorem State.setCore_fumarole (s : State) (c : CoreId) (x : Core) : (s.setCore c x).fumarole = s.fumarole := rfl
@[simp] theorem State.setCore_fumaroleSeq (s : State) (c : CoreId) (x : Core) : (s.setCore c x).fumaroleSeq = s.fumaroleSeq := rfl
@[simp] theorem State.setCore_refusals (s : State) (c : CoreId) (x : Core) : (s.setCore c x).refusals = s.refusals := rfl
@[simp] theorem State.setCore_netRefusals (s : State) (c : CoreId) (x : Core) : (s.setCore c x).netRefusals = s.netRefusals := rfl
@[simp] theorem State.setCore_injected (s : State) (c : CoreId) (x : Core) : (s.setCore c x).injected = s.injected := rfl
@[simp] theorem State.setCore_transitions (s : State) (c : CoreId) (x : Core) : (s.setCore c x).transitions = s.transitions := rfl
@[simp] theorem State.setCore_tests (s : State) (c : CoreId) (x : Core) : (s.setCore c x).tests = s.tests := rfl
@[simp] theorem State.setCore_spares (s : State) (c : CoreId) (x : Core) : (s.setCore c x).spares = s.spares := rfl
@[simp] theorem State.setCore_understudies (s : State) (c : CoreId) (x : Core) : (s.setCore c x).understudies = s.understudies := rfl
@[simp] theorem State.setCore_unusable (s : State) (c : CoreId) (x : Core) : (s.setCore c x).unusable = s.unusable := rfl
@[simp] theorem State.setCore_powerLimit (s : State) (c : CoreId) (x : Core) : (s.setCore c x).powerLimit = s.powerLimit := rfl
@[simp] theorem State.setCore_throttle (s : State) (c : CoreId) (x : Core) : (s.setCore c x).throttle = s.throttle := rfl
@[simp] theorem State.setCore_powerClear (s : State) (c : CoreId) (x : Core) : (s.setCore c x).powerClear = s.powerClear := rfl
@[simp] theorem State.setCore_flashA (s : State) (c : CoreId) (x : Core) : (s.setCore c x).flashA = s.flashA := rfl
@[simp] theorem State.setCore_flashB (s : State) (c : CoreId) (x : Core) : (s.setCore c x).flashB = s.flashB := rfl
@[simp] theorem State.setCore_store (s : State) (c : CoreId) (x : Core) : (s.setCore c x).store = s.store := rfl
@[simp] theorem State.setCore_resumeReq (s : State) (c : CoreId) (x : Core) : (s.setCore c x).resumeReq = s.resumeReq := rfl
@[simp] theorem State.setCore_hostMem (s : State) (c : CoreId) (x : Core) : (s.setCore c x).hostMem = s.hostMem := rfl
@[simp] theorem State.setCore_failedPkgs (s : State) (c : CoreId) (x : Core) : (s.setCore c x).failedPkgs = s.failedPkgs := rfl
@[simp] theorem State.setCore_peerWords (s : State) (c : CoreId) (x : Core) : (s.setCore c x).peerWords = s.peerWords := rfl

@[simp] theorem State.updCore_schedule (s : State) (c : CoreId) (f : Core → Core) : (s.updCore c f).schedule = s.schedule := rfl
@[simp] theorem State.updCore_happenings (s : State) (c : CoreId) (f : Core → Core) : (s.updCore c f).happenings = s.happenings := rfl
@[simp] theorem State.updCore_cur (s : State) (c : CoreId) (f : Core → Core) : (s.updCore c f).cur = s.cur := rfl
@[simp] theorem State.updCore_tick (s : State) (c : CoreId) (f : Core → Core) : (s.updCore c f).tick = s.tick := rfl
@[simp] theorem State.updCore_nextId (s : State) (c : CoreId) (f : Core → Core) : (s.updCore c f).nextId = s.nextId := rfl
@[simp] theorem State.updCore_faults (s : State) (c : CoreId) (f : Core → Core) : (s.updCore c f).faults = s.faults := rfl
@[simp] theorem State.updCore_egress (s : State) (c : CoreId) (f : Core → Core) : (s.updCore c f).egress = s.egress := rfl
@[simp] theorem State.updCore_now (s : State) (c : CoreId) (f : Core → Core) : (s.updCore c f).now = s.now := rfl
@[simp] theorem State.updCore_pkg (s : State) (c : CoreId) (f : Core → Core) : (s.updCore c f).pkg = s.pkg := rfl
@[simp] theorem State.updCore_boot (s : State) (c : CoreId) (f : Core → Core) : (s.updCore c f).boot = s.boot := rfl
@[simp] theorem State.updCore_mem (s : State) (c : CoreId) (f : Core → Core) : (s.updCore c f).mem = s.mem := rfl
@[simp] theorem State.updCore_dev (s : State) (c : CoreId) (f : Core → Core) : (s.updCore c f).dev = s.dev := rfl
@[simp] theorem State.updCore_queues (s : State) (c : CoreId) (f : Core → Core) : (s.updCore c f).queues = s.queues := rfl
@[simp] theorem State.updCore_tensors (s : State) (c : CoreId) (f : Core → Core) : (s.updCore c f).tensors = s.tensors := rfl
@[simp] theorem State.updCore_ensembles (s : State) (c : CoreId) (f : Core → Core) : (s.updCore c f).ensembles = s.ensembles := rfl
@[simp] theorem State.updCore_engines (s : State) (c : CoreId) (f : Core → Core) : (s.updCore c f).engines = s.engines := rfl
@[simp] theorem State.updCore_groups (s : State) (c : CoreId) (f : Core → Core) : (s.updCore c f).groups = s.groups := rfl
@[simp] theorem State.updCore_redCells (s : State) (c : CoreId) (f : Core → Core) : (s.updCore c f).redCells = s.redCells := rfl
@[simp] theorem State.updCore_l2tlb (s : State) (c : CoreId) (f : Core → Core) : (s.updCore c f).l2tlb = s.l2tlb := rfl
@[simp] theorem State.updCore_ingressTlb (s : State) (c : CoreId) (f : Core → Core) : (s.updCore c f).ingressTlb = s.ingressTlb := rfl
@[simp] theorem State.updCore_gens (s : State) (c : CoreId) (f : Core → Core) : (s.updCore c f).gens = s.gens := rfl
@[simp] theorem State.updCore_invals (s : State) (c : CoreId) (f : Core → Core) : (s.updCore c f).invals = s.invals := rfl
@[simp] theorem State.updCore_migrations (s : State) (c : CoreId) (f : Core → Core) : (s.updCore c f).migrations = s.migrations := rfl
@[simp] theorem State.updCore_redirects (s : State) (c : CoreId) (f : Core → Core) : (s.updCore c f).redirects = s.redirects := rfl
@[simp] theorem State.updCore_migStat (s : State) (c : CoreId) (f : Core → Core) : (s.updCore c f).migStat = s.migStat := rfl
@[simp] theorem State.updCore_ingressPager (s : State) (c : CoreId) (f : Core → Core) : (s.updCore c f).ingressPager = s.ingressPager := rfl
@[simp] theorem State.updCore_cues (s : State) (c : CoreId) (f : Core → Core) : (s.updCore c f).cues = s.cues := rfl
@[simp] theorem State.updCore_hold (s : State) (c : CoreId) (f : Core → Core) : (s.updCore c f).hold = s.hold := rfl
@[simp] theorem State.updCore_landed (s : State) (c : CoreId) (f : Core → Core) : (s.updCore c f).landed = s.landed := rfl
@[simp] theorem State.updCore_failedCues (s : State) (c : CoreId) (f : Core → Core) : (s.updCore c f).failedCues = s.failedCues := rfl
@[simp] theorem State.updCore_misses (s : State) (c : CoreId) (f : Core → Core) : (s.updCore c f).misses = s.misses := rfl
@[simp] theorem State.updCore_brokenCopies (s : State) (c : CoreId) (f : Core → Core) : (s.updCore c f).brokenCopies = s.brokenCopies := rfl
@[simp] theorem State.updCore_trunks (s : State) (c : CoreId) (f : Core → Core) : (s.updCore c f).trunks = s.trunks := rfl
@[simp] theorem State.updCore_routes (s : State) (c : CoreId) (f : Core → Core) : (s.updCore c f).routes = s.routes := rfl
@[simp] theorem State.updCore_slots (s : State) (c : CoreId) (f : Core → Core) : (s.updCore c f).slots = s.slots := rfl
@[simp] theorem State.updCore_formers (s : State) (c : CoreId) (f : Core → Core) : (s.updCore c f).formers = s.formers := rfl
@[simp] theorem State.updCore_roles (s : State) (c : CoreId) (f : Core → Core) : (s.updCore c f).roles = s.roles := rfl
@[simp] theorem State.updCore_loads (s : State) (c : CoreId) (f : Core → Core) : (s.updCore c f).loads = s.loads := rfl
@[simp] theorem State.updCore_nextLoad (s : State) (c : CoreId) (f : Core → Core) : (s.updCore c f).nextLoad = s.nextLoad := rfl
@[simp] theorem State.updCore_nextRecast (s : State) (c : CoreId) (f : Core → Core) : (s.updCore c f).nextRecast = s.nextRecast := rfl
@[simp] theorem State.updCore_orders (s : State) (c : CoreId) (f : Core → Core) : (s.updCore c f).orders = s.orders := rfl
@[simp] theorem State.updCore_usedFrames (s : State) (c : CoreId) (f : Core → Core) : (s.updCore c f).usedFrames = s.usedFrames := rfl
@[simp] theorem State.updCore_mapped (s : State) (c : CoreId) (f : Core → Core) : (s.updCore c f).mapped = s.mapped := rfl
@[simp] theorem State.updCore_accepted (s : State) (c : CoreId) (f : Core → Core) : (s.updCore c f).accepted = s.accepted := rfl
@[simp] theorem State.updCore_completed (s : State) (c : CoreId) (f : Core → Core) : (s.updCore c f).completed = s.completed := rfl
@[simp] theorem State.updCore_fumarole (s : State) (c : CoreId) (f : Core → Core) : (s.updCore c f).fumarole = s.fumarole := rfl
@[simp] theorem State.updCore_fumaroleSeq (s : State) (c : CoreId) (f : Core → Core) : (s.updCore c f).fumaroleSeq = s.fumaroleSeq := rfl
@[simp] theorem State.updCore_refusals (s : State) (c : CoreId) (f : Core → Core) : (s.updCore c f).refusals = s.refusals := rfl
@[simp] theorem State.updCore_netRefusals (s : State) (c : CoreId) (f : Core → Core) : (s.updCore c f).netRefusals = s.netRefusals := rfl
@[simp] theorem State.updCore_injected (s : State) (c : CoreId) (f : Core → Core) : (s.updCore c f).injected = s.injected := rfl
@[simp] theorem State.updCore_transitions (s : State) (c : CoreId) (f : Core → Core) : (s.updCore c f).transitions = s.transitions := rfl
@[simp] theorem State.updCore_tests (s : State) (c : CoreId) (f : Core → Core) : (s.updCore c f).tests = s.tests := rfl
@[simp] theorem State.updCore_spares (s : State) (c : CoreId) (f : Core → Core) : (s.updCore c f).spares = s.spares := rfl
@[simp] theorem State.updCore_understudies (s : State) (c : CoreId) (f : Core → Core) : (s.updCore c f).understudies = s.understudies := rfl
@[simp] theorem State.updCore_unusable (s : State) (c : CoreId) (f : Core → Core) : (s.updCore c f).unusable = s.unusable := rfl
@[simp] theorem State.updCore_powerLimit (s : State) (c : CoreId) (f : Core → Core) : (s.updCore c f).powerLimit = s.powerLimit := rfl
@[simp] theorem State.updCore_throttle (s : State) (c : CoreId) (f : Core → Core) : (s.updCore c f).throttle = s.throttle := rfl
@[simp] theorem State.updCore_powerClear (s : State) (c : CoreId) (f : Core → Core) : (s.updCore c f).powerClear = s.powerClear := rfl
@[simp] theorem State.updCore_flashA (s : State) (c : CoreId) (f : Core → Core) : (s.updCore c f).flashA = s.flashA := rfl
@[simp] theorem State.updCore_flashB (s : State) (c : CoreId) (f : Core → Core) : (s.updCore c f).flashB = s.flashB := rfl
@[simp] theorem State.updCore_store (s : State) (c : CoreId) (f : Core → Core) : (s.updCore c f).store = s.store := rfl
@[simp] theorem State.updCore_resumeReq (s : State) (c : CoreId) (f : Core → Core) : (s.updCore c f).resumeReq = s.resumeReq := rfl
@[simp] theorem State.updCore_hostMem (s : State) (c : CoreId) (f : Core → Core) : (s.updCore c f).hostMem = s.hostMem := rfl
@[simp] theorem State.updCore_failedPkgs (s : State) (c : CoreId) (f : Core → Core) : (s.updCore c f).failedPkgs = s.failedPkgs := rfl
@[simp] theorem State.updCore_peerWords (s : State) (c : CoreId) (f : Core → Core) : (s.updCore c f).peerWords = s.peerWords := rfl

@[simp] theorem State.setQueue_schedule (s : State) (q : QKey) (x : Queue) : (s.setQueue q x).schedule = s.schedule := rfl
@[simp] theorem State.setQueue_happenings (s : State) (q : QKey) (x : Queue) : (s.setQueue q x).happenings = s.happenings := rfl
@[simp] theorem State.setQueue_cur (s : State) (q : QKey) (x : Queue) : (s.setQueue q x).cur = s.cur := rfl
@[simp] theorem State.setQueue_tick (s : State) (q : QKey) (x : Queue) : (s.setQueue q x).tick = s.tick := rfl
@[simp] theorem State.setQueue_nextId (s : State) (q : QKey) (x : Queue) : (s.setQueue q x).nextId = s.nextId := rfl
@[simp] theorem State.setQueue_faults (s : State) (q : QKey) (x : Queue) : (s.setQueue q x).faults = s.faults := rfl
@[simp] theorem State.setQueue_egress (s : State) (q : QKey) (x : Queue) : (s.setQueue q x).egress = s.egress := rfl
@[simp] theorem State.setQueue_now (s : State) (q : QKey) (x : Queue) : (s.setQueue q x).now = s.now := rfl
@[simp] theorem State.setQueue_pkg (s : State) (q : QKey) (x : Queue) : (s.setQueue q x).pkg = s.pkg := rfl
@[simp] theorem State.setQueue_boot (s : State) (q : QKey) (x : Queue) : (s.setQueue q x).boot = s.boot := rfl
@[simp] theorem State.setQueue_mem (s : State) (q : QKey) (x : Queue) : (s.setQueue q x).mem = s.mem := rfl
@[simp] theorem State.setQueue_dev (s : State) (q : QKey) (x : Queue) : (s.setQueue q x).dev = s.dev := rfl
@[simp] theorem State.setQueue_cores (s : State) (q : QKey) (x : Queue) : (s.setQueue q x).cores = s.cores := rfl
@[simp] theorem State.setQueue_tensors (s : State) (q : QKey) (x : Queue) : (s.setQueue q x).tensors = s.tensors := rfl
@[simp] theorem State.setQueue_ensembles (s : State) (q : QKey) (x : Queue) : (s.setQueue q x).ensembles = s.ensembles := rfl
@[simp] theorem State.setQueue_engines (s : State) (q : QKey) (x : Queue) : (s.setQueue q x).engines = s.engines := rfl
@[simp] theorem State.setQueue_groups (s : State) (q : QKey) (x : Queue) : (s.setQueue q x).groups = s.groups := rfl
@[simp] theorem State.setQueue_redCells (s : State) (q : QKey) (x : Queue) : (s.setQueue q x).redCells = s.redCells := rfl
@[simp] theorem State.setQueue_l2tlb (s : State) (q : QKey) (x : Queue) : (s.setQueue q x).l2tlb = s.l2tlb := rfl
@[simp] theorem State.setQueue_ingressTlb (s : State) (q : QKey) (x : Queue) : (s.setQueue q x).ingressTlb = s.ingressTlb := rfl
@[simp] theorem State.setQueue_gens (s : State) (q : QKey) (x : Queue) : (s.setQueue q x).gens = s.gens := rfl
@[simp] theorem State.setQueue_invals (s : State) (q : QKey) (x : Queue) : (s.setQueue q x).invals = s.invals := rfl
@[simp] theorem State.setQueue_migrations (s : State) (q : QKey) (x : Queue) : (s.setQueue q x).migrations = s.migrations := rfl
@[simp] theorem State.setQueue_redirects (s : State) (q : QKey) (x : Queue) : (s.setQueue q x).redirects = s.redirects := rfl
@[simp] theorem State.setQueue_migStat (s : State) (q : QKey) (x : Queue) : (s.setQueue q x).migStat = s.migStat := rfl
@[simp] theorem State.setQueue_ingressPager (s : State) (q : QKey) (x : Queue) : (s.setQueue q x).ingressPager = s.ingressPager := rfl
@[simp] theorem State.setQueue_cues (s : State) (q : QKey) (x : Queue) : (s.setQueue q x).cues = s.cues := rfl
@[simp] theorem State.setQueue_hold (s : State) (q : QKey) (x : Queue) : (s.setQueue q x).hold = s.hold := rfl
@[simp] theorem State.setQueue_landed (s : State) (q : QKey) (x : Queue) : (s.setQueue q x).landed = s.landed := rfl
@[simp] theorem State.setQueue_failedCues (s : State) (q : QKey) (x : Queue) : (s.setQueue q x).failedCues = s.failedCues := rfl
@[simp] theorem State.setQueue_misses (s : State) (q : QKey) (x : Queue) : (s.setQueue q x).misses = s.misses := rfl
@[simp] theorem State.setQueue_brokenCopies (s : State) (q : QKey) (x : Queue) : (s.setQueue q x).brokenCopies = s.brokenCopies := rfl
@[simp] theorem State.setQueue_trunks (s : State) (q : QKey) (x : Queue) : (s.setQueue q x).trunks = s.trunks := rfl
@[simp] theorem State.setQueue_routes (s : State) (q : QKey) (x : Queue) : (s.setQueue q x).routes = s.routes := rfl
@[simp] theorem State.setQueue_slots (s : State) (q : QKey) (x : Queue) : (s.setQueue q x).slots = s.slots := rfl
@[simp] theorem State.setQueue_formers (s : State) (q : QKey) (x : Queue) : (s.setQueue q x).formers = s.formers := rfl
@[simp] theorem State.setQueue_roles (s : State) (q : QKey) (x : Queue) : (s.setQueue q x).roles = s.roles := rfl
@[simp] theorem State.setQueue_loads (s : State) (q : QKey) (x : Queue) : (s.setQueue q x).loads = s.loads := rfl
@[simp] theorem State.setQueue_nextLoad (s : State) (q : QKey) (x : Queue) : (s.setQueue q x).nextLoad = s.nextLoad := rfl
@[simp] theorem State.setQueue_nextRecast (s : State) (q : QKey) (x : Queue) : (s.setQueue q x).nextRecast = s.nextRecast := rfl
@[simp] theorem State.setQueue_orders (s : State) (q : QKey) (x : Queue) : (s.setQueue q x).orders = s.orders := rfl
@[simp] theorem State.setQueue_usedFrames (s : State) (q : QKey) (x : Queue) : (s.setQueue q x).usedFrames = s.usedFrames := rfl
@[simp] theorem State.setQueue_mapped (s : State) (q : QKey) (x : Queue) : (s.setQueue q x).mapped = s.mapped := rfl
@[simp] theorem State.setQueue_accepted (s : State) (q : QKey) (x : Queue) : (s.setQueue q x).accepted = s.accepted := rfl
@[simp] theorem State.setQueue_completed (s : State) (q : QKey) (x : Queue) : (s.setQueue q x).completed = s.completed := rfl
@[simp] theorem State.setQueue_fumarole (s : State) (q : QKey) (x : Queue) : (s.setQueue q x).fumarole = s.fumarole := rfl
@[simp] theorem State.setQueue_fumaroleSeq (s : State) (q : QKey) (x : Queue) : (s.setQueue q x).fumaroleSeq = s.fumaroleSeq := rfl
@[simp] theorem State.setQueue_refusals (s : State) (q : QKey) (x : Queue) : (s.setQueue q x).refusals = s.refusals := rfl
@[simp] theorem State.setQueue_netRefusals (s : State) (q : QKey) (x : Queue) : (s.setQueue q x).netRefusals = s.netRefusals := rfl
@[simp] theorem State.setQueue_injected (s : State) (q : QKey) (x : Queue) : (s.setQueue q x).injected = s.injected := rfl
@[simp] theorem State.setQueue_transitions (s : State) (q : QKey) (x : Queue) : (s.setQueue q x).transitions = s.transitions := rfl
@[simp] theorem State.setQueue_tests (s : State) (q : QKey) (x : Queue) : (s.setQueue q x).tests = s.tests := rfl
@[simp] theorem State.setQueue_spares (s : State) (q : QKey) (x : Queue) : (s.setQueue q x).spares = s.spares := rfl
@[simp] theorem State.setQueue_understudies (s : State) (q : QKey) (x : Queue) : (s.setQueue q x).understudies = s.understudies := rfl
@[simp] theorem State.setQueue_unusable (s : State) (q : QKey) (x : Queue) : (s.setQueue q x).unusable = s.unusable := rfl
@[simp] theorem State.setQueue_powerLimit (s : State) (q : QKey) (x : Queue) : (s.setQueue q x).powerLimit = s.powerLimit := rfl
@[simp] theorem State.setQueue_throttle (s : State) (q : QKey) (x : Queue) : (s.setQueue q x).throttle = s.throttle := rfl
@[simp] theorem State.setQueue_powerClear (s : State) (q : QKey) (x : Queue) : (s.setQueue q x).powerClear = s.powerClear := rfl
@[simp] theorem State.setQueue_flashA (s : State) (q : QKey) (x : Queue) : (s.setQueue q x).flashA = s.flashA := rfl
@[simp] theorem State.setQueue_flashB (s : State) (q : QKey) (x : Queue) : (s.setQueue q x).flashB = s.flashB := rfl
@[simp] theorem State.setQueue_store (s : State) (q : QKey) (x : Queue) : (s.setQueue q x).store = s.store := rfl
@[simp] theorem State.setQueue_resumeReq (s : State) (q : QKey) (x : Queue) : (s.setQueue q x).resumeReq = s.resumeReq := rfl
@[simp] theorem State.setQueue_hostMem (s : State) (q : QKey) (x : Queue) : (s.setQueue q x).hostMem = s.hostMem := rfl
@[simp] theorem State.setQueue_failedPkgs (s : State) (q : QKey) (x : Queue) : (s.setQueue q x).failedPkgs = s.failedPkgs := rfl
@[simp] theorem State.setQueue_peerWords (s : State) (q : QKey) (x : Queue) : (s.setQueue q x).peerWords = s.peerWords := rfl

@[simp] theorem State.setEns_schedule (s : State) (e : EnsId) (x : Ens) : (s.setEns e x).schedule = s.schedule := rfl
@[simp] theorem State.setEns_happenings (s : State) (e : EnsId) (x : Ens) : (s.setEns e x).happenings = s.happenings := rfl
@[simp] theorem State.setEns_cur (s : State) (e : EnsId) (x : Ens) : (s.setEns e x).cur = s.cur := rfl
@[simp] theorem State.setEns_tick (s : State) (e : EnsId) (x : Ens) : (s.setEns e x).tick = s.tick := rfl
@[simp] theorem State.setEns_nextId (s : State) (e : EnsId) (x : Ens) : (s.setEns e x).nextId = s.nextId := rfl
@[simp] theorem State.setEns_faults (s : State) (e : EnsId) (x : Ens) : (s.setEns e x).faults = s.faults := rfl
@[simp] theorem State.setEns_egress (s : State) (e : EnsId) (x : Ens) : (s.setEns e x).egress = s.egress := rfl
@[simp] theorem State.setEns_now (s : State) (e : EnsId) (x : Ens) : (s.setEns e x).now = s.now := rfl
@[simp] theorem State.setEns_pkg (s : State) (e : EnsId) (x : Ens) : (s.setEns e x).pkg = s.pkg := rfl
@[simp] theorem State.setEns_boot (s : State) (e : EnsId) (x : Ens) : (s.setEns e x).boot = s.boot := rfl
@[simp] theorem State.setEns_mem (s : State) (e : EnsId) (x : Ens) : (s.setEns e x).mem = s.mem := rfl
@[simp] theorem State.setEns_dev (s : State) (e : EnsId) (x : Ens) : (s.setEns e x).dev = s.dev := rfl
@[simp] theorem State.setEns_cores (s : State) (e : EnsId) (x : Ens) : (s.setEns e x).cores = s.cores := rfl
@[simp] theorem State.setEns_queues (s : State) (e : EnsId) (x : Ens) : (s.setEns e x).queues = s.queues := rfl
@[simp] theorem State.setEns_tensors (s : State) (e : EnsId) (x : Ens) : (s.setEns e x).tensors = s.tensors := rfl
@[simp] theorem State.setEns_engines (s : State) (e : EnsId) (x : Ens) : (s.setEns e x).engines = s.engines := rfl
@[simp] theorem State.setEns_groups (s : State) (e : EnsId) (x : Ens) : (s.setEns e x).groups = s.groups := rfl
@[simp] theorem State.setEns_redCells (s : State) (e : EnsId) (x : Ens) : (s.setEns e x).redCells = s.redCells := rfl
@[simp] theorem State.setEns_l2tlb (s : State) (e : EnsId) (x : Ens) : (s.setEns e x).l2tlb = s.l2tlb := rfl
@[simp] theorem State.setEns_ingressTlb (s : State) (e : EnsId) (x : Ens) : (s.setEns e x).ingressTlb = s.ingressTlb := rfl
@[simp] theorem State.setEns_gens (s : State) (e : EnsId) (x : Ens) : (s.setEns e x).gens = s.gens := rfl
@[simp] theorem State.setEns_invals (s : State) (e : EnsId) (x : Ens) : (s.setEns e x).invals = s.invals := rfl
@[simp] theorem State.setEns_migrations (s : State) (e : EnsId) (x : Ens) : (s.setEns e x).migrations = s.migrations := rfl
@[simp] theorem State.setEns_redirects (s : State) (e : EnsId) (x : Ens) : (s.setEns e x).redirects = s.redirects := rfl
@[simp] theorem State.setEns_migStat (s : State) (e : EnsId) (x : Ens) : (s.setEns e x).migStat = s.migStat := rfl
@[simp] theorem State.setEns_ingressPager (s : State) (e : EnsId) (x : Ens) : (s.setEns e x).ingressPager = s.ingressPager := rfl
@[simp] theorem State.setEns_cues (s : State) (e : EnsId) (x : Ens) : (s.setEns e x).cues = s.cues := rfl
@[simp] theorem State.setEns_hold (s : State) (e : EnsId) (x : Ens) : (s.setEns e x).hold = s.hold := rfl
@[simp] theorem State.setEns_landed (s : State) (e : EnsId) (x : Ens) : (s.setEns e x).landed = s.landed := rfl
@[simp] theorem State.setEns_failedCues (s : State) (e : EnsId) (x : Ens) : (s.setEns e x).failedCues = s.failedCues := rfl
@[simp] theorem State.setEns_misses (s : State) (e : EnsId) (x : Ens) : (s.setEns e x).misses = s.misses := rfl
@[simp] theorem State.setEns_brokenCopies (s : State) (e : EnsId) (x : Ens) : (s.setEns e x).brokenCopies = s.brokenCopies := rfl
@[simp] theorem State.setEns_trunks (s : State) (e : EnsId) (x : Ens) : (s.setEns e x).trunks = s.trunks := rfl
@[simp] theorem State.setEns_routes (s : State) (e : EnsId) (x : Ens) : (s.setEns e x).routes = s.routes := rfl
@[simp] theorem State.setEns_slots (s : State) (e : EnsId) (x : Ens) : (s.setEns e x).slots = s.slots := rfl
@[simp] theorem State.setEns_formers (s : State) (e : EnsId) (x : Ens) : (s.setEns e x).formers = s.formers := rfl
@[simp] theorem State.setEns_roles (s : State) (e : EnsId) (x : Ens) : (s.setEns e x).roles = s.roles := rfl
@[simp] theorem State.setEns_loads (s : State) (e : EnsId) (x : Ens) : (s.setEns e x).loads = s.loads := rfl
@[simp] theorem State.setEns_nextLoad (s : State) (e : EnsId) (x : Ens) : (s.setEns e x).nextLoad = s.nextLoad := rfl
@[simp] theorem State.setEns_nextRecast (s : State) (e : EnsId) (x : Ens) : (s.setEns e x).nextRecast = s.nextRecast := rfl
@[simp] theorem State.setEns_orders (s : State) (e : EnsId) (x : Ens) : (s.setEns e x).orders = s.orders := rfl
@[simp] theorem State.setEns_usedFrames (s : State) (e : EnsId) (x : Ens) : (s.setEns e x).usedFrames = s.usedFrames := rfl
@[simp] theorem State.setEns_mapped (s : State) (e : EnsId) (x : Ens) : (s.setEns e x).mapped = s.mapped := rfl
@[simp] theorem State.setEns_accepted (s : State) (e : EnsId) (x : Ens) : (s.setEns e x).accepted = s.accepted := rfl
@[simp] theorem State.setEns_completed (s : State) (e : EnsId) (x : Ens) : (s.setEns e x).completed = s.completed := rfl
@[simp] theorem State.setEns_fumarole (s : State) (e : EnsId) (x : Ens) : (s.setEns e x).fumarole = s.fumarole := rfl
@[simp] theorem State.setEns_fumaroleSeq (s : State) (e : EnsId) (x : Ens) : (s.setEns e x).fumaroleSeq = s.fumaroleSeq := rfl
@[simp] theorem State.setEns_refusals (s : State) (e : EnsId) (x : Ens) : (s.setEns e x).refusals = s.refusals := rfl
@[simp] theorem State.setEns_netRefusals (s : State) (e : EnsId) (x : Ens) : (s.setEns e x).netRefusals = s.netRefusals := rfl
@[simp] theorem State.setEns_injected (s : State) (e : EnsId) (x : Ens) : (s.setEns e x).injected = s.injected := rfl
@[simp] theorem State.setEns_transitions (s : State) (e : EnsId) (x : Ens) : (s.setEns e x).transitions = s.transitions := rfl
@[simp] theorem State.setEns_tests (s : State) (e : EnsId) (x : Ens) : (s.setEns e x).tests = s.tests := rfl
@[simp] theorem State.setEns_spares (s : State) (e : EnsId) (x : Ens) : (s.setEns e x).spares = s.spares := rfl
@[simp] theorem State.setEns_understudies (s : State) (e : EnsId) (x : Ens) : (s.setEns e x).understudies = s.understudies := rfl
@[simp] theorem State.setEns_unusable (s : State) (e : EnsId) (x : Ens) : (s.setEns e x).unusable = s.unusable := rfl
@[simp] theorem State.setEns_powerLimit (s : State) (e : EnsId) (x : Ens) : (s.setEns e x).powerLimit = s.powerLimit := rfl
@[simp] theorem State.setEns_throttle (s : State) (e : EnsId) (x : Ens) : (s.setEns e x).throttle = s.throttle := rfl
@[simp] theorem State.setEns_powerClear (s : State) (e : EnsId) (x : Ens) : (s.setEns e x).powerClear = s.powerClear := rfl
@[simp] theorem State.setEns_flashA (s : State) (e : EnsId) (x : Ens) : (s.setEns e x).flashA = s.flashA := rfl
@[simp] theorem State.setEns_flashB (s : State) (e : EnsId) (x : Ens) : (s.setEns e x).flashB = s.flashB := rfl
@[simp] theorem State.setEns_store (s : State) (e : EnsId) (x : Ens) : (s.setEns e x).store = s.store := rfl
@[simp] theorem State.setEns_resumeReq (s : State) (e : EnsId) (x : Ens) : (s.setEns e x).resumeReq = s.resumeReq := rfl
@[simp] theorem State.setEns_hostMem (s : State) (e : EnsId) (x : Ens) : (s.setEns e x).hostMem = s.hostMem := rfl
@[simp] theorem State.setEns_failedPkgs (s : State) (e : EnsId) (x : Ens) : (s.setEns e x).failedPkgs = s.failedPkgs := rfl
@[simp] theorem State.setEns_peerWords (s : State) (e : EnsId) (x : Ens) : (s.setEns e x).peerWords = s.peerWords := rfl

@[simp] theorem State.updEns_schedule (s : State) (e : EnsId) (f : Ens → Ens) : (s.updEns e f).schedule = s.schedule := rfl
@[simp] theorem State.updEns_happenings (s : State) (e : EnsId) (f : Ens → Ens) : (s.updEns e f).happenings = s.happenings := rfl
@[simp] theorem State.updEns_cur (s : State) (e : EnsId) (f : Ens → Ens) : (s.updEns e f).cur = s.cur := rfl
@[simp] theorem State.updEns_tick (s : State) (e : EnsId) (f : Ens → Ens) : (s.updEns e f).tick = s.tick := rfl
@[simp] theorem State.updEns_nextId (s : State) (e : EnsId) (f : Ens → Ens) : (s.updEns e f).nextId = s.nextId := rfl
@[simp] theorem State.updEns_faults (s : State) (e : EnsId) (f : Ens → Ens) : (s.updEns e f).faults = s.faults := rfl
@[simp] theorem State.updEns_egress (s : State) (e : EnsId) (f : Ens → Ens) : (s.updEns e f).egress = s.egress := rfl
@[simp] theorem State.updEns_now (s : State) (e : EnsId) (f : Ens → Ens) : (s.updEns e f).now = s.now := rfl
@[simp] theorem State.updEns_pkg (s : State) (e : EnsId) (f : Ens → Ens) : (s.updEns e f).pkg = s.pkg := rfl
@[simp] theorem State.updEns_boot (s : State) (e : EnsId) (f : Ens → Ens) : (s.updEns e f).boot = s.boot := rfl
@[simp] theorem State.updEns_mem (s : State) (e : EnsId) (f : Ens → Ens) : (s.updEns e f).mem = s.mem := rfl
@[simp] theorem State.updEns_dev (s : State) (e : EnsId) (f : Ens → Ens) : (s.updEns e f).dev = s.dev := rfl
@[simp] theorem State.updEns_cores (s : State) (e : EnsId) (f : Ens → Ens) : (s.updEns e f).cores = s.cores := rfl
@[simp] theorem State.updEns_queues (s : State) (e : EnsId) (f : Ens → Ens) : (s.updEns e f).queues = s.queues := rfl
@[simp] theorem State.updEns_tensors (s : State) (e : EnsId) (f : Ens → Ens) : (s.updEns e f).tensors = s.tensors := rfl
@[simp] theorem State.updEns_engines (s : State) (e : EnsId) (f : Ens → Ens) : (s.updEns e f).engines = s.engines := rfl
@[simp] theorem State.updEns_groups (s : State) (e : EnsId) (f : Ens → Ens) : (s.updEns e f).groups = s.groups := rfl
@[simp] theorem State.updEns_redCells (s : State) (e : EnsId) (f : Ens → Ens) : (s.updEns e f).redCells = s.redCells := rfl
@[simp] theorem State.updEns_l2tlb (s : State) (e : EnsId) (f : Ens → Ens) : (s.updEns e f).l2tlb = s.l2tlb := rfl
@[simp] theorem State.updEns_ingressTlb (s : State) (e : EnsId) (f : Ens → Ens) : (s.updEns e f).ingressTlb = s.ingressTlb := rfl
@[simp] theorem State.updEns_gens (s : State) (e : EnsId) (f : Ens → Ens) : (s.updEns e f).gens = s.gens := rfl
@[simp] theorem State.updEns_invals (s : State) (e : EnsId) (f : Ens → Ens) : (s.updEns e f).invals = s.invals := rfl
@[simp] theorem State.updEns_migrations (s : State) (e : EnsId) (f : Ens → Ens) : (s.updEns e f).migrations = s.migrations := rfl
@[simp] theorem State.updEns_redirects (s : State) (e : EnsId) (f : Ens → Ens) : (s.updEns e f).redirects = s.redirects := rfl
@[simp] theorem State.updEns_migStat (s : State) (e : EnsId) (f : Ens → Ens) : (s.updEns e f).migStat = s.migStat := rfl
@[simp] theorem State.updEns_ingressPager (s : State) (e : EnsId) (f : Ens → Ens) : (s.updEns e f).ingressPager = s.ingressPager := rfl
@[simp] theorem State.updEns_cues (s : State) (e : EnsId) (f : Ens → Ens) : (s.updEns e f).cues = s.cues := rfl
@[simp] theorem State.updEns_hold (s : State) (e : EnsId) (f : Ens → Ens) : (s.updEns e f).hold = s.hold := rfl
@[simp] theorem State.updEns_landed (s : State) (e : EnsId) (f : Ens → Ens) : (s.updEns e f).landed = s.landed := rfl
@[simp] theorem State.updEns_failedCues (s : State) (e : EnsId) (f : Ens → Ens) : (s.updEns e f).failedCues = s.failedCues := rfl
@[simp] theorem State.updEns_misses (s : State) (e : EnsId) (f : Ens → Ens) : (s.updEns e f).misses = s.misses := rfl
@[simp] theorem State.updEns_brokenCopies (s : State) (e : EnsId) (f : Ens → Ens) : (s.updEns e f).brokenCopies = s.brokenCopies := rfl
@[simp] theorem State.updEns_trunks (s : State) (e : EnsId) (f : Ens → Ens) : (s.updEns e f).trunks = s.trunks := rfl
@[simp] theorem State.updEns_routes (s : State) (e : EnsId) (f : Ens → Ens) : (s.updEns e f).routes = s.routes := rfl
@[simp] theorem State.updEns_slots (s : State) (e : EnsId) (f : Ens → Ens) : (s.updEns e f).slots = s.slots := rfl
@[simp] theorem State.updEns_formers (s : State) (e : EnsId) (f : Ens → Ens) : (s.updEns e f).formers = s.formers := rfl
@[simp] theorem State.updEns_roles (s : State) (e : EnsId) (f : Ens → Ens) : (s.updEns e f).roles = s.roles := rfl
@[simp] theorem State.updEns_loads (s : State) (e : EnsId) (f : Ens → Ens) : (s.updEns e f).loads = s.loads := rfl
@[simp] theorem State.updEns_nextLoad (s : State) (e : EnsId) (f : Ens → Ens) : (s.updEns e f).nextLoad = s.nextLoad := rfl
@[simp] theorem State.updEns_nextRecast (s : State) (e : EnsId) (f : Ens → Ens) : (s.updEns e f).nextRecast = s.nextRecast := rfl
@[simp] theorem State.updEns_orders (s : State) (e : EnsId) (f : Ens → Ens) : (s.updEns e f).orders = s.orders := rfl
@[simp] theorem State.updEns_usedFrames (s : State) (e : EnsId) (f : Ens → Ens) : (s.updEns e f).usedFrames = s.usedFrames := rfl
@[simp] theorem State.updEns_mapped (s : State) (e : EnsId) (f : Ens → Ens) : (s.updEns e f).mapped = s.mapped := rfl
@[simp] theorem State.updEns_accepted (s : State) (e : EnsId) (f : Ens → Ens) : (s.updEns e f).accepted = s.accepted := rfl
@[simp] theorem State.updEns_completed (s : State) (e : EnsId) (f : Ens → Ens) : (s.updEns e f).completed = s.completed := rfl
@[simp] theorem State.updEns_fumarole (s : State) (e : EnsId) (f : Ens → Ens) : (s.updEns e f).fumarole = s.fumarole := rfl
@[simp] theorem State.updEns_fumaroleSeq (s : State) (e : EnsId) (f : Ens → Ens) : (s.updEns e f).fumaroleSeq = s.fumaroleSeq := rfl
@[simp] theorem State.updEns_refusals (s : State) (e : EnsId) (f : Ens → Ens) : (s.updEns e f).refusals = s.refusals := rfl
@[simp] theorem State.updEns_netRefusals (s : State) (e : EnsId) (f : Ens → Ens) : (s.updEns e f).netRefusals = s.netRefusals := rfl
@[simp] theorem State.updEns_injected (s : State) (e : EnsId) (f : Ens → Ens) : (s.updEns e f).injected = s.injected := rfl
@[simp] theorem State.updEns_transitions (s : State) (e : EnsId) (f : Ens → Ens) : (s.updEns e f).transitions = s.transitions := rfl
@[simp] theorem State.updEns_tests (s : State) (e : EnsId) (f : Ens → Ens) : (s.updEns e f).tests = s.tests := rfl
@[simp] theorem State.updEns_spares (s : State) (e : EnsId) (f : Ens → Ens) : (s.updEns e f).spares = s.spares := rfl
@[simp] theorem State.updEns_understudies (s : State) (e : EnsId) (f : Ens → Ens) : (s.updEns e f).understudies = s.understudies := rfl
@[simp] theorem State.updEns_unusable (s : State) (e : EnsId) (f : Ens → Ens) : (s.updEns e f).unusable = s.unusable := rfl
@[simp] theorem State.updEns_powerLimit (s : State) (e : EnsId) (f : Ens → Ens) : (s.updEns e f).powerLimit = s.powerLimit := rfl
@[simp] theorem State.updEns_throttle (s : State) (e : EnsId) (f : Ens → Ens) : (s.updEns e f).throttle = s.throttle := rfl
@[simp] theorem State.updEns_powerClear (s : State) (e : EnsId) (f : Ens → Ens) : (s.updEns e f).powerClear = s.powerClear := rfl
@[simp] theorem State.updEns_flashA (s : State) (e : EnsId) (f : Ens → Ens) : (s.updEns e f).flashA = s.flashA := rfl
@[simp] theorem State.updEns_flashB (s : State) (e : EnsId) (f : Ens → Ens) : (s.updEns e f).flashB = s.flashB := rfl
@[simp] theorem State.updEns_store (s : State) (e : EnsId) (f : Ens → Ens) : (s.updEns e f).store = s.store := rfl
@[simp] theorem State.updEns_resumeReq (s : State) (e : EnsId) (f : Ens → Ens) : (s.updEns e f).resumeReq = s.resumeReq := rfl
@[simp] theorem State.updEns_hostMem (s : State) (e : EnsId) (f : Ens → Ens) : (s.updEns e f).hostMem = s.hostMem := rfl
@[simp] theorem State.updEns_failedPkgs (s : State) (e : EnsId) (f : Ens → Ens) : (s.updEns e f).failedPkgs = s.failedPkgs := rfl
@[simp] theorem State.updEns_peerWords (s : State) (e : EnsId) (f : Ens → Ens) : (s.updEns e f).peerWords = s.peerWords := rfl

@[simp] theorem State.setEngine_schedule (s : State) (n : Nat) (x : Engine) : (s.setEngine n x).schedule = s.schedule := rfl
@[simp] theorem State.setEngine_happenings (s : State) (n : Nat) (x : Engine) : (s.setEngine n x).happenings = s.happenings := rfl
@[simp] theorem State.setEngine_cur (s : State) (n : Nat) (x : Engine) : (s.setEngine n x).cur = s.cur := rfl
@[simp] theorem State.setEngine_tick (s : State) (n : Nat) (x : Engine) : (s.setEngine n x).tick = s.tick := rfl
@[simp] theorem State.setEngine_nextId (s : State) (n : Nat) (x : Engine) : (s.setEngine n x).nextId = s.nextId := rfl
@[simp] theorem State.setEngine_faults (s : State) (n : Nat) (x : Engine) : (s.setEngine n x).faults = s.faults := rfl
@[simp] theorem State.setEngine_egress (s : State) (n : Nat) (x : Engine) : (s.setEngine n x).egress = s.egress := rfl
@[simp] theorem State.setEngine_now (s : State) (n : Nat) (x : Engine) : (s.setEngine n x).now = s.now := rfl
@[simp] theorem State.setEngine_pkg (s : State) (n : Nat) (x : Engine) : (s.setEngine n x).pkg = s.pkg := rfl
@[simp] theorem State.setEngine_boot (s : State) (n : Nat) (x : Engine) : (s.setEngine n x).boot = s.boot := rfl
@[simp] theorem State.setEngine_mem (s : State) (n : Nat) (x : Engine) : (s.setEngine n x).mem = s.mem := rfl
@[simp] theorem State.setEngine_dev (s : State) (n : Nat) (x : Engine) : (s.setEngine n x).dev = s.dev := rfl
@[simp] theorem State.setEngine_cores (s : State) (n : Nat) (x : Engine) : (s.setEngine n x).cores = s.cores := rfl
@[simp] theorem State.setEngine_queues (s : State) (n : Nat) (x : Engine) : (s.setEngine n x).queues = s.queues := rfl
@[simp] theorem State.setEngine_tensors (s : State) (n : Nat) (x : Engine) : (s.setEngine n x).tensors = s.tensors := rfl
@[simp] theorem State.setEngine_ensembles (s : State) (n : Nat) (x : Engine) : (s.setEngine n x).ensembles = s.ensembles := rfl
@[simp] theorem State.setEngine_groups (s : State) (n : Nat) (x : Engine) : (s.setEngine n x).groups = s.groups := rfl
@[simp] theorem State.setEngine_redCells (s : State) (n : Nat) (x : Engine) : (s.setEngine n x).redCells = s.redCells := rfl
@[simp] theorem State.setEngine_l2tlb (s : State) (n : Nat) (x : Engine) : (s.setEngine n x).l2tlb = s.l2tlb := rfl
@[simp] theorem State.setEngine_ingressTlb (s : State) (n : Nat) (x : Engine) : (s.setEngine n x).ingressTlb = s.ingressTlb := rfl
@[simp] theorem State.setEngine_gens (s : State) (n : Nat) (x : Engine) : (s.setEngine n x).gens = s.gens := rfl
@[simp] theorem State.setEngine_invals (s : State) (n : Nat) (x : Engine) : (s.setEngine n x).invals = s.invals := rfl
@[simp] theorem State.setEngine_migrations (s : State) (n : Nat) (x : Engine) : (s.setEngine n x).migrations = s.migrations := rfl
@[simp] theorem State.setEngine_redirects (s : State) (n : Nat) (x : Engine) : (s.setEngine n x).redirects = s.redirects := rfl
@[simp] theorem State.setEngine_migStat (s : State) (n : Nat) (x : Engine) : (s.setEngine n x).migStat = s.migStat := rfl
@[simp] theorem State.setEngine_ingressPager (s : State) (n : Nat) (x : Engine) : (s.setEngine n x).ingressPager = s.ingressPager := rfl
@[simp] theorem State.setEngine_cues (s : State) (n : Nat) (x : Engine) : (s.setEngine n x).cues = s.cues := rfl
@[simp] theorem State.setEngine_hold (s : State) (n : Nat) (x : Engine) : (s.setEngine n x).hold = s.hold := rfl
@[simp] theorem State.setEngine_landed (s : State) (n : Nat) (x : Engine) : (s.setEngine n x).landed = s.landed := rfl
@[simp] theorem State.setEngine_failedCues (s : State) (n : Nat) (x : Engine) : (s.setEngine n x).failedCues = s.failedCues := rfl
@[simp] theorem State.setEngine_misses (s : State) (n : Nat) (x : Engine) : (s.setEngine n x).misses = s.misses := rfl
@[simp] theorem State.setEngine_brokenCopies (s : State) (n : Nat) (x : Engine) : (s.setEngine n x).brokenCopies = s.brokenCopies := rfl
@[simp] theorem State.setEngine_trunks (s : State) (n : Nat) (x : Engine) : (s.setEngine n x).trunks = s.trunks := rfl
@[simp] theorem State.setEngine_routes (s : State) (n : Nat) (x : Engine) : (s.setEngine n x).routes = s.routes := rfl
@[simp] theorem State.setEngine_slots (s : State) (n : Nat) (x : Engine) : (s.setEngine n x).slots = s.slots := rfl
@[simp] theorem State.setEngine_formers (s : State) (n : Nat) (x : Engine) : (s.setEngine n x).formers = s.formers := rfl
@[simp] theorem State.setEngine_roles (s : State) (n : Nat) (x : Engine) : (s.setEngine n x).roles = s.roles := rfl
@[simp] theorem State.setEngine_loads (s : State) (n : Nat) (x : Engine) : (s.setEngine n x).loads = s.loads := rfl
@[simp] theorem State.setEngine_nextLoad (s : State) (n : Nat) (x : Engine) : (s.setEngine n x).nextLoad = s.nextLoad := rfl
@[simp] theorem State.setEngine_nextRecast (s : State) (n : Nat) (x : Engine) : (s.setEngine n x).nextRecast = s.nextRecast := rfl
@[simp] theorem State.setEngine_orders (s : State) (n : Nat) (x : Engine) : (s.setEngine n x).orders = s.orders := rfl
@[simp] theorem State.setEngine_usedFrames (s : State) (n : Nat) (x : Engine) : (s.setEngine n x).usedFrames = s.usedFrames := rfl
@[simp] theorem State.setEngine_mapped (s : State) (n : Nat) (x : Engine) : (s.setEngine n x).mapped = s.mapped := rfl
@[simp] theorem State.setEngine_accepted (s : State) (n : Nat) (x : Engine) : (s.setEngine n x).accepted = s.accepted := rfl
@[simp] theorem State.setEngine_completed (s : State) (n : Nat) (x : Engine) : (s.setEngine n x).completed = s.completed := rfl
@[simp] theorem State.setEngine_fumarole (s : State) (n : Nat) (x : Engine) : (s.setEngine n x).fumarole = s.fumarole := rfl
@[simp] theorem State.setEngine_fumaroleSeq (s : State) (n : Nat) (x : Engine) : (s.setEngine n x).fumaroleSeq = s.fumaroleSeq := rfl
@[simp] theorem State.setEngine_refusals (s : State) (n : Nat) (x : Engine) : (s.setEngine n x).refusals = s.refusals := rfl
@[simp] theorem State.setEngine_netRefusals (s : State) (n : Nat) (x : Engine) : (s.setEngine n x).netRefusals = s.netRefusals := rfl
@[simp] theorem State.setEngine_injected (s : State) (n : Nat) (x : Engine) : (s.setEngine n x).injected = s.injected := rfl
@[simp] theorem State.setEngine_transitions (s : State) (n : Nat) (x : Engine) : (s.setEngine n x).transitions = s.transitions := rfl
@[simp] theorem State.setEngine_tests (s : State) (n : Nat) (x : Engine) : (s.setEngine n x).tests = s.tests := rfl
@[simp] theorem State.setEngine_spares (s : State) (n : Nat) (x : Engine) : (s.setEngine n x).spares = s.spares := rfl
@[simp] theorem State.setEngine_understudies (s : State) (n : Nat) (x : Engine) : (s.setEngine n x).understudies = s.understudies := rfl
@[simp] theorem State.setEngine_unusable (s : State) (n : Nat) (x : Engine) : (s.setEngine n x).unusable = s.unusable := rfl
@[simp] theorem State.setEngine_powerLimit (s : State) (n : Nat) (x : Engine) : (s.setEngine n x).powerLimit = s.powerLimit := rfl
@[simp] theorem State.setEngine_throttle (s : State) (n : Nat) (x : Engine) : (s.setEngine n x).throttle = s.throttle := rfl
@[simp] theorem State.setEngine_powerClear (s : State) (n : Nat) (x : Engine) : (s.setEngine n x).powerClear = s.powerClear := rfl
@[simp] theorem State.setEngine_flashA (s : State) (n : Nat) (x : Engine) : (s.setEngine n x).flashA = s.flashA := rfl
@[simp] theorem State.setEngine_flashB (s : State) (n : Nat) (x : Engine) : (s.setEngine n x).flashB = s.flashB := rfl
@[simp] theorem State.setEngine_store (s : State) (n : Nat) (x : Engine) : (s.setEngine n x).store = s.store := rfl
@[simp] theorem State.setEngine_resumeReq (s : State) (n : Nat) (x : Engine) : (s.setEngine n x).resumeReq = s.resumeReq := rfl
@[simp] theorem State.setEngine_hostMem (s : State) (n : Nat) (x : Engine) : (s.setEngine n x).hostMem = s.hostMem := rfl
@[simp] theorem State.setEngine_failedPkgs (s : State) (n : Nat) (x : Engine) : (s.setEngine n x).failedPkgs = s.failedPkgs := rfl
@[simp] theorem State.setEngine_peerWords (s : State) (n : Nat) (x : Engine) : (s.setEngine n x).peerWords = s.peerWords := rfl

@[simp] theorem State.setGroup_schedule (s : State) (g : Nat) (x : Group) : (s.setGroup g x).schedule = s.schedule := rfl
@[simp] theorem State.setGroup_happenings (s : State) (g : Nat) (x : Group) : (s.setGroup g x).happenings = s.happenings := rfl
@[simp] theorem State.setGroup_cur (s : State) (g : Nat) (x : Group) : (s.setGroup g x).cur = s.cur := rfl
@[simp] theorem State.setGroup_tick (s : State) (g : Nat) (x : Group) : (s.setGroup g x).tick = s.tick := rfl
@[simp] theorem State.setGroup_nextId (s : State) (g : Nat) (x : Group) : (s.setGroup g x).nextId = s.nextId := rfl
@[simp] theorem State.setGroup_faults (s : State) (g : Nat) (x : Group) : (s.setGroup g x).faults = s.faults := rfl
@[simp] theorem State.setGroup_egress (s : State) (g : Nat) (x : Group) : (s.setGroup g x).egress = s.egress := rfl
@[simp] theorem State.setGroup_now (s : State) (g : Nat) (x : Group) : (s.setGroup g x).now = s.now := rfl
@[simp] theorem State.setGroup_pkg (s : State) (g : Nat) (x : Group) : (s.setGroup g x).pkg = s.pkg := rfl
@[simp] theorem State.setGroup_boot (s : State) (g : Nat) (x : Group) : (s.setGroup g x).boot = s.boot := rfl
@[simp] theorem State.setGroup_mem (s : State) (g : Nat) (x : Group) : (s.setGroup g x).mem = s.mem := rfl
@[simp] theorem State.setGroup_dev (s : State) (g : Nat) (x : Group) : (s.setGroup g x).dev = s.dev := rfl
@[simp] theorem State.setGroup_cores (s : State) (g : Nat) (x : Group) : (s.setGroup g x).cores = s.cores := rfl
@[simp] theorem State.setGroup_queues (s : State) (g : Nat) (x : Group) : (s.setGroup g x).queues = s.queues := rfl
@[simp] theorem State.setGroup_tensors (s : State) (g : Nat) (x : Group) : (s.setGroup g x).tensors = s.tensors := rfl
@[simp] theorem State.setGroup_ensembles (s : State) (g : Nat) (x : Group) : (s.setGroup g x).ensembles = s.ensembles := rfl
@[simp] theorem State.setGroup_engines (s : State) (g : Nat) (x : Group) : (s.setGroup g x).engines = s.engines := rfl
@[simp] theorem State.setGroup_redCells (s : State) (g : Nat) (x : Group) : (s.setGroup g x).redCells = s.redCells := rfl
@[simp] theorem State.setGroup_l2tlb (s : State) (g : Nat) (x : Group) : (s.setGroup g x).l2tlb = s.l2tlb := rfl
@[simp] theorem State.setGroup_ingressTlb (s : State) (g : Nat) (x : Group) : (s.setGroup g x).ingressTlb = s.ingressTlb := rfl
@[simp] theorem State.setGroup_gens (s : State) (g : Nat) (x : Group) : (s.setGroup g x).gens = s.gens := rfl
@[simp] theorem State.setGroup_invals (s : State) (g : Nat) (x : Group) : (s.setGroup g x).invals = s.invals := rfl
@[simp] theorem State.setGroup_migrations (s : State) (g : Nat) (x : Group) : (s.setGroup g x).migrations = s.migrations := rfl
@[simp] theorem State.setGroup_redirects (s : State) (g : Nat) (x : Group) : (s.setGroup g x).redirects = s.redirects := rfl
@[simp] theorem State.setGroup_migStat (s : State) (g : Nat) (x : Group) : (s.setGroup g x).migStat = s.migStat := rfl
@[simp] theorem State.setGroup_ingressPager (s : State) (g : Nat) (x : Group) : (s.setGroup g x).ingressPager = s.ingressPager := rfl
@[simp] theorem State.setGroup_cues (s : State) (g : Nat) (x : Group) : (s.setGroup g x).cues = s.cues := rfl
@[simp] theorem State.setGroup_hold (s : State) (g : Nat) (x : Group) : (s.setGroup g x).hold = s.hold := rfl
@[simp] theorem State.setGroup_landed (s : State) (g : Nat) (x : Group) : (s.setGroup g x).landed = s.landed := rfl
@[simp] theorem State.setGroup_failedCues (s : State) (g : Nat) (x : Group) : (s.setGroup g x).failedCues = s.failedCues := rfl
@[simp] theorem State.setGroup_misses (s : State) (g : Nat) (x : Group) : (s.setGroup g x).misses = s.misses := rfl
@[simp] theorem State.setGroup_brokenCopies (s : State) (g : Nat) (x : Group) : (s.setGroup g x).brokenCopies = s.brokenCopies := rfl
@[simp] theorem State.setGroup_trunks (s : State) (g : Nat) (x : Group) : (s.setGroup g x).trunks = s.trunks := rfl
@[simp] theorem State.setGroup_routes (s : State) (g : Nat) (x : Group) : (s.setGroup g x).routes = s.routes := rfl
@[simp] theorem State.setGroup_slots (s : State) (g : Nat) (x : Group) : (s.setGroup g x).slots = s.slots := rfl
@[simp] theorem State.setGroup_formers (s : State) (g : Nat) (x : Group) : (s.setGroup g x).formers = s.formers := rfl
@[simp] theorem State.setGroup_roles (s : State) (g : Nat) (x : Group) : (s.setGroup g x).roles = s.roles := rfl
@[simp] theorem State.setGroup_loads (s : State) (g : Nat) (x : Group) : (s.setGroup g x).loads = s.loads := rfl
@[simp] theorem State.setGroup_nextLoad (s : State) (g : Nat) (x : Group) : (s.setGroup g x).nextLoad = s.nextLoad := rfl
@[simp] theorem State.setGroup_nextRecast (s : State) (g : Nat) (x : Group) : (s.setGroup g x).nextRecast = s.nextRecast := rfl
@[simp] theorem State.setGroup_orders (s : State) (g : Nat) (x : Group) : (s.setGroup g x).orders = s.orders := rfl
@[simp] theorem State.setGroup_usedFrames (s : State) (g : Nat) (x : Group) : (s.setGroup g x).usedFrames = s.usedFrames := rfl
@[simp] theorem State.setGroup_mapped (s : State) (g : Nat) (x : Group) : (s.setGroup g x).mapped = s.mapped := rfl
@[simp] theorem State.setGroup_accepted (s : State) (g : Nat) (x : Group) : (s.setGroup g x).accepted = s.accepted := rfl
@[simp] theorem State.setGroup_completed (s : State) (g : Nat) (x : Group) : (s.setGroup g x).completed = s.completed := rfl
@[simp] theorem State.setGroup_fumarole (s : State) (g : Nat) (x : Group) : (s.setGroup g x).fumarole = s.fumarole := rfl
@[simp] theorem State.setGroup_fumaroleSeq (s : State) (g : Nat) (x : Group) : (s.setGroup g x).fumaroleSeq = s.fumaroleSeq := rfl
@[simp] theorem State.setGroup_refusals (s : State) (g : Nat) (x : Group) : (s.setGroup g x).refusals = s.refusals := rfl
@[simp] theorem State.setGroup_netRefusals (s : State) (g : Nat) (x : Group) : (s.setGroup g x).netRefusals = s.netRefusals := rfl
@[simp] theorem State.setGroup_injected (s : State) (g : Nat) (x : Group) : (s.setGroup g x).injected = s.injected := rfl
@[simp] theorem State.setGroup_transitions (s : State) (g : Nat) (x : Group) : (s.setGroup g x).transitions = s.transitions := rfl
@[simp] theorem State.setGroup_tests (s : State) (g : Nat) (x : Group) : (s.setGroup g x).tests = s.tests := rfl
@[simp] theorem State.setGroup_spares (s : State) (g : Nat) (x : Group) : (s.setGroup g x).spares = s.spares := rfl
@[simp] theorem State.setGroup_understudies (s : State) (g : Nat) (x : Group) : (s.setGroup g x).understudies = s.understudies := rfl
@[simp] theorem State.setGroup_unusable (s : State) (g : Nat) (x : Group) : (s.setGroup g x).unusable = s.unusable := rfl
@[simp] theorem State.setGroup_powerLimit (s : State) (g : Nat) (x : Group) : (s.setGroup g x).powerLimit = s.powerLimit := rfl
@[simp] theorem State.setGroup_throttle (s : State) (g : Nat) (x : Group) : (s.setGroup g x).throttle = s.throttle := rfl
@[simp] theorem State.setGroup_powerClear (s : State) (g : Nat) (x : Group) : (s.setGroup g x).powerClear = s.powerClear := rfl
@[simp] theorem State.setGroup_flashA (s : State) (g : Nat) (x : Group) : (s.setGroup g x).flashA = s.flashA := rfl
@[simp] theorem State.setGroup_flashB (s : State) (g : Nat) (x : Group) : (s.setGroup g x).flashB = s.flashB := rfl
@[simp] theorem State.setGroup_store (s : State) (g : Nat) (x : Group) : (s.setGroup g x).store = s.store := rfl
@[simp] theorem State.setGroup_resumeReq (s : State) (g : Nat) (x : Group) : (s.setGroup g x).resumeReq = s.resumeReq := rfl
@[simp] theorem State.setGroup_hostMem (s : State) (g : Nat) (x : Group) : (s.setGroup g x).hostMem = s.hostMem := rfl
@[simp] theorem State.setGroup_failedPkgs (s : State) (g : Nat) (x : Group) : (s.setGroup g x).failedPkgs = s.failedPkgs := rfl
@[simp] theorem State.setGroup_peerWords (s : State) (g : Nat) (x : Group) : (s.setGroup g x).peerWords = s.peerWords := rfl

@[simp] theorem State.setRole_schedule (s : State) (r : Nat) (x : Role) : (s.setRole r x).schedule = s.schedule := rfl
@[simp] theorem State.setRole_happenings (s : State) (r : Nat) (x : Role) : (s.setRole r x).happenings = s.happenings := rfl
@[simp] theorem State.setRole_cur (s : State) (r : Nat) (x : Role) : (s.setRole r x).cur = s.cur := rfl
@[simp] theorem State.setRole_tick (s : State) (r : Nat) (x : Role) : (s.setRole r x).tick = s.tick := rfl
@[simp] theorem State.setRole_nextId (s : State) (r : Nat) (x : Role) : (s.setRole r x).nextId = s.nextId := rfl
@[simp] theorem State.setRole_faults (s : State) (r : Nat) (x : Role) : (s.setRole r x).faults = s.faults := rfl
@[simp] theorem State.setRole_egress (s : State) (r : Nat) (x : Role) : (s.setRole r x).egress = s.egress := rfl
@[simp] theorem State.setRole_now (s : State) (r : Nat) (x : Role) : (s.setRole r x).now = s.now := rfl
@[simp] theorem State.setRole_pkg (s : State) (r : Nat) (x : Role) : (s.setRole r x).pkg = s.pkg := rfl
@[simp] theorem State.setRole_boot (s : State) (r : Nat) (x : Role) : (s.setRole r x).boot = s.boot := rfl
@[simp] theorem State.setRole_mem (s : State) (r : Nat) (x : Role) : (s.setRole r x).mem = s.mem := rfl
@[simp] theorem State.setRole_dev (s : State) (r : Nat) (x : Role) : (s.setRole r x).dev = s.dev := rfl
@[simp] theorem State.setRole_cores (s : State) (r : Nat) (x : Role) : (s.setRole r x).cores = s.cores := rfl
@[simp] theorem State.setRole_queues (s : State) (r : Nat) (x : Role) : (s.setRole r x).queues = s.queues := rfl
@[simp] theorem State.setRole_tensors (s : State) (r : Nat) (x : Role) : (s.setRole r x).tensors = s.tensors := rfl
@[simp] theorem State.setRole_ensembles (s : State) (r : Nat) (x : Role) : (s.setRole r x).ensembles = s.ensembles := rfl
@[simp] theorem State.setRole_engines (s : State) (r : Nat) (x : Role) : (s.setRole r x).engines = s.engines := rfl
@[simp] theorem State.setRole_groups (s : State) (r : Nat) (x : Role) : (s.setRole r x).groups = s.groups := rfl
@[simp] theorem State.setRole_redCells (s : State) (r : Nat) (x : Role) : (s.setRole r x).redCells = s.redCells := rfl
@[simp] theorem State.setRole_l2tlb (s : State) (r : Nat) (x : Role) : (s.setRole r x).l2tlb = s.l2tlb := rfl
@[simp] theorem State.setRole_ingressTlb (s : State) (r : Nat) (x : Role) : (s.setRole r x).ingressTlb = s.ingressTlb := rfl
@[simp] theorem State.setRole_gens (s : State) (r : Nat) (x : Role) : (s.setRole r x).gens = s.gens := rfl
@[simp] theorem State.setRole_invals (s : State) (r : Nat) (x : Role) : (s.setRole r x).invals = s.invals := rfl
@[simp] theorem State.setRole_migrations (s : State) (r : Nat) (x : Role) : (s.setRole r x).migrations = s.migrations := rfl
@[simp] theorem State.setRole_redirects (s : State) (r : Nat) (x : Role) : (s.setRole r x).redirects = s.redirects := rfl
@[simp] theorem State.setRole_migStat (s : State) (r : Nat) (x : Role) : (s.setRole r x).migStat = s.migStat := rfl
@[simp] theorem State.setRole_ingressPager (s : State) (r : Nat) (x : Role) : (s.setRole r x).ingressPager = s.ingressPager := rfl
@[simp] theorem State.setRole_cues (s : State) (r : Nat) (x : Role) : (s.setRole r x).cues = s.cues := rfl
@[simp] theorem State.setRole_hold (s : State) (r : Nat) (x : Role) : (s.setRole r x).hold = s.hold := rfl
@[simp] theorem State.setRole_landed (s : State) (r : Nat) (x : Role) : (s.setRole r x).landed = s.landed := rfl
@[simp] theorem State.setRole_failedCues (s : State) (r : Nat) (x : Role) : (s.setRole r x).failedCues = s.failedCues := rfl
@[simp] theorem State.setRole_misses (s : State) (r : Nat) (x : Role) : (s.setRole r x).misses = s.misses := rfl
@[simp] theorem State.setRole_brokenCopies (s : State) (r : Nat) (x : Role) : (s.setRole r x).brokenCopies = s.brokenCopies := rfl
@[simp] theorem State.setRole_trunks (s : State) (r : Nat) (x : Role) : (s.setRole r x).trunks = s.trunks := rfl
@[simp] theorem State.setRole_routes (s : State) (r : Nat) (x : Role) : (s.setRole r x).routes = s.routes := rfl
@[simp] theorem State.setRole_slots (s : State) (r : Nat) (x : Role) : (s.setRole r x).slots = s.slots := rfl
@[simp] theorem State.setRole_formers (s : State) (r : Nat) (x : Role) : (s.setRole r x).formers = s.formers := rfl
@[simp] theorem State.setRole_loads (s : State) (r : Nat) (x : Role) : (s.setRole r x).loads = s.loads := rfl
@[simp] theorem State.setRole_nextLoad (s : State) (r : Nat) (x : Role) : (s.setRole r x).nextLoad = s.nextLoad := rfl
@[simp] theorem State.setRole_nextRecast (s : State) (r : Nat) (x : Role) : (s.setRole r x).nextRecast = s.nextRecast := rfl
@[simp] theorem State.setRole_orders (s : State) (r : Nat) (x : Role) : (s.setRole r x).orders = s.orders := rfl
@[simp] theorem State.setRole_usedFrames (s : State) (r : Nat) (x : Role) : (s.setRole r x).usedFrames = s.usedFrames := rfl
@[simp] theorem State.setRole_mapped (s : State) (r : Nat) (x : Role) : (s.setRole r x).mapped = s.mapped := rfl
@[simp] theorem State.setRole_accepted (s : State) (r : Nat) (x : Role) : (s.setRole r x).accepted = s.accepted := rfl
@[simp] theorem State.setRole_completed (s : State) (r : Nat) (x : Role) : (s.setRole r x).completed = s.completed := rfl
@[simp] theorem State.setRole_fumarole (s : State) (r : Nat) (x : Role) : (s.setRole r x).fumarole = s.fumarole := rfl
@[simp] theorem State.setRole_fumaroleSeq (s : State) (r : Nat) (x : Role) : (s.setRole r x).fumaroleSeq = s.fumaroleSeq := rfl
@[simp] theorem State.setRole_refusals (s : State) (r : Nat) (x : Role) : (s.setRole r x).refusals = s.refusals := rfl
@[simp] theorem State.setRole_netRefusals (s : State) (r : Nat) (x : Role) : (s.setRole r x).netRefusals = s.netRefusals := rfl
@[simp] theorem State.setRole_injected (s : State) (r : Nat) (x : Role) : (s.setRole r x).injected = s.injected := rfl
@[simp] theorem State.setRole_transitions (s : State) (r : Nat) (x : Role) : (s.setRole r x).transitions = s.transitions := rfl
@[simp] theorem State.setRole_tests (s : State) (r : Nat) (x : Role) : (s.setRole r x).tests = s.tests := rfl
@[simp] theorem State.setRole_spares (s : State) (r : Nat) (x : Role) : (s.setRole r x).spares = s.spares := rfl
@[simp] theorem State.setRole_understudies (s : State) (r : Nat) (x : Role) : (s.setRole r x).understudies = s.understudies := rfl
@[simp] theorem State.setRole_unusable (s : State) (r : Nat) (x : Role) : (s.setRole r x).unusable = s.unusable := rfl
@[simp] theorem State.setRole_powerLimit (s : State) (r : Nat) (x : Role) : (s.setRole r x).powerLimit = s.powerLimit := rfl
@[simp] theorem State.setRole_throttle (s : State) (r : Nat) (x : Role) : (s.setRole r x).throttle = s.throttle := rfl
@[simp] theorem State.setRole_powerClear (s : State) (r : Nat) (x : Role) : (s.setRole r x).powerClear = s.powerClear := rfl
@[simp] theorem State.setRole_flashA (s : State) (r : Nat) (x : Role) : (s.setRole r x).flashA = s.flashA := rfl
@[simp] theorem State.setRole_flashB (s : State) (r : Nat) (x : Role) : (s.setRole r x).flashB = s.flashB := rfl
@[simp] theorem State.setRole_store (s : State) (r : Nat) (x : Role) : (s.setRole r x).store = s.store := rfl
@[simp] theorem State.setRole_resumeReq (s : State) (r : Nat) (x : Role) : (s.setRole r x).resumeReq = s.resumeReq := rfl
@[simp] theorem State.setRole_hostMem (s : State) (r : Nat) (x : Role) : (s.setRole r x).hostMem = s.hostMem := rfl
@[simp] theorem State.setRole_failedPkgs (s : State) (r : Nat) (x : Role) : (s.setRole r x).failedPkgs = s.failedPkgs := rfl
@[simp] theorem State.setRole_peerWords (s : State) (r : Nat) (x : Role) : (s.setRole r x).peerWords = s.peerWords := rfl

@[simp] theorem State.setFormer_schedule (s : State) (b : Nat) (x : Former) : (s.setFormer b x).schedule = s.schedule := rfl
@[simp] theorem State.setFormer_happenings (s : State) (b : Nat) (x : Former) : (s.setFormer b x).happenings = s.happenings := rfl
@[simp] theorem State.setFormer_cur (s : State) (b : Nat) (x : Former) : (s.setFormer b x).cur = s.cur := rfl
@[simp] theorem State.setFormer_tick (s : State) (b : Nat) (x : Former) : (s.setFormer b x).tick = s.tick := rfl
@[simp] theorem State.setFormer_nextId (s : State) (b : Nat) (x : Former) : (s.setFormer b x).nextId = s.nextId := rfl
@[simp] theorem State.setFormer_faults (s : State) (b : Nat) (x : Former) : (s.setFormer b x).faults = s.faults := rfl
@[simp] theorem State.setFormer_egress (s : State) (b : Nat) (x : Former) : (s.setFormer b x).egress = s.egress := rfl
@[simp] theorem State.setFormer_now (s : State) (b : Nat) (x : Former) : (s.setFormer b x).now = s.now := rfl
@[simp] theorem State.setFormer_pkg (s : State) (b : Nat) (x : Former) : (s.setFormer b x).pkg = s.pkg := rfl
@[simp] theorem State.setFormer_boot (s : State) (b : Nat) (x : Former) : (s.setFormer b x).boot = s.boot := rfl
@[simp] theorem State.setFormer_mem (s : State) (b : Nat) (x : Former) : (s.setFormer b x).mem = s.mem := rfl
@[simp] theorem State.setFormer_dev (s : State) (b : Nat) (x : Former) : (s.setFormer b x).dev = s.dev := rfl
@[simp] theorem State.setFormer_cores (s : State) (b : Nat) (x : Former) : (s.setFormer b x).cores = s.cores := rfl
@[simp] theorem State.setFormer_queues (s : State) (b : Nat) (x : Former) : (s.setFormer b x).queues = s.queues := rfl
@[simp] theorem State.setFormer_tensors (s : State) (b : Nat) (x : Former) : (s.setFormer b x).tensors = s.tensors := rfl
@[simp] theorem State.setFormer_ensembles (s : State) (b : Nat) (x : Former) : (s.setFormer b x).ensembles = s.ensembles := rfl
@[simp] theorem State.setFormer_engines (s : State) (b : Nat) (x : Former) : (s.setFormer b x).engines = s.engines := rfl
@[simp] theorem State.setFormer_groups (s : State) (b : Nat) (x : Former) : (s.setFormer b x).groups = s.groups := rfl
@[simp] theorem State.setFormer_redCells (s : State) (b : Nat) (x : Former) : (s.setFormer b x).redCells = s.redCells := rfl
@[simp] theorem State.setFormer_l2tlb (s : State) (b : Nat) (x : Former) : (s.setFormer b x).l2tlb = s.l2tlb := rfl
@[simp] theorem State.setFormer_ingressTlb (s : State) (b : Nat) (x : Former) : (s.setFormer b x).ingressTlb = s.ingressTlb := rfl
@[simp] theorem State.setFormer_gens (s : State) (b : Nat) (x : Former) : (s.setFormer b x).gens = s.gens := rfl
@[simp] theorem State.setFormer_invals (s : State) (b : Nat) (x : Former) : (s.setFormer b x).invals = s.invals := rfl
@[simp] theorem State.setFormer_migrations (s : State) (b : Nat) (x : Former) : (s.setFormer b x).migrations = s.migrations := rfl
@[simp] theorem State.setFormer_redirects (s : State) (b : Nat) (x : Former) : (s.setFormer b x).redirects = s.redirects := rfl
@[simp] theorem State.setFormer_migStat (s : State) (b : Nat) (x : Former) : (s.setFormer b x).migStat = s.migStat := rfl
@[simp] theorem State.setFormer_ingressPager (s : State) (b : Nat) (x : Former) : (s.setFormer b x).ingressPager = s.ingressPager := rfl
@[simp] theorem State.setFormer_cues (s : State) (b : Nat) (x : Former) : (s.setFormer b x).cues = s.cues := rfl
@[simp] theorem State.setFormer_hold (s : State) (b : Nat) (x : Former) : (s.setFormer b x).hold = s.hold := rfl
@[simp] theorem State.setFormer_landed (s : State) (b : Nat) (x : Former) : (s.setFormer b x).landed = s.landed := rfl
@[simp] theorem State.setFormer_failedCues (s : State) (b : Nat) (x : Former) : (s.setFormer b x).failedCues = s.failedCues := rfl
@[simp] theorem State.setFormer_misses (s : State) (b : Nat) (x : Former) : (s.setFormer b x).misses = s.misses := rfl
@[simp] theorem State.setFormer_brokenCopies (s : State) (b : Nat) (x : Former) : (s.setFormer b x).brokenCopies = s.brokenCopies := rfl
@[simp] theorem State.setFormer_trunks (s : State) (b : Nat) (x : Former) : (s.setFormer b x).trunks = s.trunks := rfl
@[simp] theorem State.setFormer_routes (s : State) (b : Nat) (x : Former) : (s.setFormer b x).routes = s.routes := rfl
@[simp] theorem State.setFormer_slots (s : State) (b : Nat) (x : Former) : (s.setFormer b x).slots = s.slots := rfl
@[simp] theorem State.setFormer_roles (s : State) (b : Nat) (x : Former) : (s.setFormer b x).roles = s.roles := rfl
@[simp] theorem State.setFormer_loads (s : State) (b : Nat) (x : Former) : (s.setFormer b x).loads = s.loads := rfl
@[simp] theorem State.setFormer_nextLoad (s : State) (b : Nat) (x : Former) : (s.setFormer b x).nextLoad = s.nextLoad := rfl
@[simp] theorem State.setFormer_nextRecast (s : State) (b : Nat) (x : Former) : (s.setFormer b x).nextRecast = s.nextRecast := rfl
@[simp] theorem State.setFormer_orders (s : State) (b : Nat) (x : Former) : (s.setFormer b x).orders = s.orders := rfl
@[simp] theorem State.setFormer_usedFrames (s : State) (b : Nat) (x : Former) : (s.setFormer b x).usedFrames = s.usedFrames := rfl
@[simp] theorem State.setFormer_mapped (s : State) (b : Nat) (x : Former) : (s.setFormer b x).mapped = s.mapped := rfl
@[simp] theorem State.setFormer_accepted (s : State) (b : Nat) (x : Former) : (s.setFormer b x).accepted = s.accepted := rfl
@[simp] theorem State.setFormer_completed (s : State) (b : Nat) (x : Former) : (s.setFormer b x).completed = s.completed := rfl
@[simp] theorem State.setFormer_fumarole (s : State) (b : Nat) (x : Former) : (s.setFormer b x).fumarole = s.fumarole := rfl
@[simp] theorem State.setFormer_fumaroleSeq (s : State) (b : Nat) (x : Former) : (s.setFormer b x).fumaroleSeq = s.fumaroleSeq := rfl
@[simp] theorem State.setFormer_refusals (s : State) (b : Nat) (x : Former) : (s.setFormer b x).refusals = s.refusals := rfl
@[simp] theorem State.setFormer_netRefusals (s : State) (b : Nat) (x : Former) : (s.setFormer b x).netRefusals = s.netRefusals := rfl
@[simp] theorem State.setFormer_injected (s : State) (b : Nat) (x : Former) : (s.setFormer b x).injected = s.injected := rfl
@[simp] theorem State.setFormer_transitions (s : State) (b : Nat) (x : Former) : (s.setFormer b x).transitions = s.transitions := rfl
@[simp] theorem State.setFormer_tests (s : State) (b : Nat) (x : Former) : (s.setFormer b x).tests = s.tests := rfl
@[simp] theorem State.setFormer_spares (s : State) (b : Nat) (x : Former) : (s.setFormer b x).spares = s.spares := rfl
@[simp] theorem State.setFormer_understudies (s : State) (b : Nat) (x : Former) : (s.setFormer b x).understudies = s.understudies := rfl
@[simp] theorem State.setFormer_unusable (s : State) (b : Nat) (x : Former) : (s.setFormer b x).unusable = s.unusable := rfl
@[simp] theorem State.setFormer_powerLimit (s : State) (b : Nat) (x : Former) : (s.setFormer b x).powerLimit = s.powerLimit := rfl
@[simp] theorem State.setFormer_throttle (s : State) (b : Nat) (x : Former) : (s.setFormer b x).throttle = s.throttle := rfl
@[simp] theorem State.setFormer_powerClear (s : State) (b : Nat) (x : Former) : (s.setFormer b x).powerClear = s.powerClear := rfl
@[simp] theorem State.setFormer_flashA (s : State) (b : Nat) (x : Former) : (s.setFormer b x).flashA = s.flashA := rfl
@[simp] theorem State.setFormer_flashB (s : State) (b : Nat) (x : Former) : (s.setFormer b x).flashB = s.flashB := rfl
@[simp] theorem State.setFormer_store (s : State) (b : Nat) (x : Former) : (s.setFormer b x).store = s.store := rfl
@[simp] theorem State.setFormer_resumeReq (s : State) (b : Nat) (x : Former) : (s.setFormer b x).resumeReq = s.resumeReq := rfl
@[simp] theorem State.setFormer_hostMem (s : State) (b : Nat) (x : Former) : (s.setFormer b x).hostMem = s.hostMem := rfl
@[simp] theorem State.setFormer_failedPkgs (s : State) (b : Nat) (x : Former) : (s.setFormer b x).failedPkgs = s.failedPkgs := rfl
@[simp] theorem State.setFormer_peerWords (s : State) (b : Nat) (x : Former) : (s.setFormer b x).peerWords = s.peerWords := rfl

@[simp] theorem State.setTrunk_schedule (s : State) (t : Nat) (x : Trunk) : (s.setTrunk t x).schedule = s.schedule := rfl
@[simp] theorem State.setTrunk_happenings (s : State) (t : Nat) (x : Trunk) : (s.setTrunk t x).happenings = s.happenings := rfl
@[simp] theorem State.setTrunk_cur (s : State) (t : Nat) (x : Trunk) : (s.setTrunk t x).cur = s.cur := rfl
@[simp] theorem State.setTrunk_tick (s : State) (t : Nat) (x : Trunk) : (s.setTrunk t x).tick = s.tick := rfl
@[simp] theorem State.setTrunk_nextId (s : State) (t : Nat) (x : Trunk) : (s.setTrunk t x).nextId = s.nextId := rfl
@[simp] theorem State.setTrunk_faults (s : State) (t : Nat) (x : Trunk) : (s.setTrunk t x).faults = s.faults := rfl
@[simp] theorem State.setTrunk_egress (s : State) (t : Nat) (x : Trunk) : (s.setTrunk t x).egress = s.egress := rfl
@[simp] theorem State.setTrunk_now (s : State) (t : Nat) (x : Trunk) : (s.setTrunk t x).now = s.now := rfl
@[simp] theorem State.setTrunk_pkg (s : State) (t : Nat) (x : Trunk) : (s.setTrunk t x).pkg = s.pkg := rfl
@[simp] theorem State.setTrunk_boot (s : State) (t : Nat) (x : Trunk) : (s.setTrunk t x).boot = s.boot := rfl
@[simp] theorem State.setTrunk_mem (s : State) (t : Nat) (x : Trunk) : (s.setTrunk t x).mem = s.mem := rfl
@[simp] theorem State.setTrunk_dev (s : State) (t : Nat) (x : Trunk) : (s.setTrunk t x).dev = s.dev := rfl
@[simp] theorem State.setTrunk_cores (s : State) (t : Nat) (x : Trunk) : (s.setTrunk t x).cores = s.cores := rfl
@[simp] theorem State.setTrunk_queues (s : State) (t : Nat) (x : Trunk) : (s.setTrunk t x).queues = s.queues := rfl
@[simp] theorem State.setTrunk_tensors (s : State) (t : Nat) (x : Trunk) : (s.setTrunk t x).tensors = s.tensors := rfl
@[simp] theorem State.setTrunk_ensembles (s : State) (t : Nat) (x : Trunk) : (s.setTrunk t x).ensembles = s.ensembles := rfl
@[simp] theorem State.setTrunk_engines (s : State) (t : Nat) (x : Trunk) : (s.setTrunk t x).engines = s.engines := rfl
@[simp] theorem State.setTrunk_groups (s : State) (t : Nat) (x : Trunk) : (s.setTrunk t x).groups = s.groups := rfl
@[simp] theorem State.setTrunk_redCells (s : State) (t : Nat) (x : Trunk) : (s.setTrunk t x).redCells = s.redCells := rfl
@[simp] theorem State.setTrunk_l2tlb (s : State) (t : Nat) (x : Trunk) : (s.setTrunk t x).l2tlb = s.l2tlb := rfl
@[simp] theorem State.setTrunk_ingressTlb (s : State) (t : Nat) (x : Trunk) : (s.setTrunk t x).ingressTlb = s.ingressTlb := rfl
@[simp] theorem State.setTrunk_gens (s : State) (t : Nat) (x : Trunk) : (s.setTrunk t x).gens = s.gens := rfl
@[simp] theorem State.setTrunk_invals (s : State) (t : Nat) (x : Trunk) : (s.setTrunk t x).invals = s.invals := rfl
@[simp] theorem State.setTrunk_migrations (s : State) (t : Nat) (x : Trunk) : (s.setTrunk t x).migrations = s.migrations := rfl
@[simp] theorem State.setTrunk_redirects (s : State) (t : Nat) (x : Trunk) : (s.setTrunk t x).redirects = s.redirects := rfl
@[simp] theorem State.setTrunk_migStat (s : State) (t : Nat) (x : Trunk) : (s.setTrunk t x).migStat = s.migStat := rfl
@[simp] theorem State.setTrunk_ingressPager (s : State) (t : Nat) (x : Trunk) : (s.setTrunk t x).ingressPager = s.ingressPager := rfl
@[simp] theorem State.setTrunk_cues (s : State) (t : Nat) (x : Trunk) : (s.setTrunk t x).cues = s.cues := rfl
@[simp] theorem State.setTrunk_hold (s : State) (t : Nat) (x : Trunk) : (s.setTrunk t x).hold = s.hold := rfl
@[simp] theorem State.setTrunk_landed (s : State) (t : Nat) (x : Trunk) : (s.setTrunk t x).landed = s.landed := rfl
@[simp] theorem State.setTrunk_failedCues (s : State) (t : Nat) (x : Trunk) : (s.setTrunk t x).failedCues = s.failedCues := rfl
@[simp] theorem State.setTrunk_misses (s : State) (t : Nat) (x : Trunk) : (s.setTrunk t x).misses = s.misses := rfl
@[simp] theorem State.setTrunk_brokenCopies (s : State) (t : Nat) (x : Trunk) : (s.setTrunk t x).brokenCopies = s.brokenCopies := rfl
@[simp] theorem State.setTrunk_routes (s : State) (t : Nat) (x : Trunk) : (s.setTrunk t x).routes = s.routes := rfl
@[simp] theorem State.setTrunk_slots (s : State) (t : Nat) (x : Trunk) : (s.setTrunk t x).slots = s.slots := rfl
@[simp] theorem State.setTrunk_formers (s : State) (t : Nat) (x : Trunk) : (s.setTrunk t x).formers = s.formers := rfl
@[simp] theorem State.setTrunk_roles (s : State) (t : Nat) (x : Trunk) : (s.setTrunk t x).roles = s.roles := rfl
@[simp] theorem State.setTrunk_loads (s : State) (t : Nat) (x : Trunk) : (s.setTrunk t x).loads = s.loads := rfl
@[simp] theorem State.setTrunk_nextLoad (s : State) (t : Nat) (x : Trunk) : (s.setTrunk t x).nextLoad = s.nextLoad := rfl
@[simp] theorem State.setTrunk_nextRecast (s : State) (t : Nat) (x : Trunk) : (s.setTrunk t x).nextRecast = s.nextRecast := rfl
@[simp] theorem State.setTrunk_orders (s : State) (t : Nat) (x : Trunk) : (s.setTrunk t x).orders = s.orders := rfl
@[simp] theorem State.setTrunk_usedFrames (s : State) (t : Nat) (x : Trunk) : (s.setTrunk t x).usedFrames = s.usedFrames := rfl
@[simp] theorem State.setTrunk_mapped (s : State) (t : Nat) (x : Trunk) : (s.setTrunk t x).mapped = s.mapped := rfl
@[simp] theorem State.setTrunk_accepted (s : State) (t : Nat) (x : Trunk) : (s.setTrunk t x).accepted = s.accepted := rfl
@[simp] theorem State.setTrunk_completed (s : State) (t : Nat) (x : Trunk) : (s.setTrunk t x).completed = s.completed := rfl
@[simp] theorem State.setTrunk_fumarole (s : State) (t : Nat) (x : Trunk) : (s.setTrunk t x).fumarole = s.fumarole := rfl
@[simp] theorem State.setTrunk_fumaroleSeq (s : State) (t : Nat) (x : Trunk) : (s.setTrunk t x).fumaroleSeq = s.fumaroleSeq := rfl
@[simp] theorem State.setTrunk_refusals (s : State) (t : Nat) (x : Trunk) : (s.setTrunk t x).refusals = s.refusals := rfl
@[simp] theorem State.setTrunk_netRefusals (s : State) (t : Nat) (x : Trunk) : (s.setTrunk t x).netRefusals = s.netRefusals := rfl
@[simp] theorem State.setTrunk_injected (s : State) (t : Nat) (x : Trunk) : (s.setTrunk t x).injected = s.injected := rfl
@[simp] theorem State.setTrunk_transitions (s : State) (t : Nat) (x : Trunk) : (s.setTrunk t x).transitions = s.transitions := rfl
@[simp] theorem State.setTrunk_tests (s : State) (t : Nat) (x : Trunk) : (s.setTrunk t x).tests = s.tests := rfl
@[simp] theorem State.setTrunk_spares (s : State) (t : Nat) (x : Trunk) : (s.setTrunk t x).spares = s.spares := rfl
@[simp] theorem State.setTrunk_understudies (s : State) (t : Nat) (x : Trunk) : (s.setTrunk t x).understudies = s.understudies := rfl
@[simp] theorem State.setTrunk_unusable (s : State) (t : Nat) (x : Trunk) : (s.setTrunk t x).unusable = s.unusable := rfl
@[simp] theorem State.setTrunk_powerLimit (s : State) (t : Nat) (x : Trunk) : (s.setTrunk t x).powerLimit = s.powerLimit := rfl
@[simp] theorem State.setTrunk_throttle (s : State) (t : Nat) (x : Trunk) : (s.setTrunk t x).throttle = s.throttle := rfl
@[simp] theorem State.setTrunk_powerClear (s : State) (t : Nat) (x : Trunk) : (s.setTrunk t x).powerClear = s.powerClear := rfl
@[simp] theorem State.setTrunk_flashA (s : State) (t : Nat) (x : Trunk) : (s.setTrunk t x).flashA = s.flashA := rfl
@[simp] theorem State.setTrunk_flashB (s : State) (t : Nat) (x : Trunk) : (s.setTrunk t x).flashB = s.flashB := rfl
@[simp] theorem State.setTrunk_store (s : State) (t : Nat) (x : Trunk) : (s.setTrunk t x).store = s.store := rfl
@[simp] theorem State.setTrunk_resumeReq (s : State) (t : Nat) (x : Trunk) : (s.setTrunk t x).resumeReq = s.resumeReq := rfl
@[simp] theorem State.setTrunk_hostMem (s : State) (t : Nat) (x : Trunk) : (s.setTrunk t x).hostMem = s.hostMem := rfl
@[simp] theorem State.setTrunk_failedPkgs (s : State) (t : Nat) (x : Trunk) : (s.setTrunk t x).failedPkgs = s.failedPkgs := rfl
@[simp] theorem State.setTrunk_peerWords (s : State) (t : Nat) (x : Trunk) : (s.setTrunk t x).peerWords = s.peerWords := rfl

@[simp] theorem State.setCue_schedule (s : State) (n : Nat) (x : Cue) : (s.setCue n x).schedule = s.schedule := rfl
@[simp] theorem State.setCue_happenings (s : State) (n : Nat) (x : Cue) : (s.setCue n x).happenings = s.happenings := rfl
@[simp] theorem State.setCue_cur (s : State) (n : Nat) (x : Cue) : (s.setCue n x).cur = s.cur := rfl
@[simp] theorem State.setCue_tick (s : State) (n : Nat) (x : Cue) : (s.setCue n x).tick = s.tick := rfl
@[simp] theorem State.setCue_nextId (s : State) (n : Nat) (x : Cue) : (s.setCue n x).nextId = s.nextId := rfl
@[simp] theorem State.setCue_faults (s : State) (n : Nat) (x : Cue) : (s.setCue n x).faults = s.faults := rfl
@[simp] theorem State.setCue_egress (s : State) (n : Nat) (x : Cue) : (s.setCue n x).egress = s.egress := rfl
@[simp] theorem State.setCue_now (s : State) (n : Nat) (x : Cue) : (s.setCue n x).now = s.now := rfl
@[simp] theorem State.setCue_pkg (s : State) (n : Nat) (x : Cue) : (s.setCue n x).pkg = s.pkg := rfl
@[simp] theorem State.setCue_boot (s : State) (n : Nat) (x : Cue) : (s.setCue n x).boot = s.boot := rfl
@[simp] theorem State.setCue_mem (s : State) (n : Nat) (x : Cue) : (s.setCue n x).mem = s.mem := rfl
@[simp] theorem State.setCue_dev (s : State) (n : Nat) (x : Cue) : (s.setCue n x).dev = s.dev := rfl
@[simp] theorem State.setCue_cores (s : State) (n : Nat) (x : Cue) : (s.setCue n x).cores = s.cores := rfl
@[simp] theorem State.setCue_queues (s : State) (n : Nat) (x : Cue) : (s.setCue n x).queues = s.queues := rfl
@[simp] theorem State.setCue_tensors (s : State) (n : Nat) (x : Cue) : (s.setCue n x).tensors = s.tensors := rfl
@[simp] theorem State.setCue_ensembles (s : State) (n : Nat) (x : Cue) : (s.setCue n x).ensembles = s.ensembles := rfl
@[simp] theorem State.setCue_engines (s : State) (n : Nat) (x : Cue) : (s.setCue n x).engines = s.engines := rfl
@[simp] theorem State.setCue_groups (s : State) (n : Nat) (x : Cue) : (s.setCue n x).groups = s.groups := rfl
@[simp] theorem State.setCue_redCells (s : State) (n : Nat) (x : Cue) : (s.setCue n x).redCells = s.redCells := rfl
@[simp] theorem State.setCue_l2tlb (s : State) (n : Nat) (x : Cue) : (s.setCue n x).l2tlb = s.l2tlb := rfl
@[simp] theorem State.setCue_ingressTlb (s : State) (n : Nat) (x : Cue) : (s.setCue n x).ingressTlb = s.ingressTlb := rfl
@[simp] theorem State.setCue_gens (s : State) (n : Nat) (x : Cue) : (s.setCue n x).gens = s.gens := rfl
@[simp] theorem State.setCue_invals (s : State) (n : Nat) (x : Cue) : (s.setCue n x).invals = s.invals := rfl
@[simp] theorem State.setCue_migrations (s : State) (n : Nat) (x : Cue) : (s.setCue n x).migrations = s.migrations := rfl
@[simp] theorem State.setCue_redirects (s : State) (n : Nat) (x : Cue) : (s.setCue n x).redirects = s.redirects := rfl
@[simp] theorem State.setCue_migStat (s : State) (n : Nat) (x : Cue) : (s.setCue n x).migStat = s.migStat := rfl
@[simp] theorem State.setCue_ingressPager (s : State) (n : Nat) (x : Cue) : (s.setCue n x).ingressPager = s.ingressPager := rfl
@[simp] theorem State.setCue_hold (s : State) (n : Nat) (x : Cue) : (s.setCue n x).hold = s.hold := rfl
@[simp] theorem State.setCue_landed (s : State) (n : Nat) (x : Cue) : (s.setCue n x).landed = s.landed := rfl
@[simp] theorem State.setCue_failedCues (s : State) (n : Nat) (x : Cue) : (s.setCue n x).failedCues = s.failedCues := rfl
@[simp] theorem State.setCue_misses (s : State) (n : Nat) (x : Cue) : (s.setCue n x).misses = s.misses := rfl
@[simp] theorem State.setCue_brokenCopies (s : State) (n : Nat) (x : Cue) : (s.setCue n x).brokenCopies = s.brokenCopies := rfl
@[simp] theorem State.setCue_trunks (s : State) (n : Nat) (x : Cue) : (s.setCue n x).trunks = s.trunks := rfl
@[simp] theorem State.setCue_routes (s : State) (n : Nat) (x : Cue) : (s.setCue n x).routes = s.routes := rfl
@[simp] theorem State.setCue_slots (s : State) (n : Nat) (x : Cue) : (s.setCue n x).slots = s.slots := rfl
@[simp] theorem State.setCue_formers (s : State) (n : Nat) (x : Cue) : (s.setCue n x).formers = s.formers := rfl
@[simp] theorem State.setCue_roles (s : State) (n : Nat) (x : Cue) : (s.setCue n x).roles = s.roles := rfl
@[simp] theorem State.setCue_loads (s : State) (n : Nat) (x : Cue) : (s.setCue n x).loads = s.loads := rfl
@[simp] theorem State.setCue_nextLoad (s : State) (n : Nat) (x : Cue) : (s.setCue n x).nextLoad = s.nextLoad := rfl
@[simp] theorem State.setCue_nextRecast (s : State) (n : Nat) (x : Cue) : (s.setCue n x).nextRecast = s.nextRecast := rfl
@[simp] theorem State.setCue_orders (s : State) (n : Nat) (x : Cue) : (s.setCue n x).orders = s.orders := rfl
@[simp] theorem State.setCue_usedFrames (s : State) (n : Nat) (x : Cue) : (s.setCue n x).usedFrames = s.usedFrames := rfl
@[simp] theorem State.setCue_mapped (s : State) (n : Nat) (x : Cue) : (s.setCue n x).mapped = s.mapped := rfl
@[simp] theorem State.setCue_accepted (s : State) (n : Nat) (x : Cue) : (s.setCue n x).accepted = s.accepted := rfl
@[simp] theorem State.setCue_completed (s : State) (n : Nat) (x : Cue) : (s.setCue n x).completed = s.completed := rfl
@[simp] theorem State.setCue_fumarole (s : State) (n : Nat) (x : Cue) : (s.setCue n x).fumarole = s.fumarole := rfl
@[simp] theorem State.setCue_fumaroleSeq (s : State) (n : Nat) (x : Cue) : (s.setCue n x).fumaroleSeq = s.fumaroleSeq := rfl
@[simp] theorem State.setCue_refusals (s : State) (n : Nat) (x : Cue) : (s.setCue n x).refusals = s.refusals := rfl
@[simp] theorem State.setCue_netRefusals (s : State) (n : Nat) (x : Cue) : (s.setCue n x).netRefusals = s.netRefusals := rfl
@[simp] theorem State.setCue_injected (s : State) (n : Nat) (x : Cue) : (s.setCue n x).injected = s.injected := rfl
@[simp] theorem State.setCue_transitions (s : State) (n : Nat) (x : Cue) : (s.setCue n x).transitions = s.transitions := rfl
@[simp] theorem State.setCue_tests (s : State) (n : Nat) (x : Cue) : (s.setCue n x).tests = s.tests := rfl
@[simp] theorem State.setCue_spares (s : State) (n : Nat) (x : Cue) : (s.setCue n x).spares = s.spares := rfl
@[simp] theorem State.setCue_understudies (s : State) (n : Nat) (x : Cue) : (s.setCue n x).understudies = s.understudies := rfl
@[simp] theorem State.setCue_unusable (s : State) (n : Nat) (x : Cue) : (s.setCue n x).unusable = s.unusable := rfl
@[simp] theorem State.setCue_powerLimit (s : State) (n : Nat) (x : Cue) : (s.setCue n x).powerLimit = s.powerLimit := rfl
@[simp] theorem State.setCue_throttle (s : State) (n : Nat) (x : Cue) : (s.setCue n x).throttle = s.throttle := rfl
@[simp] theorem State.setCue_powerClear (s : State) (n : Nat) (x : Cue) : (s.setCue n x).powerClear = s.powerClear := rfl
@[simp] theorem State.setCue_flashA (s : State) (n : Nat) (x : Cue) : (s.setCue n x).flashA = s.flashA := rfl
@[simp] theorem State.setCue_flashB (s : State) (n : Nat) (x : Cue) : (s.setCue n x).flashB = s.flashB := rfl
@[simp] theorem State.setCue_store (s : State) (n : Nat) (x : Cue) : (s.setCue n x).store = s.store := rfl
@[simp] theorem State.setCue_resumeReq (s : State) (n : Nat) (x : Cue) : (s.setCue n x).resumeReq = s.resumeReq := rfl
@[simp] theorem State.setCue_hostMem (s : State) (n : Nat) (x : Cue) : (s.setCue n x).hostMem = s.hostMem := rfl
@[simp] theorem State.setCue_failedPkgs (s : State) (n : Nat) (x : Cue) : (s.setCue n x).failedPkgs = s.failedPkgs := rfl
@[simp] theorem State.setCue_peerWords (s : State) (n : Nat) (x : Cue) : (s.setCue n x).peerWords = s.peerWords := rfl

@[simp] theorem State.setTensor_schedule (s : State) (k : Nat) (x : Tensor) : (s.setTensor k x).schedule = s.schedule := rfl
@[simp] theorem State.setTensor_happenings (s : State) (k : Nat) (x : Tensor) : (s.setTensor k x).happenings = s.happenings := rfl
@[simp] theorem State.setTensor_cur (s : State) (k : Nat) (x : Tensor) : (s.setTensor k x).cur = s.cur := rfl
@[simp] theorem State.setTensor_tick (s : State) (k : Nat) (x : Tensor) : (s.setTensor k x).tick = s.tick := rfl
@[simp] theorem State.setTensor_nextId (s : State) (k : Nat) (x : Tensor) : (s.setTensor k x).nextId = s.nextId := rfl
@[simp] theorem State.setTensor_faults (s : State) (k : Nat) (x : Tensor) : (s.setTensor k x).faults = s.faults := rfl
@[simp] theorem State.setTensor_egress (s : State) (k : Nat) (x : Tensor) : (s.setTensor k x).egress = s.egress := rfl
@[simp] theorem State.setTensor_now (s : State) (k : Nat) (x : Tensor) : (s.setTensor k x).now = s.now := rfl
@[simp] theorem State.setTensor_pkg (s : State) (k : Nat) (x : Tensor) : (s.setTensor k x).pkg = s.pkg := rfl
@[simp] theorem State.setTensor_boot (s : State) (k : Nat) (x : Tensor) : (s.setTensor k x).boot = s.boot := rfl
@[simp] theorem State.setTensor_mem (s : State) (k : Nat) (x : Tensor) : (s.setTensor k x).mem = s.mem := rfl
@[simp] theorem State.setTensor_dev (s : State) (k : Nat) (x : Tensor) : (s.setTensor k x).dev = s.dev := rfl
@[simp] theorem State.setTensor_cores (s : State) (k : Nat) (x : Tensor) : (s.setTensor k x).cores = s.cores := rfl
@[simp] theorem State.setTensor_queues (s : State) (k : Nat) (x : Tensor) : (s.setTensor k x).queues = s.queues := rfl
@[simp] theorem State.setTensor_ensembles (s : State) (k : Nat) (x : Tensor) : (s.setTensor k x).ensembles = s.ensembles := rfl
@[simp] theorem State.setTensor_engines (s : State) (k : Nat) (x : Tensor) : (s.setTensor k x).engines = s.engines := rfl
@[simp] theorem State.setTensor_groups (s : State) (k : Nat) (x : Tensor) : (s.setTensor k x).groups = s.groups := rfl
@[simp] theorem State.setTensor_redCells (s : State) (k : Nat) (x : Tensor) : (s.setTensor k x).redCells = s.redCells := rfl
@[simp] theorem State.setTensor_l2tlb (s : State) (k : Nat) (x : Tensor) : (s.setTensor k x).l2tlb = s.l2tlb := rfl
@[simp] theorem State.setTensor_ingressTlb (s : State) (k : Nat) (x : Tensor) : (s.setTensor k x).ingressTlb = s.ingressTlb := rfl
@[simp] theorem State.setTensor_gens (s : State) (k : Nat) (x : Tensor) : (s.setTensor k x).gens = s.gens := rfl
@[simp] theorem State.setTensor_invals (s : State) (k : Nat) (x : Tensor) : (s.setTensor k x).invals = s.invals := rfl
@[simp] theorem State.setTensor_migrations (s : State) (k : Nat) (x : Tensor) : (s.setTensor k x).migrations = s.migrations := rfl
@[simp] theorem State.setTensor_redirects (s : State) (k : Nat) (x : Tensor) : (s.setTensor k x).redirects = s.redirects := rfl
@[simp] theorem State.setTensor_migStat (s : State) (k : Nat) (x : Tensor) : (s.setTensor k x).migStat = s.migStat := rfl
@[simp] theorem State.setTensor_ingressPager (s : State) (k : Nat) (x : Tensor) : (s.setTensor k x).ingressPager = s.ingressPager := rfl
@[simp] theorem State.setTensor_cues (s : State) (k : Nat) (x : Tensor) : (s.setTensor k x).cues = s.cues := rfl
@[simp] theorem State.setTensor_hold (s : State) (k : Nat) (x : Tensor) : (s.setTensor k x).hold = s.hold := rfl
@[simp] theorem State.setTensor_landed (s : State) (k : Nat) (x : Tensor) : (s.setTensor k x).landed = s.landed := rfl
@[simp] theorem State.setTensor_failedCues (s : State) (k : Nat) (x : Tensor) : (s.setTensor k x).failedCues = s.failedCues := rfl
@[simp] theorem State.setTensor_misses (s : State) (k : Nat) (x : Tensor) : (s.setTensor k x).misses = s.misses := rfl
@[simp] theorem State.setTensor_brokenCopies (s : State) (k : Nat) (x : Tensor) : (s.setTensor k x).brokenCopies = s.brokenCopies := rfl
@[simp] theorem State.setTensor_trunks (s : State) (k : Nat) (x : Tensor) : (s.setTensor k x).trunks = s.trunks := rfl
@[simp] theorem State.setTensor_routes (s : State) (k : Nat) (x : Tensor) : (s.setTensor k x).routes = s.routes := rfl
@[simp] theorem State.setTensor_slots (s : State) (k : Nat) (x : Tensor) : (s.setTensor k x).slots = s.slots := rfl
@[simp] theorem State.setTensor_formers (s : State) (k : Nat) (x : Tensor) : (s.setTensor k x).formers = s.formers := rfl
@[simp] theorem State.setTensor_roles (s : State) (k : Nat) (x : Tensor) : (s.setTensor k x).roles = s.roles := rfl
@[simp] theorem State.setTensor_loads (s : State) (k : Nat) (x : Tensor) : (s.setTensor k x).loads = s.loads := rfl
@[simp] theorem State.setTensor_nextLoad (s : State) (k : Nat) (x : Tensor) : (s.setTensor k x).nextLoad = s.nextLoad := rfl
@[simp] theorem State.setTensor_nextRecast (s : State) (k : Nat) (x : Tensor) : (s.setTensor k x).nextRecast = s.nextRecast := rfl
@[simp] theorem State.setTensor_orders (s : State) (k : Nat) (x : Tensor) : (s.setTensor k x).orders = s.orders := rfl
@[simp] theorem State.setTensor_usedFrames (s : State) (k : Nat) (x : Tensor) : (s.setTensor k x).usedFrames = s.usedFrames := rfl
@[simp] theorem State.setTensor_mapped (s : State) (k : Nat) (x : Tensor) : (s.setTensor k x).mapped = s.mapped := rfl
@[simp] theorem State.setTensor_accepted (s : State) (k : Nat) (x : Tensor) : (s.setTensor k x).accepted = s.accepted := rfl
@[simp] theorem State.setTensor_completed (s : State) (k : Nat) (x : Tensor) : (s.setTensor k x).completed = s.completed := rfl
@[simp] theorem State.setTensor_fumarole (s : State) (k : Nat) (x : Tensor) : (s.setTensor k x).fumarole = s.fumarole := rfl
@[simp] theorem State.setTensor_fumaroleSeq (s : State) (k : Nat) (x : Tensor) : (s.setTensor k x).fumaroleSeq = s.fumaroleSeq := rfl
@[simp] theorem State.setTensor_refusals (s : State) (k : Nat) (x : Tensor) : (s.setTensor k x).refusals = s.refusals := rfl
@[simp] theorem State.setTensor_netRefusals (s : State) (k : Nat) (x : Tensor) : (s.setTensor k x).netRefusals = s.netRefusals := rfl
@[simp] theorem State.setTensor_injected (s : State) (k : Nat) (x : Tensor) : (s.setTensor k x).injected = s.injected := rfl
@[simp] theorem State.setTensor_transitions (s : State) (k : Nat) (x : Tensor) : (s.setTensor k x).transitions = s.transitions := rfl
@[simp] theorem State.setTensor_tests (s : State) (k : Nat) (x : Tensor) : (s.setTensor k x).tests = s.tests := rfl
@[simp] theorem State.setTensor_spares (s : State) (k : Nat) (x : Tensor) : (s.setTensor k x).spares = s.spares := rfl
@[simp] theorem State.setTensor_understudies (s : State) (k : Nat) (x : Tensor) : (s.setTensor k x).understudies = s.understudies := rfl
@[simp] theorem State.setTensor_unusable (s : State) (k : Nat) (x : Tensor) : (s.setTensor k x).unusable = s.unusable := rfl
@[simp] theorem State.setTensor_powerLimit (s : State) (k : Nat) (x : Tensor) : (s.setTensor k x).powerLimit = s.powerLimit := rfl
@[simp] theorem State.setTensor_throttle (s : State) (k : Nat) (x : Tensor) : (s.setTensor k x).throttle = s.throttle := rfl
@[simp] theorem State.setTensor_powerClear (s : State) (k : Nat) (x : Tensor) : (s.setTensor k x).powerClear = s.powerClear := rfl
@[simp] theorem State.setTensor_flashA (s : State) (k : Nat) (x : Tensor) : (s.setTensor k x).flashA = s.flashA := rfl
@[simp] theorem State.setTensor_flashB (s : State) (k : Nat) (x : Tensor) : (s.setTensor k x).flashB = s.flashB := rfl
@[simp] theorem State.setTensor_store (s : State) (k : Nat) (x : Tensor) : (s.setTensor k x).store = s.store := rfl
@[simp] theorem State.setTensor_resumeReq (s : State) (k : Nat) (x : Tensor) : (s.setTensor k x).resumeReq = s.resumeReq := rfl
@[simp] theorem State.setTensor_hostMem (s : State) (k : Nat) (x : Tensor) : (s.setTensor k x).hostMem = s.hostMem := rfl
@[simp] theorem State.setTensor_failedPkgs (s : State) (k : Nat) (x : Tensor) : (s.setTensor k x).failedPkgs = s.failedPkgs := rfl
@[simp] theorem State.setTensor_peerWords (s : State) (k : Nat) (x : Tensor) : (s.setTensor k x).peerWords = s.peerWords := rfl

@[simp] theorem State.post_schedule (s : State) (d : Nat) (i : Instr) : (s.post d i).schedule = s.schedule := rfl
@[simp] theorem State.post_cur (s : State) (d : Nat) (i : Instr) : (s.post d i).cur = s.cur := rfl
@[simp] theorem State.post_tick (s : State) (d : Nat) (i : Instr) : (s.post d i).tick = s.tick := rfl
@[simp] theorem State.post_nextId (s : State) (d : Nat) (i : Instr) : (s.post d i).nextId = s.nextId := rfl
@[simp] theorem State.post_faults (s : State) (d : Nat) (i : Instr) : (s.post d i).faults = s.faults := rfl
@[simp] theorem State.post_egress (s : State) (d : Nat) (i : Instr) : (s.post d i).egress = s.egress := rfl
@[simp] theorem State.post_now (s : State) (d : Nat) (i : Instr) : (s.post d i).now = s.now := rfl
@[simp] theorem State.post_pkg (s : State) (d : Nat) (i : Instr) : (s.post d i).pkg = s.pkg := rfl
@[simp] theorem State.post_boot (s : State) (d : Nat) (i : Instr) : (s.post d i).boot = s.boot := rfl
@[simp] theorem State.post_mem (s : State) (d : Nat) (i : Instr) : (s.post d i).mem = s.mem := rfl
@[simp] theorem State.post_dev (s : State) (d : Nat) (i : Instr) : (s.post d i).dev = s.dev := rfl
@[simp] theorem State.post_cores (s : State) (d : Nat) (i : Instr) : (s.post d i).cores = s.cores := rfl
@[simp] theorem State.post_queues (s : State) (d : Nat) (i : Instr) : (s.post d i).queues = s.queues := rfl
@[simp] theorem State.post_tensors (s : State) (d : Nat) (i : Instr) : (s.post d i).tensors = s.tensors := rfl
@[simp] theorem State.post_ensembles (s : State) (d : Nat) (i : Instr) : (s.post d i).ensembles = s.ensembles := rfl
@[simp] theorem State.post_engines (s : State) (d : Nat) (i : Instr) : (s.post d i).engines = s.engines := rfl
@[simp] theorem State.post_groups (s : State) (d : Nat) (i : Instr) : (s.post d i).groups = s.groups := rfl
@[simp] theorem State.post_redCells (s : State) (d : Nat) (i : Instr) : (s.post d i).redCells = s.redCells := rfl
@[simp] theorem State.post_l2tlb (s : State) (d : Nat) (i : Instr) : (s.post d i).l2tlb = s.l2tlb := rfl
@[simp] theorem State.post_ingressTlb (s : State) (d : Nat) (i : Instr) : (s.post d i).ingressTlb = s.ingressTlb := rfl
@[simp] theorem State.post_gens (s : State) (d : Nat) (i : Instr) : (s.post d i).gens = s.gens := rfl
@[simp] theorem State.post_invals (s : State) (d : Nat) (i : Instr) : (s.post d i).invals = s.invals := rfl
@[simp] theorem State.post_migrations (s : State) (d : Nat) (i : Instr) : (s.post d i).migrations = s.migrations := rfl
@[simp] theorem State.post_redirects (s : State) (d : Nat) (i : Instr) : (s.post d i).redirects = s.redirects := rfl
@[simp] theorem State.post_migStat (s : State) (d : Nat) (i : Instr) : (s.post d i).migStat = s.migStat := rfl
@[simp] theorem State.post_ingressPager (s : State) (d : Nat) (i : Instr) : (s.post d i).ingressPager = s.ingressPager := rfl
@[simp] theorem State.post_cues (s : State) (d : Nat) (i : Instr) : (s.post d i).cues = s.cues := rfl
@[simp] theorem State.post_hold (s : State) (d : Nat) (i : Instr) : (s.post d i).hold = s.hold := rfl
@[simp] theorem State.post_landed (s : State) (d : Nat) (i : Instr) : (s.post d i).landed = s.landed := rfl
@[simp] theorem State.post_failedCues (s : State) (d : Nat) (i : Instr) : (s.post d i).failedCues = s.failedCues := rfl
@[simp] theorem State.post_misses (s : State) (d : Nat) (i : Instr) : (s.post d i).misses = s.misses := rfl
@[simp] theorem State.post_brokenCopies (s : State) (d : Nat) (i : Instr) : (s.post d i).brokenCopies = s.brokenCopies := rfl
@[simp] theorem State.post_trunks (s : State) (d : Nat) (i : Instr) : (s.post d i).trunks = s.trunks := rfl
@[simp] theorem State.post_routes (s : State) (d : Nat) (i : Instr) : (s.post d i).routes = s.routes := rfl
@[simp] theorem State.post_slots (s : State) (d : Nat) (i : Instr) : (s.post d i).slots = s.slots := rfl
@[simp] theorem State.post_formers (s : State) (d : Nat) (i : Instr) : (s.post d i).formers = s.formers := rfl
@[simp] theorem State.post_roles (s : State) (d : Nat) (i : Instr) : (s.post d i).roles = s.roles := rfl
@[simp] theorem State.post_loads (s : State) (d : Nat) (i : Instr) : (s.post d i).loads = s.loads := rfl
@[simp] theorem State.post_nextLoad (s : State) (d : Nat) (i : Instr) : (s.post d i).nextLoad = s.nextLoad := rfl
@[simp] theorem State.post_nextRecast (s : State) (d : Nat) (i : Instr) : (s.post d i).nextRecast = s.nextRecast := rfl
@[simp] theorem State.post_orders (s : State) (d : Nat) (i : Instr) : (s.post d i).orders = s.orders := rfl
@[simp] theorem State.post_usedFrames (s : State) (d : Nat) (i : Instr) : (s.post d i).usedFrames = s.usedFrames := rfl
@[simp] theorem State.post_mapped (s : State) (d : Nat) (i : Instr) : (s.post d i).mapped = s.mapped := rfl
@[simp] theorem State.post_accepted (s : State) (d : Nat) (i : Instr) : (s.post d i).accepted = s.accepted := rfl
@[simp] theorem State.post_completed (s : State) (d : Nat) (i : Instr) : (s.post d i).completed = s.completed := rfl
@[simp] theorem State.post_fumarole (s : State) (d : Nat) (i : Instr) : (s.post d i).fumarole = s.fumarole := rfl
@[simp] theorem State.post_fumaroleSeq (s : State) (d : Nat) (i : Instr) : (s.post d i).fumaroleSeq = s.fumaroleSeq := rfl
@[simp] theorem State.post_refusals (s : State) (d : Nat) (i : Instr) : (s.post d i).refusals = s.refusals := rfl
@[simp] theorem State.post_netRefusals (s : State) (d : Nat) (i : Instr) : (s.post d i).netRefusals = s.netRefusals := rfl
@[simp] theorem State.post_injected (s : State) (d : Nat) (i : Instr) : (s.post d i).injected = s.injected := rfl
@[simp] theorem State.post_transitions (s : State) (d : Nat) (i : Instr) : (s.post d i).transitions = s.transitions := rfl
@[simp] theorem State.post_tests (s : State) (d : Nat) (i : Instr) : (s.post d i).tests = s.tests := rfl
@[simp] theorem State.post_spares (s : State) (d : Nat) (i : Instr) : (s.post d i).spares = s.spares := rfl
@[simp] theorem State.post_understudies (s : State) (d : Nat) (i : Instr) : (s.post d i).understudies = s.understudies := rfl
@[simp] theorem State.post_unusable (s : State) (d : Nat) (i : Instr) : (s.post d i).unusable = s.unusable := rfl
@[simp] theorem State.post_powerLimit (s : State) (d : Nat) (i : Instr) : (s.post d i).powerLimit = s.powerLimit := rfl
@[simp] theorem State.post_throttle (s : State) (d : Nat) (i : Instr) : (s.post d i).throttle = s.throttle := rfl
@[simp] theorem State.post_powerClear (s : State) (d : Nat) (i : Instr) : (s.post d i).powerClear = s.powerClear := rfl
@[simp] theorem State.post_flashA (s : State) (d : Nat) (i : Instr) : (s.post d i).flashA = s.flashA := rfl
@[simp] theorem State.post_flashB (s : State) (d : Nat) (i : Instr) : (s.post d i).flashB = s.flashB := rfl
@[simp] theorem State.post_store (s : State) (d : Nat) (i : Instr) : (s.post d i).store = s.store := rfl
@[simp] theorem State.post_resumeReq (s : State) (d : Nat) (i : Instr) : (s.post d i).resumeReq = s.resumeReq := rfl
@[simp] theorem State.post_hostMem (s : State) (d : Nat) (i : Instr) : (s.post d i).hostMem = s.hostMem := rfl
@[simp] theorem State.post_failedPkgs (s : State) (d : Nat) (i : Instr) : (s.post d i).failedPkgs = s.failedPkgs := rfl
@[simp] theorem State.post_peerWords (s : State) (d : Nat) (i : Instr) : (s.post d i).peerWords = s.peerWords := rfl

@[simp] theorem State.emit_schedule (s : State) (m : Msg) : (s.emit m).schedule = s.schedule := rfl
@[simp] theorem State.emit_happenings (s : State) (m : Msg) : (s.emit m).happenings = s.happenings := rfl
@[simp] theorem State.emit_cur (s : State) (m : Msg) : (s.emit m).cur = s.cur := rfl
@[simp] theorem State.emit_tick (s : State) (m : Msg) : (s.emit m).tick = s.tick := rfl
@[simp] theorem State.emit_nextId (s : State) (m : Msg) : (s.emit m).nextId = s.nextId := rfl
@[simp] theorem State.emit_faults (s : State) (m : Msg) : (s.emit m).faults = s.faults := rfl
@[simp] theorem State.emit_now (s : State) (m : Msg) : (s.emit m).now = s.now := rfl
@[simp] theorem State.emit_pkg (s : State) (m : Msg) : (s.emit m).pkg = s.pkg := rfl
@[simp] theorem State.emit_boot (s : State) (m : Msg) : (s.emit m).boot = s.boot := rfl
@[simp] theorem State.emit_mem (s : State) (m : Msg) : (s.emit m).mem = s.mem := rfl
@[simp] theorem State.emit_dev (s : State) (m : Msg) : (s.emit m).dev = s.dev := rfl
@[simp] theorem State.emit_cores (s : State) (m : Msg) : (s.emit m).cores = s.cores := rfl
@[simp] theorem State.emit_queues (s : State) (m : Msg) : (s.emit m).queues = s.queues := rfl
@[simp] theorem State.emit_tensors (s : State) (m : Msg) : (s.emit m).tensors = s.tensors := rfl
@[simp] theorem State.emit_ensembles (s : State) (m : Msg) : (s.emit m).ensembles = s.ensembles := rfl
@[simp] theorem State.emit_engines (s : State) (m : Msg) : (s.emit m).engines = s.engines := rfl
@[simp] theorem State.emit_groups (s : State) (m : Msg) : (s.emit m).groups = s.groups := rfl
@[simp] theorem State.emit_redCells (s : State) (m : Msg) : (s.emit m).redCells = s.redCells := rfl
@[simp] theorem State.emit_l2tlb (s : State) (m : Msg) : (s.emit m).l2tlb = s.l2tlb := rfl
@[simp] theorem State.emit_ingressTlb (s : State) (m : Msg) : (s.emit m).ingressTlb = s.ingressTlb := rfl
@[simp] theorem State.emit_gens (s : State) (m : Msg) : (s.emit m).gens = s.gens := rfl
@[simp] theorem State.emit_invals (s : State) (m : Msg) : (s.emit m).invals = s.invals := rfl
@[simp] theorem State.emit_migrations (s : State) (m : Msg) : (s.emit m).migrations = s.migrations := rfl
@[simp] theorem State.emit_redirects (s : State) (m : Msg) : (s.emit m).redirects = s.redirects := rfl
@[simp] theorem State.emit_migStat (s : State) (m : Msg) : (s.emit m).migStat = s.migStat := rfl
@[simp] theorem State.emit_ingressPager (s : State) (m : Msg) : (s.emit m).ingressPager = s.ingressPager := rfl
@[simp] theorem State.emit_cues (s : State) (m : Msg) : (s.emit m).cues = s.cues := rfl
@[simp] theorem State.emit_hold (s : State) (m : Msg) : (s.emit m).hold = s.hold := rfl
@[simp] theorem State.emit_landed (s : State) (m : Msg) : (s.emit m).landed = s.landed := rfl
@[simp] theorem State.emit_failedCues (s : State) (m : Msg) : (s.emit m).failedCues = s.failedCues := rfl
@[simp] theorem State.emit_misses (s : State) (m : Msg) : (s.emit m).misses = s.misses := rfl
@[simp] theorem State.emit_brokenCopies (s : State) (m : Msg) : (s.emit m).brokenCopies = s.brokenCopies := rfl
@[simp] theorem State.emit_trunks (s : State) (m : Msg) : (s.emit m).trunks = s.trunks := rfl
@[simp] theorem State.emit_routes (s : State) (m : Msg) : (s.emit m).routes = s.routes := rfl
@[simp] theorem State.emit_slots (s : State) (m : Msg) : (s.emit m).slots = s.slots := rfl
@[simp] theorem State.emit_formers (s : State) (m : Msg) : (s.emit m).formers = s.formers := rfl
@[simp] theorem State.emit_roles (s : State) (m : Msg) : (s.emit m).roles = s.roles := rfl
@[simp] theorem State.emit_loads (s : State) (m : Msg) : (s.emit m).loads = s.loads := rfl
@[simp] theorem State.emit_nextLoad (s : State) (m : Msg) : (s.emit m).nextLoad = s.nextLoad := rfl
@[simp] theorem State.emit_nextRecast (s : State) (m : Msg) : (s.emit m).nextRecast = s.nextRecast := rfl
@[simp] theorem State.emit_orders (s : State) (m : Msg) : (s.emit m).orders = s.orders := rfl
@[simp] theorem State.emit_usedFrames (s : State) (m : Msg) : (s.emit m).usedFrames = s.usedFrames := rfl
@[simp] theorem State.emit_mapped (s : State) (m : Msg) : (s.emit m).mapped = s.mapped := rfl
@[simp] theorem State.emit_accepted (s : State) (m : Msg) : (s.emit m).accepted = s.accepted := rfl
@[simp] theorem State.emit_completed (s : State) (m : Msg) : (s.emit m).completed = s.completed := rfl
@[simp] theorem State.emit_fumarole (s : State) (m : Msg) : (s.emit m).fumarole = s.fumarole := rfl
@[simp] theorem State.emit_fumaroleSeq (s : State) (m : Msg) : (s.emit m).fumaroleSeq = s.fumaroleSeq := rfl
@[simp] theorem State.emit_refusals (s : State) (m : Msg) : (s.emit m).refusals = s.refusals := rfl
@[simp] theorem State.emit_netRefusals (s : State) (m : Msg) : (s.emit m).netRefusals = s.netRefusals := rfl
@[simp] theorem State.emit_injected (s : State) (m : Msg) : (s.emit m).injected = s.injected := rfl
@[simp] theorem State.emit_transitions (s : State) (m : Msg) : (s.emit m).transitions = s.transitions := rfl
@[simp] theorem State.emit_tests (s : State) (m : Msg) : (s.emit m).tests = s.tests := rfl
@[simp] theorem State.emit_spares (s : State) (m : Msg) : (s.emit m).spares = s.spares := rfl
@[simp] theorem State.emit_understudies (s : State) (m : Msg) : (s.emit m).understudies = s.understudies := rfl
@[simp] theorem State.emit_unusable (s : State) (m : Msg) : (s.emit m).unusable = s.unusable := rfl
@[simp] theorem State.emit_powerLimit (s : State) (m : Msg) : (s.emit m).powerLimit = s.powerLimit := rfl
@[simp] theorem State.emit_throttle (s : State) (m : Msg) : (s.emit m).throttle = s.throttle := rfl
@[simp] theorem State.emit_powerClear (s : State) (m : Msg) : (s.emit m).powerClear = s.powerClear := rfl
@[simp] theorem State.emit_flashA (s : State) (m : Msg) : (s.emit m).flashA = s.flashA := rfl
@[simp] theorem State.emit_flashB (s : State) (m : Msg) : (s.emit m).flashB = s.flashB := rfl
@[simp] theorem State.emit_store (s : State) (m : Msg) : (s.emit m).store = s.store := rfl
@[simp] theorem State.emit_resumeReq (s : State) (m : Msg) : (s.emit m).resumeReq = s.resumeReq := rfl
@[simp] theorem State.emit_hostMem (s : State) (m : Msg) : (s.emit m).hostMem = s.hostMem := rfl
@[simp] theorem State.emit_failedPkgs (s : State) (m : Msg) : (s.emit m).failedPkgs = s.failedPkgs := rfl
@[simp] theorem State.emit_peerWords (s : State) (m : Msg) : (s.emit m).peerWords = s.peerWords := rfl

@[simp] theorem Core.setReg_pc (x : Core) (r : Reg) (v : Word) : (x.setReg r v).pc = x.pc := by unfold Core.setReg; split <;> rfl
@[simp] theorem Core.setReg_nflags (x : Core) (r : Reg) (v : Word) : (x.setReg r v).nflags = x.nflags := by unfold Core.setReg; split <;> rfl
@[simp] theorem Core.setReg_nmode (x : Core) (r : Reg) (v : Word) : (x.setReg r v).nmode = x.nmode := by unfold Core.setReg; split <;> rfl
@[simp] theorem Core.setReg_vl (x : Core) (r : Reg) (v : Word) : (x.setReg r v).vl = x.vl := by unfold Core.setReg; split <;> rfl
@[simp] theorem Core.setReg_vregs (x : Core) (r : Reg) (v : Word) : (x.setReg r v).vregs = x.vregs := by unfold Core.setReg; split <;> rfl
@[simp] theorem Core.setReg_masks (x : Core) (r : Reg) (v : Word) : (x.setReg r v).masks = x.masks := by unfold Core.setReg; split <;> rfl
@[simp] theorem Core.setReg_blocks (x : Core) (r : Reg) (v : Word) : (x.setReg r v).blocks = x.blocks := by unfold Core.setReg; split <;> rfl
@[simp] theorem Core.setReg_cond (x : Core) (r : Reg) (v : Word) : (x.setReg r v).cond = x.cond := by unfold Core.setReg; split <;> rfl
@[simp] theorem Core.setReg_inst (x : Core) (r : Reg) (v : Word) : (x.setReg r v).inst = x.inst := by unfold Core.setReg; split <;> rfl
@[simp] theorem Core.setReg_startedAt (x : Core) (r : Reg) (v : Word) : (x.setReg r v).startedAt = x.startedAt := by unfold Core.setReg; split <;> rfl
@[simp] theorem Core.setReg_rows (x : Core) (r : Reg) (v : Word) : (x.setReg r v).rows = x.rows := by unfold Core.setReg; split <;> rfl
@[simp] theorem Core.setReg_lastRow (x : Core) (r : Reg) (v : Word) : (x.setReg r v).lastRow = x.lastRow := by unfold Core.setReg; split <;> rfl
@[simp] theorem Core.setReg_arms (x : Core) (r : Reg) (v : Word) : (x.setReg r v).arms = x.arms := by unfold Core.setReg; split <;> rfl
@[simp] theorem Core.setReg_refused (x : Core) (r : Reg) (v : Word) : (x.setReg r v).refused = x.refused := by unfold Core.setReg; split <;> rfl
@[simp] theorem Core.setReg_held (x : Core) (r : Reg) (v : Word) : (x.setReg r v).held = x.held := by unfold Core.setReg; split <;> rfl
@[simp] theorem Core.setReg_frames (x : Core) (r : Reg) (v : Word) : (x.setReg r v).frames = x.frames := by unfold Core.setReg; split <;> rfl
@[simp] theorem Core.setReg_stbuf (x : Core) (r : Reg) (v : Word) : (x.setReg r v).stbuf = x.stbuf := by unfold Core.setReg; split <;> rfl
@[simp] theorem Core.setReg_itlb (x : Core) (r : Reg) (v : Word) : (x.setReg r v).itlb = x.itlb := by unfold Core.setReg; split <;> rfl
@[simp] theorem Core.setReg_dtlb (x : Core) (r : Reg) (v : Word) : (x.setReg r v).dtlb = x.dtlb := by unfold Core.setReg; split <;> rfl
@[simp] theorem Core.setReg_outst (x : Core) (r : Reg) (v : Word) : (x.setReg r v).outst = x.outst := by unfold Core.setReg; split <;> rfl
@[simp] theorem Core.setReg_contribs (x : Core) (r : Reg) (v : Word) : (x.setReg r v).contribs = x.contribs := by unfold Core.setReg; split <;> rfl
@[simp] theorem Core.setReg_members (x : Core) (r : Reg) (v : Word) : (x.setReg r v).members = x.members := by unfold Core.setReg; split <;> rfl
@[simp] theorem Core.setReg_flights (x : Core) (r : Reg) (v : Word) : (x.setReg r v).flights = x.flights := by unfold Core.setReg; split <;> rfl
@[simp] theorem Core.setReg_handles (x : Core) (r : Reg) (v : Word) : (x.setReg r v).handles = x.handles := by unfold Core.setReg; split <;> rfl
@[simp] theorem Core.setReg_accs (x : Core) (r : Reg) (v : Word) : (x.setReg r v).accs = x.accs := by unfold Core.setReg; split <;> rfl
@[simp] theorem Core.setReg_weight (x : Core) (r : Reg) (v : Word) : (x.setReg r v).weight = x.weight := by unfold Core.setReg; split <;> rfl
@[simp] theorem Core.setReg_mq (x : Core) (r : Reg) (v : Word) : (x.setReg r v).mq = x.mq := by unfold Core.setReg; split <;> rfl
@[simp] theorem Core.setReg_note (x : Core) (r : Reg) (v : Word) : (x.setReg r v).note = x.note := by unfold Core.setReg; split <;> rfl
@[simp] theorem Core.setReg_lost (x : Core) (r : Reg) (v : Word) : (x.setReg r v).lost = x.lost := by unfold Core.setReg; split <;> rfl
@[simp] theorem Core.setReg_resetAt (x : Core) (r : Reg) (v : Word) : (x.setReg r v).resetAt = x.resetAt := by unfold Core.setReg; split <;> rfl
@[simp] theorem Core.setReg_retired (x : Core) (r : Reg) (v : Word) : (x.setReg r v).retired = x.retired := by unfold Core.setReg; split <;> rfl
@[simp] theorem Core.setReg_dbgctl (x : Core) (r : Reg) (v : Word) : (x.setReg r v).dbgctl = x.dbgctl := by unfold Core.setReg; split <;> rfl
@[simp] theorem Core.setReg_dbgq (x : Core) (r : Reg) (v : Word) : (x.setReg r v).dbgq = x.dbgq := by unfold Core.setReg; split <;> rfl
@[simp] theorem Core.setReg_role (x : Core) (r : Reg) (v : Word) : (x.setReg r v).role = x.role := by unfold Core.setReg; split <;> rfl
@[simp] theorem Core.setReg_index (x : Core) (r : Reg) (v : Word) : (x.setReg r v).index = x.index := by unfold Core.setReg; split <;> rfl
@[simp] theorem Core.setReg_pagerReqs (x : Core) (r : Reg) (v : Word) : (x.setReg r v).pagerReqs = x.pagerReqs := by unfold Core.setReg; split <;> rfl
@[simp] theorem Core.setReg_closed (x : Core) (r : Reg) (v : Word) : (x.setReg r v).closed = x.closed := by unfold Core.setReg; split <;> rfl
@[simp] theorem Core.setReg_joining (x : Core) (r : Reg) (v : Word) : (x.setReg r v).joining = x.joining := by unfold Core.setReg; split <;> rfl
@[simp] theorem Core.setReg_pooled (x : Core) (r : Reg) (v : Word) : (x.setReg r v).pooled = x.pooled := by unfold Core.setReg; split <;> rfl
@[simp] theorem Core.setReg_replaced (x : Core) (r : Reg) (v : Word) : (x.setReg r v).replaced = x.replaced := by unfold Core.setReg; split <;> rfl
@[simp] theorem Core.setReg_understudy (x : Core) (r : Reg) (v : Word) : (x.setReg r v).understudy = x.understudy := by unfold Core.setReg; split <;> rfl

@[simp] theorem Core.setRow_regs (x : Core) (r : Nat) (v : Row) : (x.setRow r v).regs = x.regs := rfl
@[simp] theorem Core.setRow_pc (x : Core) (r : Nat) (v : Row) : (x.setRow r v).pc = x.pc := rfl
@[simp] theorem Core.setRow_nflags (x : Core) (r : Nat) (v : Row) : (x.setRow r v).nflags = x.nflags := rfl
@[simp] theorem Core.setRow_nmode (x : Core) (r : Nat) (v : Row) : (x.setRow r v).nmode = x.nmode := rfl
@[simp] theorem Core.setRow_vl (x : Core) (r : Nat) (v : Row) : (x.setRow r v).vl = x.vl := rfl
@[simp] theorem Core.setRow_vregs (x : Core) (r : Nat) (v : Row) : (x.setRow r v).vregs = x.vregs := rfl
@[simp] theorem Core.setRow_masks (x : Core) (r : Nat) (v : Row) : (x.setRow r v).masks = x.masks := rfl
@[simp] theorem Core.setRow_blocks (x : Core) (r : Nat) (v : Row) : (x.setRow r v).blocks = x.blocks := rfl
@[simp] theorem Core.setRow_cond (x : Core) (r : Nat) (v : Row) : (x.setRow r v).cond = x.cond := rfl
@[simp] theorem Core.setRow_inst (x : Core) (r : Nat) (v : Row) : (x.setRow r v).inst = x.inst := rfl
@[simp] theorem Core.setRow_startedAt (x : Core) (r : Nat) (v : Row) : (x.setRow r v).startedAt = x.startedAt := rfl
@[simp] theorem Core.setRow_lastRow (x : Core) (r : Nat) (v : Row) : (x.setRow r v).lastRow = x.lastRow := rfl
@[simp] theorem Core.setRow_arms (x : Core) (r : Nat) (v : Row) : (x.setRow r v).arms = x.arms := rfl
@[simp] theorem Core.setRow_refused (x : Core) (r : Nat) (v : Row) : (x.setRow r v).refused = x.refused := rfl
@[simp] theorem Core.setRow_held (x : Core) (r : Nat) (v : Row) : (x.setRow r v).held = x.held := rfl
@[simp] theorem Core.setRow_frames (x : Core) (r : Nat) (v : Row) : (x.setRow r v).frames = x.frames := rfl
@[simp] theorem Core.setRow_stbuf (x : Core) (r : Nat) (v : Row) : (x.setRow r v).stbuf = x.stbuf := rfl
@[simp] theorem Core.setRow_itlb (x : Core) (r : Nat) (v : Row) : (x.setRow r v).itlb = x.itlb := rfl
@[simp] theorem Core.setRow_dtlb (x : Core) (r : Nat) (v : Row) : (x.setRow r v).dtlb = x.dtlb := rfl
@[simp] theorem Core.setRow_outst (x : Core) (r : Nat) (v : Row) : (x.setRow r v).outst = x.outst := rfl
@[simp] theorem Core.setRow_contribs (x : Core) (r : Nat) (v : Row) : (x.setRow r v).contribs = x.contribs := rfl
@[simp] theorem Core.setRow_members (x : Core) (r : Nat) (v : Row) : (x.setRow r v).members = x.members := rfl
@[simp] theorem Core.setRow_flights (x : Core) (r : Nat) (v : Row) : (x.setRow r v).flights = x.flights := rfl
@[simp] theorem Core.setRow_handles (x : Core) (r : Nat) (v : Row) : (x.setRow r v).handles = x.handles := rfl
@[simp] theorem Core.setRow_accs (x : Core) (r : Nat) (v : Row) : (x.setRow r v).accs = x.accs := rfl
@[simp] theorem Core.setRow_weight (x : Core) (r : Nat) (v : Row) : (x.setRow r v).weight = x.weight := rfl
@[simp] theorem Core.setRow_mq (x : Core) (r : Nat) (v : Row) : (x.setRow r v).mq = x.mq := rfl
@[simp] theorem Core.setRow_note (x : Core) (r : Nat) (v : Row) : (x.setRow r v).note = x.note := rfl
@[simp] theorem Core.setRow_lost (x : Core) (r : Nat) (v : Row) : (x.setRow r v).lost = x.lost := rfl
@[simp] theorem Core.setRow_resetAt (x : Core) (r : Nat) (v : Row) : (x.setRow r v).resetAt = x.resetAt := rfl
@[simp] theorem Core.setRow_retired (x : Core) (r : Nat) (v : Row) : (x.setRow r v).retired = x.retired := rfl
@[simp] theorem Core.setRow_dbgctl (x : Core) (r : Nat) (v : Row) : (x.setRow r v).dbgctl = x.dbgctl := rfl
@[simp] theorem Core.setRow_dbgq (x : Core) (r : Nat) (v : Row) : (x.setRow r v).dbgq = x.dbgq := rfl
@[simp] theorem Core.setRow_role (x : Core) (r : Nat) (v : Row) : (x.setRow r v).role = x.role := rfl
@[simp] theorem Core.setRow_index (x : Core) (r : Nat) (v : Row) : (x.setRow r v).index = x.index := rfl
@[simp] theorem Core.setRow_pagerReqs (x : Core) (r : Nat) (v : Row) : (x.setRow r v).pagerReqs = x.pagerReqs := rfl
@[simp] theorem Core.setRow_closed (x : Core) (r : Nat) (v : Row) : (x.setRow r v).closed = x.closed := rfl
@[simp] theorem Core.setRow_joining (x : Core) (r : Nat) (v : Row) : (x.setRow r v).joining = x.joining := rfl
@[simp] theorem Core.setRow_pooled (x : Core) (r : Nat) (v : Row) : (x.setRow r v).pooled = x.pooled := rfl
@[simp] theorem Core.setRow_replaced (x : Core) (r : Nat) (v : Row) : (x.setRow r v).replaced = x.replaced := rfl
@[simp] theorem Core.setRow_understudy (x : Core) (r : Nat) (v : Row) : (x.setRow r v).understudy = x.understudy := rfl

@[simp] theorem Core.setVreg_regs (x : Core) (r : Reg) (v : List Lane) : (x.setVreg r v).regs = x.regs := rfl
@[simp] theorem Core.setVreg_pc (x : Core) (r : Reg) (v : List Lane) : (x.setVreg r v).pc = x.pc := rfl
@[simp] theorem Core.setVreg_nflags (x : Core) (r : Reg) (v : List Lane) : (x.setVreg r v).nflags = x.nflags := rfl
@[simp] theorem Core.setVreg_nmode (x : Core) (r : Reg) (v : List Lane) : (x.setVreg r v).nmode = x.nmode := rfl
@[simp] theorem Core.setVreg_vl (x : Core) (r : Reg) (v : List Lane) : (x.setVreg r v).vl = x.vl := rfl
@[simp] theorem Core.setVreg_masks (x : Core) (r : Reg) (v : List Lane) : (x.setVreg r v).masks = x.masks := rfl
@[simp] theorem Core.setVreg_blocks (x : Core) (r : Reg) (v : List Lane) : (x.setVreg r v).blocks = x.blocks := rfl
@[simp] theorem Core.setVreg_cond (x : Core) (r : Reg) (v : List Lane) : (x.setVreg r v).cond = x.cond := rfl
@[simp] theorem Core.setVreg_inst (x : Core) (r : Reg) (v : List Lane) : (x.setVreg r v).inst = x.inst := rfl
@[simp] theorem Core.setVreg_startedAt (x : Core) (r : Reg) (v : List Lane) : (x.setVreg r v).startedAt = x.startedAt := rfl
@[simp] theorem Core.setVreg_rows (x : Core) (r : Reg) (v : List Lane) : (x.setVreg r v).rows = x.rows := rfl
@[simp] theorem Core.setVreg_lastRow (x : Core) (r : Reg) (v : List Lane) : (x.setVreg r v).lastRow = x.lastRow := rfl
@[simp] theorem Core.setVreg_arms (x : Core) (r : Reg) (v : List Lane) : (x.setVreg r v).arms = x.arms := rfl
@[simp] theorem Core.setVreg_refused (x : Core) (r : Reg) (v : List Lane) : (x.setVreg r v).refused = x.refused := rfl
@[simp] theorem Core.setVreg_held (x : Core) (r : Reg) (v : List Lane) : (x.setVreg r v).held = x.held := rfl
@[simp] theorem Core.setVreg_frames (x : Core) (r : Reg) (v : List Lane) : (x.setVreg r v).frames = x.frames := rfl
@[simp] theorem Core.setVreg_stbuf (x : Core) (r : Reg) (v : List Lane) : (x.setVreg r v).stbuf = x.stbuf := rfl
@[simp] theorem Core.setVreg_itlb (x : Core) (r : Reg) (v : List Lane) : (x.setVreg r v).itlb = x.itlb := rfl
@[simp] theorem Core.setVreg_dtlb (x : Core) (r : Reg) (v : List Lane) : (x.setVreg r v).dtlb = x.dtlb := rfl
@[simp] theorem Core.setVreg_outst (x : Core) (r : Reg) (v : List Lane) : (x.setVreg r v).outst = x.outst := rfl
@[simp] theorem Core.setVreg_contribs (x : Core) (r : Reg) (v : List Lane) : (x.setVreg r v).contribs = x.contribs := rfl
@[simp] theorem Core.setVreg_members (x : Core) (r : Reg) (v : List Lane) : (x.setVreg r v).members = x.members := rfl
@[simp] theorem Core.setVreg_flights (x : Core) (r : Reg) (v : List Lane) : (x.setVreg r v).flights = x.flights := rfl
@[simp] theorem Core.setVreg_handles (x : Core) (r : Reg) (v : List Lane) : (x.setVreg r v).handles = x.handles := rfl
@[simp] theorem Core.setVreg_accs (x : Core) (r : Reg) (v : List Lane) : (x.setVreg r v).accs = x.accs := rfl
@[simp] theorem Core.setVreg_weight (x : Core) (r : Reg) (v : List Lane) : (x.setVreg r v).weight = x.weight := rfl
@[simp] theorem Core.setVreg_mq (x : Core) (r : Reg) (v : List Lane) : (x.setVreg r v).mq = x.mq := rfl
@[simp] theorem Core.setVreg_note (x : Core) (r : Reg) (v : List Lane) : (x.setVreg r v).note = x.note := rfl
@[simp] theorem Core.setVreg_lost (x : Core) (r : Reg) (v : List Lane) : (x.setVreg r v).lost = x.lost := rfl
@[simp] theorem Core.setVreg_resetAt (x : Core) (r : Reg) (v : List Lane) : (x.setVreg r v).resetAt = x.resetAt := rfl
@[simp] theorem Core.setVreg_retired (x : Core) (r : Reg) (v : List Lane) : (x.setVreg r v).retired = x.retired := rfl
@[simp] theorem Core.setVreg_dbgctl (x : Core) (r : Reg) (v : List Lane) : (x.setVreg r v).dbgctl = x.dbgctl := rfl
@[simp] theorem Core.setVreg_dbgq (x : Core) (r : Reg) (v : List Lane) : (x.setVreg r v).dbgq = x.dbgq := rfl
@[simp] theorem Core.setVreg_role (x : Core) (r : Reg) (v : List Lane) : (x.setVreg r v).role = x.role := rfl
@[simp] theorem Core.setVreg_index (x : Core) (r : Reg) (v : List Lane) : (x.setVreg r v).index = x.index := rfl
@[simp] theorem Core.setVreg_pagerReqs (x : Core) (r : Reg) (v : List Lane) : (x.setVreg r v).pagerReqs = x.pagerReqs := rfl
@[simp] theorem Core.setVreg_closed (x : Core) (r : Reg) (v : List Lane) : (x.setVreg r v).closed = x.closed := rfl
@[simp] theorem Core.setVreg_joining (x : Core) (r : Reg) (v : List Lane) : (x.setVreg r v).joining = x.joining := rfl
@[simp] theorem Core.setVreg_pooled (x : Core) (r : Reg) (v : List Lane) : (x.setVreg r v).pooled = x.pooled := rfl
@[simp] theorem Core.setVreg_replaced (x : Core) (r : Reg) (v : List Lane) : (x.setVreg r v).replaced = x.replaced := rfl
@[simp] theorem Core.setVreg_understudy (x : Core) (r : Reg) (v : List Lane) : (x.setVreg r v).understudy = x.understudy := rfl

@[simp] theorem Core.setMask_regs (x : Core) (r : Nat) (v : List Bool) : (x.setMask r v).regs = x.regs := rfl
@[simp] theorem Core.setMask_pc (x : Core) (r : Nat) (v : List Bool) : (x.setMask r v).pc = x.pc := rfl
@[simp] theorem Core.setMask_nflags (x : Core) (r : Nat) (v : List Bool) : (x.setMask r v).nflags = x.nflags := rfl
@[simp] theorem Core.setMask_nmode (x : Core) (r : Nat) (v : List Bool) : (x.setMask r v).nmode = x.nmode := rfl
@[simp] theorem Core.setMask_vl (x : Core) (r : Nat) (v : List Bool) : (x.setMask r v).vl = x.vl := rfl
@[simp] theorem Core.setMask_vregs (x : Core) (r : Nat) (v : List Bool) : (x.setMask r v).vregs = x.vregs := rfl
@[simp] theorem Core.setMask_blocks (x : Core) (r : Nat) (v : List Bool) : (x.setMask r v).blocks = x.blocks := rfl
@[simp] theorem Core.setMask_cond (x : Core) (r : Nat) (v : List Bool) : (x.setMask r v).cond = x.cond := rfl
@[simp] theorem Core.setMask_inst (x : Core) (r : Nat) (v : List Bool) : (x.setMask r v).inst = x.inst := rfl
@[simp] theorem Core.setMask_startedAt (x : Core) (r : Nat) (v : List Bool) : (x.setMask r v).startedAt = x.startedAt := rfl
@[simp] theorem Core.setMask_rows (x : Core) (r : Nat) (v : List Bool) : (x.setMask r v).rows = x.rows := rfl
@[simp] theorem Core.setMask_lastRow (x : Core) (r : Nat) (v : List Bool) : (x.setMask r v).lastRow = x.lastRow := rfl
@[simp] theorem Core.setMask_arms (x : Core) (r : Nat) (v : List Bool) : (x.setMask r v).arms = x.arms := rfl
@[simp] theorem Core.setMask_refused (x : Core) (r : Nat) (v : List Bool) : (x.setMask r v).refused = x.refused := rfl
@[simp] theorem Core.setMask_held (x : Core) (r : Nat) (v : List Bool) : (x.setMask r v).held = x.held := rfl
@[simp] theorem Core.setMask_frames (x : Core) (r : Nat) (v : List Bool) : (x.setMask r v).frames = x.frames := rfl
@[simp] theorem Core.setMask_stbuf (x : Core) (r : Nat) (v : List Bool) : (x.setMask r v).stbuf = x.stbuf := rfl
@[simp] theorem Core.setMask_itlb (x : Core) (r : Nat) (v : List Bool) : (x.setMask r v).itlb = x.itlb := rfl
@[simp] theorem Core.setMask_dtlb (x : Core) (r : Nat) (v : List Bool) : (x.setMask r v).dtlb = x.dtlb := rfl
@[simp] theorem Core.setMask_outst (x : Core) (r : Nat) (v : List Bool) : (x.setMask r v).outst = x.outst := rfl
@[simp] theorem Core.setMask_contribs (x : Core) (r : Nat) (v : List Bool) : (x.setMask r v).contribs = x.contribs := rfl
@[simp] theorem Core.setMask_members (x : Core) (r : Nat) (v : List Bool) : (x.setMask r v).members = x.members := rfl
@[simp] theorem Core.setMask_flights (x : Core) (r : Nat) (v : List Bool) : (x.setMask r v).flights = x.flights := rfl
@[simp] theorem Core.setMask_handles (x : Core) (r : Nat) (v : List Bool) : (x.setMask r v).handles = x.handles := rfl
@[simp] theorem Core.setMask_accs (x : Core) (r : Nat) (v : List Bool) : (x.setMask r v).accs = x.accs := rfl
@[simp] theorem Core.setMask_weight (x : Core) (r : Nat) (v : List Bool) : (x.setMask r v).weight = x.weight := rfl
@[simp] theorem Core.setMask_mq (x : Core) (r : Nat) (v : List Bool) : (x.setMask r v).mq = x.mq := rfl
@[simp] theorem Core.setMask_note (x : Core) (r : Nat) (v : List Bool) : (x.setMask r v).note = x.note := rfl
@[simp] theorem Core.setMask_lost (x : Core) (r : Nat) (v : List Bool) : (x.setMask r v).lost = x.lost := rfl
@[simp] theorem Core.setMask_resetAt (x : Core) (r : Nat) (v : List Bool) : (x.setMask r v).resetAt = x.resetAt := rfl
@[simp] theorem Core.setMask_retired (x : Core) (r : Nat) (v : List Bool) : (x.setMask r v).retired = x.retired := rfl
@[simp] theorem Core.setMask_dbgctl (x : Core) (r : Nat) (v : List Bool) : (x.setMask r v).dbgctl = x.dbgctl := rfl
@[simp] theorem Core.setMask_dbgq (x : Core) (r : Nat) (v : List Bool) : (x.setMask r v).dbgq = x.dbgq := rfl
@[simp] theorem Core.setMask_role (x : Core) (r : Nat) (v : List Bool) : (x.setMask r v).role = x.role := rfl
@[simp] theorem Core.setMask_index (x : Core) (r : Nat) (v : List Bool) : (x.setMask r v).index = x.index := rfl
@[simp] theorem Core.setMask_pagerReqs (x : Core) (r : Nat) (v : List Bool) : (x.setMask r v).pagerReqs = x.pagerReqs := rfl
@[simp] theorem Core.setMask_closed (x : Core) (r : Nat) (v : List Bool) : (x.setMask r v).closed = x.closed := rfl
@[simp] theorem Core.setMask_joining (x : Core) (r : Nat) (v : List Bool) : (x.setMask r v).joining = x.joining := rfl
@[simp] theorem Core.setMask_pooled (x : Core) (r : Nat) (v : List Bool) : (x.setMask r v).pooled = x.pooled := rfl
@[simp] theorem Core.setMask_replaced (x : Core) (r : Nat) (v : List Bool) : (x.setMask r v).replaced = x.replaced := rfl
@[simp] theorem Core.setMask_understudy (x : Core) (r : Nat) (v : List Bool) : (x.setMask r v).understudy = x.understudy := rfl

@[simp] theorem State.core_setCore_self (s : State) (k : CoreId) (x : Core) : (s.setCore k x).core k = x := Tbl.get_set_self _ _ _ _
theorem State.core_setCore_ne (s : State) (k i : CoreId) (x : Core) (h : i ≠ k) : (s.setCore k x).core i = s.core i :=
  Tbl.get_set_ne _ _ _ _ _ h
@[simp] theorem State.setCore_setCore (s : State) (k : CoreId) (x y : Core) : (s.setCore k x).setCore k y = s.setCore k y := by
  simp [State.setCore]

@[simp] theorem State.ens_setCore (s : State) (k : CoreId) (x : Core) (i : EnsId) : (s.setCore k x).ens i = s.ens i := rfl
@[simp] theorem State.engine_setCore (s : State) (k : CoreId) (x : Core) (i : Nat) : (s.setCore k x).engine i = s.engine i := rfl
@[simp] theorem State.group_setCore (s : State) (k : CoreId) (x : Core) (i : Nat) : (s.setCore k x).group i = s.group i := rfl
@[simp] theorem State.role_setCore (s : State) (k : CoreId) (x : Core) (i : Nat) : (s.setCore k x).role i = s.role i := rfl
@[simp] theorem State.former_setCore (s : State) (k : CoreId) (x : Core) (i : Nat) : (s.setCore k x).former i = s.former i := rfl
@[simp] theorem State.trunk_setCore (s : State) (k : CoreId) (x : Core) (i : Nat) : (s.setCore k x).trunk i = s.trunk i := rfl
@[simp] theorem State.cue_setCore (s : State) (k : CoreId) (x : Core) (i : Nat) : (s.setCore k x).cue i = s.cue i := rfl
@[simp] theorem State.tensor_setCore (s : State) (k : CoreId) (x : Core) (i : Nat) : (s.setCore k x).tensor i = s.tensor i := rfl
@[simp] theorem State.queue_setCore (s : State) (k : CoreId) (x : Core) (i : QKey) : (s.setCore k x).queue i = s.queue i := rfl

@[simp] theorem State.ens_setEns_self (s : State) (k : EnsId) (x : Ens) : (s.setEns k x).ens k = x := Tbl.get_set_self _ _ _ _
theorem State.ens_setEns_ne (s : State) (k i : EnsId) (x : Ens) (h : i ≠ k) : (s.setEns k x).ens i = s.ens i :=
  Tbl.get_set_ne _ _ _ _ _ h
@[simp] theorem State.setEns_setEns (s : State) (k : EnsId) (x y : Ens) : (s.setEns k x).setEns k y = s.setEns k y := by
  simp [State.setEns]

@[simp] theorem State.core_setEns (s : State) (k : EnsId) (x : Ens) (i : CoreId) : (s.setEns k x).core i = s.core i := rfl
@[simp] theorem State.engine_setEns (s : State) (k : EnsId) (x : Ens) (i : Nat) : (s.setEns k x).engine i = s.engine i := rfl
@[simp] theorem State.group_setEns (s : State) (k : EnsId) (x : Ens) (i : Nat) : (s.setEns k x).group i = s.group i := rfl
@[simp] theorem State.role_setEns (s : State) (k : EnsId) (x : Ens) (i : Nat) : (s.setEns k x).role i = s.role i := rfl
@[simp] theorem State.former_setEns (s : State) (k : EnsId) (x : Ens) (i : Nat) : (s.setEns k x).former i = s.former i := rfl
@[simp] theorem State.trunk_setEns (s : State) (k : EnsId) (x : Ens) (i : Nat) : (s.setEns k x).trunk i = s.trunk i := rfl
@[simp] theorem State.cue_setEns (s : State) (k : EnsId) (x : Ens) (i : Nat) : (s.setEns k x).cue i = s.cue i := rfl
@[simp] theorem State.tensor_setEns (s : State) (k : EnsId) (x : Ens) (i : Nat) : (s.setEns k x).tensor i = s.tensor i := rfl
@[simp] theorem State.queue_setEns (s : State) (k : EnsId) (x : Ens) (i : QKey) : (s.setEns k x).queue i = s.queue i := rfl

@[simp] theorem State.engine_setEngine_self (s : State) (k : Nat) (x : Engine) : (s.setEngine k x).engine k = x := Tbl.get_set_self _ _ _ _
theorem State.engine_setEngine_ne (s : State) (k i : Nat) (x : Engine) (h : i ≠ k) : (s.setEngine k x).engine i = s.engine i :=
  Tbl.get_set_ne _ _ _ _ _ h
@[simp] theorem State.setEngine_setEngine (s : State) (k : Nat) (x y : Engine) : (s.setEngine k x).setEngine k y = s.setEngine k y := by
  simp [State.setEngine]

@[simp] theorem State.core_setEngine (s : State) (k : Nat) (x : Engine) (i : CoreId) : (s.setEngine k x).core i = s.core i := rfl
@[simp] theorem State.ens_setEngine (s : State) (k : Nat) (x : Engine) (i : EnsId) : (s.setEngine k x).ens i = s.ens i := rfl
@[simp] theorem State.group_setEngine (s : State) (k : Nat) (x : Engine) (i : Nat) : (s.setEngine k x).group i = s.group i := rfl
@[simp] theorem State.role_setEngine (s : State) (k : Nat) (x : Engine) (i : Nat) : (s.setEngine k x).role i = s.role i := rfl
@[simp] theorem State.former_setEngine (s : State) (k : Nat) (x : Engine) (i : Nat) : (s.setEngine k x).former i = s.former i := rfl
@[simp] theorem State.trunk_setEngine (s : State) (k : Nat) (x : Engine) (i : Nat) : (s.setEngine k x).trunk i = s.trunk i := rfl
@[simp] theorem State.cue_setEngine (s : State) (k : Nat) (x : Engine) (i : Nat) : (s.setEngine k x).cue i = s.cue i := rfl
@[simp] theorem State.tensor_setEngine (s : State) (k : Nat) (x : Engine) (i : Nat) : (s.setEngine k x).tensor i = s.tensor i := rfl
@[simp] theorem State.queue_setEngine (s : State) (k : Nat) (x : Engine) (i : QKey) : (s.setEngine k x).queue i = s.queue i := rfl

@[simp] theorem State.group_setGroup_self (s : State) (k : Nat) (x : Group) : (s.setGroup k x).group k = x := Tbl.get_set_self _ _ _ _
theorem State.group_setGroup_ne (s : State) (k i : Nat) (x : Group) (h : i ≠ k) : (s.setGroup k x).group i = s.group i :=
  Tbl.get_set_ne _ _ _ _ _ h
@[simp] theorem State.setGroup_setGroup (s : State) (k : Nat) (x y : Group) : (s.setGroup k x).setGroup k y = s.setGroup k y := by
  simp [State.setGroup]

@[simp] theorem State.core_setGroup (s : State) (k : Nat) (x : Group) (i : CoreId) : (s.setGroup k x).core i = s.core i := rfl
@[simp] theorem State.ens_setGroup (s : State) (k : Nat) (x : Group) (i : EnsId) : (s.setGroup k x).ens i = s.ens i := rfl
@[simp] theorem State.engine_setGroup (s : State) (k : Nat) (x : Group) (i : Nat) : (s.setGroup k x).engine i = s.engine i := rfl
@[simp] theorem State.role_setGroup (s : State) (k : Nat) (x : Group) (i : Nat) : (s.setGroup k x).role i = s.role i := rfl
@[simp] theorem State.former_setGroup (s : State) (k : Nat) (x : Group) (i : Nat) : (s.setGroup k x).former i = s.former i := rfl
@[simp] theorem State.trunk_setGroup (s : State) (k : Nat) (x : Group) (i : Nat) : (s.setGroup k x).trunk i = s.trunk i := rfl
@[simp] theorem State.cue_setGroup (s : State) (k : Nat) (x : Group) (i : Nat) : (s.setGroup k x).cue i = s.cue i := rfl
@[simp] theorem State.tensor_setGroup (s : State) (k : Nat) (x : Group) (i : Nat) : (s.setGroup k x).tensor i = s.tensor i := rfl
@[simp] theorem State.queue_setGroup (s : State) (k : Nat) (x : Group) (i : QKey) : (s.setGroup k x).queue i = s.queue i := rfl

@[simp] theorem State.role_setRole_self (s : State) (k : Nat) (x : Role) : (s.setRole k x).role k = x := Tbl.get_set_self _ _ _ _
theorem State.role_setRole_ne (s : State) (k i : Nat) (x : Role) (h : i ≠ k) : (s.setRole k x).role i = s.role i :=
  Tbl.get_set_ne _ _ _ _ _ h
@[simp] theorem State.setRole_setRole (s : State) (k : Nat) (x y : Role) : (s.setRole k x).setRole k y = s.setRole k y := by
  simp [State.setRole]

@[simp] theorem State.core_setRole (s : State) (k : Nat) (x : Role) (i : CoreId) : (s.setRole k x).core i = s.core i := rfl
@[simp] theorem State.ens_setRole (s : State) (k : Nat) (x : Role) (i : EnsId) : (s.setRole k x).ens i = s.ens i := rfl
@[simp] theorem State.engine_setRole (s : State) (k : Nat) (x : Role) (i : Nat) : (s.setRole k x).engine i = s.engine i := rfl
@[simp] theorem State.group_setRole (s : State) (k : Nat) (x : Role) (i : Nat) : (s.setRole k x).group i = s.group i := rfl
@[simp] theorem State.former_setRole (s : State) (k : Nat) (x : Role) (i : Nat) : (s.setRole k x).former i = s.former i := rfl
@[simp] theorem State.trunk_setRole (s : State) (k : Nat) (x : Role) (i : Nat) : (s.setRole k x).trunk i = s.trunk i := rfl
@[simp] theorem State.cue_setRole (s : State) (k : Nat) (x : Role) (i : Nat) : (s.setRole k x).cue i = s.cue i := rfl
@[simp] theorem State.tensor_setRole (s : State) (k : Nat) (x : Role) (i : Nat) : (s.setRole k x).tensor i = s.tensor i := rfl
@[simp] theorem State.queue_setRole (s : State) (k : Nat) (x : Role) (i : QKey) : (s.setRole k x).queue i = s.queue i := rfl

@[simp] theorem State.former_setFormer_self (s : State) (k : Nat) (x : Former) : (s.setFormer k x).former k = x := Tbl.get_set_self _ _ _ _
theorem State.former_setFormer_ne (s : State) (k i : Nat) (x : Former) (h : i ≠ k) : (s.setFormer k x).former i = s.former i :=
  Tbl.get_set_ne _ _ _ _ _ h
@[simp] theorem State.setFormer_setFormer (s : State) (k : Nat) (x y : Former) : (s.setFormer k x).setFormer k y = s.setFormer k y := by
  simp [State.setFormer]

@[simp] theorem State.core_setFormer (s : State) (k : Nat) (x : Former) (i : CoreId) : (s.setFormer k x).core i = s.core i := rfl
@[simp] theorem State.ens_setFormer (s : State) (k : Nat) (x : Former) (i : EnsId) : (s.setFormer k x).ens i = s.ens i := rfl
@[simp] theorem State.engine_setFormer (s : State) (k : Nat) (x : Former) (i : Nat) : (s.setFormer k x).engine i = s.engine i := rfl
@[simp] theorem State.group_setFormer (s : State) (k : Nat) (x : Former) (i : Nat) : (s.setFormer k x).group i = s.group i := rfl
@[simp] theorem State.role_setFormer (s : State) (k : Nat) (x : Former) (i : Nat) : (s.setFormer k x).role i = s.role i := rfl
@[simp] theorem State.trunk_setFormer (s : State) (k : Nat) (x : Former) (i : Nat) : (s.setFormer k x).trunk i = s.trunk i := rfl
@[simp] theorem State.cue_setFormer (s : State) (k : Nat) (x : Former) (i : Nat) : (s.setFormer k x).cue i = s.cue i := rfl
@[simp] theorem State.tensor_setFormer (s : State) (k : Nat) (x : Former) (i : Nat) : (s.setFormer k x).tensor i = s.tensor i := rfl
@[simp] theorem State.queue_setFormer (s : State) (k : Nat) (x : Former) (i : QKey) : (s.setFormer k x).queue i = s.queue i := rfl

@[simp] theorem State.trunk_setTrunk_self (s : State) (k : Nat) (x : Trunk) : (s.setTrunk k x).trunk k = x := Tbl.get_set_self _ _ _ _
theorem State.trunk_setTrunk_ne (s : State) (k i : Nat) (x : Trunk) (h : i ≠ k) : (s.setTrunk k x).trunk i = s.trunk i :=
  Tbl.get_set_ne _ _ _ _ _ h
@[simp] theorem State.setTrunk_setTrunk (s : State) (k : Nat) (x y : Trunk) : (s.setTrunk k x).setTrunk k y = s.setTrunk k y := by
  simp [State.setTrunk]

@[simp] theorem State.core_setTrunk (s : State) (k : Nat) (x : Trunk) (i : CoreId) : (s.setTrunk k x).core i = s.core i := rfl
@[simp] theorem State.ens_setTrunk (s : State) (k : Nat) (x : Trunk) (i : EnsId) : (s.setTrunk k x).ens i = s.ens i := rfl
@[simp] theorem State.engine_setTrunk (s : State) (k : Nat) (x : Trunk) (i : Nat) : (s.setTrunk k x).engine i = s.engine i := rfl
@[simp] theorem State.group_setTrunk (s : State) (k : Nat) (x : Trunk) (i : Nat) : (s.setTrunk k x).group i = s.group i := rfl
@[simp] theorem State.role_setTrunk (s : State) (k : Nat) (x : Trunk) (i : Nat) : (s.setTrunk k x).role i = s.role i := rfl
@[simp] theorem State.former_setTrunk (s : State) (k : Nat) (x : Trunk) (i : Nat) : (s.setTrunk k x).former i = s.former i := rfl
@[simp] theorem State.cue_setTrunk (s : State) (k : Nat) (x : Trunk) (i : Nat) : (s.setTrunk k x).cue i = s.cue i := rfl
@[simp] theorem State.tensor_setTrunk (s : State) (k : Nat) (x : Trunk) (i : Nat) : (s.setTrunk k x).tensor i = s.tensor i := rfl
@[simp] theorem State.queue_setTrunk (s : State) (k : Nat) (x : Trunk) (i : QKey) : (s.setTrunk k x).queue i = s.queue i := rfl

@[simp] theorem State.cue_setCue_self (s : State) (k : Nat) (x : Cue) : (s.setCue k x).cue k = x := Tbl.get_set_self _ _ _ _
theorem State.cue_setCue_ne (s : State) (k i : Nat) (x : Cue) (h : i ≠ k) : (s.setCue k x).cue i = s.cue i :=
  Tbl.get_set_ne _ _ _ _ _ h
@[simp] theorem State.setCue_setCue (s : State) (k : Nat) (x y : Cue) : (s.setCue k x).setCue k y = s.setCue k y := by
  simp [State.setCue]

@[simp] theorem State.core_setCue (s : State) (k : Nat) (x : Cue) (i : CoreId) : (s.setCue k x).core i = s.core i := rfl
@[simp] theorem State.ens_setCue (s : State) (k : Nat) (x : Cue) (i : EnsId) : (s.setCue k x).ens i = s.ens i := rfl
@[simp] theorem State.engine_setCue (s : State) (k : Nat) (x : Cue) (i : Nat) : (s.setCue k x).engine i = s.engine i := rfl
@[simp] theorem State.group_setCue (s : State) (k : Nat) (x : Cue) (i : Nat) : (s.setCue k x).group i = s.group i := rfl
@[simp] theorem State.role_setCue (s : State) (k : Nat) (x : Cue) (i : Nat) : (s.setCue k x).role i = s.role i := rfl
@[simp] theorem State.former_setCue (s : State) (k : Nat) (x : Cue) (i : Nat) : (s.setCue k x).former i = s.former i := rfl
@[simp] theorem State.trunk_setCue (s : State) (k : Nat) (x : Cue) (i : Nat) : (s.setCue k x).trunk i = s.trunk i := rfl
@[simp] theorem State.tensor_setCue (s : State) (k : Nat) (x : Cue) (i : Nat) : (s.setCue k x).tensor i = s.tensor i := rfl
@[simp] theorem State.queue_setCue (s : State) (k : Nat) (x : Cue) (i : QKey) : (s.setCue k x).queue i = s.queue i := rfl

@[simp] theorem State.tensor_setTensor_self (s : State) (k : Nat) (x : Tensor) : (s.setTensor k x).tensor k = x := Tbl.get_set_self _ _ _ _
theorem State.tensor_setTensor_ne (s : State) (k i : Nat) (x : Tensor) (h : i ≠ k) : (s.setTensor k x).tensor i = s.tensor i :=
  Tbl.get_set_ne _ _ _ _ _ h
@[simp] theorem State.setTensor_setTensor (s : State) (k : Nat) (x y : Tensor) : (s.setTensor k x).setTensor k y = s.setTensor k y := by
  simp [State.setTensor]

@[simp] theorem State.core_setTensor (s : State) (k : Nat) (x : Tensor) (i : CoreId) : (s.setTensor k x).core i = s.core i := rfl
@[simp] theorem State.ens_setTensor (s : State) (k : Nat) (x : Tensor) (i : EnsId) : (s.setTensor k x).ens i = s.ens i := rfl
@[simp] theorem State.engine_setTensor (s : State) (k : Nat) (x : Tensor) (i : Nat) : (s.setTensor k x).engine i = s.engine i := rfl
@[simp] theorem State.group_setTensor (s : State) (k : Nat) (x : Tensor) (i : Nat) : (s.setTensor k x).group i = s.group i := rfl
@[simp] theorem State.role_setTensor (s : State) (k : Nat) (x : Tensor) (i : Nat) : (s.setTensor k x).role i = s.role i := rfl
@[simp] theorem State.former_setTensor (s : State) (k : Nat) (x : Tensor) (i : Nat) : (s.setTensor k x).former i = s.former i := rfl
@[simp] theorem State.trunk_setTensor (s : State) (k : Nat) (x : Tensor) (i : Nat) : (s.setTensor k x).trunk i = s.trunk i := rfl
@[simp] theorem State.cue_setTensor (s : State) (k : Nat) (x : Tensor) (i : Nat) : (s.setTensor k x).cue i = s.cue i := rfl
@[simp] theorem State.queue_setTensor (s : State) (k : Nat) (x : Tensor) (i : QKey) : (s.setTensor k x).queue i = s.queue i := rfl

@[simp] theorem State.queue_setQueue_self (s : State) (k : QKey) (x : Queue) : (s.setQueue k x).queue k = x := Tbl.get_set_self _ _ _ _
theorem State.queue_setQueue_ne (s : State) (k i : QKey) (x : Queue) (h : i ≠ k) : (s.setQueue k x).queue i = s.queue i :=
  Tbl.get_set_ne _ _ _ _ _ h
@[simp] theorem State.setQueue_setQueue (s : State) (k : QKey) (x y : Queue) : (s.setQueue k x).setQueue k y = s.setQueue k y := by
  simp [State.setQueue]

@[simp] theorem State.core_setQueue (s : State) (k : QKey) (x : Queue) (i : CoreId) : (s.setQueue k x).core i = s.core i := rfl
@[simp] theorem State.ens_setQueue (s : State) (k : QKey) (x : Queue) (i : EnsId) : (s.setQueue k x).ens i = s.ens i := rfl
@[simp] theorem State.engine_setQueue (s : State) (k : QKey) (x : Queue) (i : Nat) : (s.setQueue k x).engine i = s.engine i := rfl
@[simp] theorem State.group_setQueue (s : State) (k : QKey) (x : Queue) (i : Nat) : (s.setQueue k x).group i = s.group i := rfl
@[simp] theorem State.role_setQueue (s : State) (k : QKey) (x : Queue) (i : Nat) : (s.setQueue k x).role i = s.role i := rfl
@[simp] theorem State.former_setQueue (s : State) (k : QKey) (x : Queue) (i : Nat) : (s.setQueue k x).former i = s.former i := rfl
@[simp] theorem State.trunk_setQueue (s : State) (k : QKey) (x : Queue) (i : Nat) : (s.setQueue k x).trunk i = s.trunk i := rfl
@[simp] theorem State.cue_setQueue (s : State) (k : QKey) (x : Queue) (i : Nat) : (s.setQueue k x).cue i = s.cue i := rfl
@[simp] theorem State.tensor_setQueue (s : State) (k : QKey) (x : Queue) (i : Nat) : (s.setQueue k x).tensor i = s.tensor i := rfl

theorem State.updCore_def (s : State) (c : CoreId) (f : Core → Core) : s.updCore c f = s.setCore c (f (s.core c)) := rfl
@[simp] theorem State.core_updCore_self (s : State) (c : CoreId) (f : Core → Core) : (s.updCore c f).core c = f (s.core c) :=
  State.core_setCore_self _ _ _
theorem State.core_updCore_ne (s : State) (c i : CoreId) (f : Core → Core) (h : i ≠ c) : (s.updCore c f).core i = s.core i :=
  State.core_setCore_ne _ _ _ _ h
@[simp] theorem State.updCore_updCore (s : State) (c : CoreId) (f g : Core → Core) :
    (s.updCore c f).updCore c g = s.updCore c (fun x => g (f x)) := by
  simp [State.updCore_def]
@[simp] theorem State.setCore_updCore (s : State) (c : CoreId) (f : Core → Core) (x : Core) :
    (s.updCore c f).setCore c x = s.setCore c x := by
  simp [State.updCore_def]
@[simp] theorem State.updCore_setCore (s : State) (c : CoreId) (f : Core → Core) (x : Core) :
    (s.setCore c x).updCore c f = s.setCore c (f x) := by
  simp [State.updCore_def]
@[simp] theorem State.me_updCore (s : State) (f : Core → Core) : (s.updCore s.cur f).me = f s.me :=
  State.core_setCore_self _ _ _
@[simp] theorem State.me_setCore (s : State) (x : Core) : (s.setCore s.cur x).me = x :=
  State.core_setCore_self _ _ _

/-! ## Registers (02 R22) -/

@[simp] theorem Core.reg_zero (x : Core) : x.reg 0 = 0 := rfl

theorem Core.reg_of_ne (x : Core) (r : Reg) (h : r ≠ 0) : x.reg r = x.regs[r.toNat]'r.isLt := if_neg h

theorem Core.reg_setReg_self (x : Core) (r : Reg) (v : Word) (h : r ≠ 0) : (x.setReg r v).reg r = v := by
  rw [Core.reg_of_ne _ _ h]; unfold Core.setReg; rw [if_neg h]; exact Vector.getElem_set_self _

theorem Core.reg_setReg_ne (x : Core) (r q : Reg) (v : Word) (h : q ≠ r) : (x.setReg r v).reg q = x.reg q := by
  by_cases hq : q = 0
  · rw [hq]; rfl
  · by_cases h0 : r = 0
    · rw [h0]; rfl
    · rw [Core.reg_of_ne _ _ hq, Core.reg_of_ne _ _ hq]
      simp only [Core.setReg, if_neg h0]
      exact Vector.getElem_set_ne _ _ (fun e => h (BitVec.eq_of_toNat_eq e.symm))

@[simp] theorem Core.setReg_zero (x : Core) (v : Word) : x.setReg 0 v = x := rfl

theorem Core.reg_eq_of_regs (x y : Core) (h : x.regs = y.regs) (r : Reg) : x.reg r = y.reg r := by simp [Core.reg, h]

end Sys2Proof.Machine
end

