-- ==== Sys2Proof/Laws/Memory.lean ====
section
/-!
SUPPORT. The byte map: a read after a write, a write elsewhere, and the canonical form, which every operation keeps.
-/
namespace Sys2Proof.Machine

theorem Memory.get_of_lt (m : Memory) (a : Nat) (h : ∀ p ∈ m, a < p.1) : Memory.get m a = 0 := by
  induction m with
  | nil => rfl
  | cons p t ih =>
    obtain ⟨b, v⟩ := p
    have hb : a < b := h (b, v) (by simp)
    have : b ≠ a := by omega
    simp only [Memory.get, if_neg this]
    exact ih (fun q hq => h q (by simp [hq]))

theorem Memory.wf_tail {p : Host.Cell} {m : Memory} (h : Memory.wf (p :: m)) : Memory.wf m :=
  ⟨(List.pairwise_cons.mp h.1).2, fun q hq => h.2 q (by simp [hq])⟩

theorem Memory.get_set_self (m : Memory) (a : Nat) (v : Byte) (h : Memory.wf m) : Memory.get (Memory.set m a v) a = v := by
  induction m with
  | nil => by_cases hv : v = 0#8 <;> simp [Memory.set, hv, Memory.get]
  | cons p t ih =>
    obtain ⟨b, w⟩ := p
    have hlt : ∀ q ∈ t, b < q.1 := (List.pairwise_cons.mp h.1).1
    by_cases hb : b = a
    · subst hb
      by_cases hv : v = 0#8
      · simp [Memory.set, hv, Memory.get_of_lt t b hlt]
      · simp [Memory.set, hv, Memory.get]
    · by_cases h2 : a < b
      · by_cases hv : v = 0#8
        · subst hv
          simp only [Memory.set, if_neg hb, if_pos h2]; rw [if_pos (show (0#8 : Byte) = 0 from rfl)]
          refine Memory.get_of_lt _ a (fun q hq => ?_)
          rcases List.mem_cons.mp hq with rfl | hq
          · exact h2
          · have := hlt q hq; omega
        · simp [Memory.set, hb, h2, hv, Memory.get]
      · simp [Memory.set, hb, h2, Memory.get, ih (Memory.wf_tail h)]

theorem Memory.get_set_ne (m : Memory) (a i : Nat) (v : Byte) (h : i ≠ a) : Memory.get (Memory.set m a v) i = Memory.get m i := by
  induction m with
  | nil => by_cases hv : v = 0#8 <;> simp [Memory.set, hv, Memory.get, Ne.symm h]
  | cons p t ih =>
    obtain ⟨b, w⟩ := p
    by_cases hb : b = a
    · subst hb
      by_cases hv : v = 0#8 <;> simp [Memory.set, hv, Memory.get, Ne.symm h]
    · by_cases h2 : a < b
      · by_cases hv : v = 0#8 <;> simp [Memory.set, hb, h2, hv, Memory.get, Ne.symm h]
      · simp only [Memory.set, if_neg hb, if_neg h2, Memory.get, ih]

theorem Memory.mem_set (m : Memory) (a : Nat) (v : Byte) (q : Host.Cell) (h : q ∈ Memory.set m a v) : q = (a, v) ∨ q ∈ m := by
  induction m with
  | nil =>
    by_cases hv : v = 0#8
    · simp [Memory.set, hv] at h
    · simp [Memory.set, hv] at h; exact .inl h
  | cons p t ih =>
    obtain ⟨b, w⟩ := p
    by_cases hb : b = a
    · by_cases hv : v = 0#8
      · simp [Memory.set, hb, hv] at h; exact .inr (by simp [h])
      · simp [Memory.set, hb, hv] at h
        rcases h with h | h
        · exact .inl h
        · exact .inr (by simp [h])
    · by_cases h2 : a < b
      · by_cases hv : v = 0#8
        · simp [Memory.set, hb, h2, hv] at h; exact .inr (by simpa using h)
        · simp [Memory.set, hb, h2, hv] at h
          rcases h with h | h
          · exact .inl h
          · exact .inr (by simpa using h)
      · simp only [Memory.set, if_neg hb, if_neg h2] at h
        rcases List.mem_cons.mp h with h | h
        · exact .inr (by simp [h])
        · rcases ih h with h | h
          · exact .inl h
          · exact .inr (by simp [h])

/-- Writing a byte keeps the canonical form. -/
theorem Memory.set_wf (m : Memory) (a : Nat) (v : Byte) (h : Memory.wf m) : Memory.wf (Memory.set m a v) := by
  induction m with
  | nil =>
    by_cases hv : v = 0#8
    · simp [Memory.set, hv, Memory.wf]
    · simp [Memory.set, hv, Memory.wf]
  | cons p t ih =>
    obtain ⟨b, w⟩ := p
    have hlt : ∀ q ∈ t, b < q.1 := (List.pairwise_cons.mp h.1).1
    have ht := Memory.wf_tail h
    by_cases hb : b = a
    · subst hb
      by_cases hv : v = 0#8
      · simpa [Memory.set, hv] using ht
      · rw [Memory.set, if_pos rfl, if_neg (show ¬ v = 0 from hv)]
        refine ⟨List.pairwise_cons.mpr ⟨hlt, ht.1⟩, fun q hq => ?_⟩
        rcases List.mem_cons.mp hq with rfl | hq
        · exact hv
        · exact ht.2 q hq
    · by_cases h2 : a < b
      · by_cases hv : v = 0#8
        · simpa [Memory.set, hb, h2, hv] using h
        · rw [Memory.set, if_neg hb, if_pos h2, if_neg (show ¬ v = 0 from hv)]
          refine ⟨List.pairwise_cons.mpr ⟨fun q hq => ?_, h.1⟩, fun q hq => ?_⟩
          · rcases List.mem_cons.mp hq with rfl | hq
            · exact h2
            · have := hlt q hq; simp only at *; omega
          · rcases List.mem_cons.mp hq with rfl | hq
            · exact hv
            · exact h.2 q hq
      · simp only [Memory.set, if_neg hb, if_neg h2]
        have ih' := ih ht
        refine ⟨List.pairwise_cons.mpr ⟨fun q hq => ?_, ih'.1⟩, fun q hq => ?_⟩
        · rcases Memory.mem_set t a v q hq with rfl | hq
          · simp only; omega
          · exact hlt q hq
        · rcases List.mem_cons.mp hq with rfl | hq
          · exact h.2 _ (by simp)
          · exact ih'.2 q hq

theorem Memory.setBytes_wf (m : Memory) (a : Nat) (bs : List Byte) (h : Memory.wf m) : Memory.wf (Memory.setBytes m a bs) := by
  induction bs generalizing m a with
  | nil => exact h
  | cons b t ih => exact ih _ _ (Memory.set_wf m a b h)

/-- Bytes outside a write read as before. -/
theorem Memory.get_setBytes_out (m : Memory) (a i : Nat) (bs : List Byte) (h : i < a ∨ a + bs.length ≤ i) :
    Memory.get (Memory.setBytes m a bs) i = Memory.get m i := by
  induction bs generalizing m a with
  | nil => rfl
  | cons b t ih =>
    simp only [List.length_cons] at h
    rw [Memory.setBytes, ih _ _ (by omega), Memory.get_set_ne _ _ _ _ (by omega)]

/-- Bytes inside a write read as written. -/
theorem Memory.get_setBytes_in (m : Memory) (a k : Nat) (bs : List Byte) (hm : Memory.wf m) (h : k < bs.length) :
    Memory.get (Memory.setBytes m a bs) (a + k) = bs[k] := by
  induction bs generalizing m a k with
  | nil => simp at h
  | cons b t ih =>
    cases k with
    | zero =>
      rw [Memory.setBytes, Memory.get_setBytes_out _ _ _ _ (by omega)]
      exact Memory.get_set_self m a b hm
    | succ k =>
      have := ih (Memory.set m a b) (a + 1) k (Memory.set_wf m a b hm) (by simpa using h)
      rw [Memory.setBytes, show a + (k + 1) = a + 1 + k by omega, this]; rfl

theorem Memory.getBytes_length (m : Memory) (a n : Nat) : (Memory.getBytes m a n).length = n := by simp [Memory.getBytes]

/-- A read of what was just written. -/
theorem Memory.getBytes_setBytes (m : Memory) (a : Nat) (bs : List Byte) (hm : Memory.wf m) :
    Memory.getBytes (Memory.setBytes m a bs) a bs.length = bs := by
  apply List.ext_getElem (by simp [Memory.getBytes])
  intro k h1 h2
  simp only [Memory.getBytes, List.getElem_map, List.getElem_range]
  exact Memory.get_setBytes_in m a k bs hm h2

/-- The memory right after reset is in canonical form. -/
theorem reset_mem_wf : Memory.wf State.reset.mem := by decide

end Sys2Proof.Machine
end

