-- ==== Sys2Proof/Laws/Ops.lean ====
section
/-!
SUPPORT. What the steps of a computation do, one by one, and how an instruction ends: with its effect, with a fault
taken, parked, or waiting.
-/
namespace Sys2Proof.Machine

/-! ## Computations -/

@[simp] theorem Op.pure_apply {α : Type} (a : α) (s : State) : (pure a : Op α) s = .ok (a, s) := rfl
@[simp] theorem Op.bind_apply {α β : Type} (m : Op α) (f : α → Op β) (s : State) :
    (m >>= f) s = match m s with
      | .ok (a, t) => f a t
      | .error e => .error e := by
  show (StateT.bind m f) s = _
  simp only [StateT.bind, bind, Except.bind]
  cases m s <;> rfl
@[simp] theorem rd_apply (r : Reg) (s : State) : rd r s = .ok (s.me.reg r, s) := rfl
@[simp] theorem wr_apply (r : Reg) (v : Word) (s : State) : wr r v s = .ok ((), s.updCore s.cur (·.setReg r v)) := rfl
@[simp] theorem getMe_apply (s : State) : getMe s = .ok (s.me, s) := rfl
@[simp] theorem modMe_apply (f : Core → Core) (s : State) : modMe f s = .ok ((), s.updCore s.cur f) := rfl
@[simp] theorem getCur_apply (s : State) : getCur s = .ok (s.cur, s) := rfl
@[simp] theorem getState_apply (s : State) : getState s = .ok (s, s) := rfl
@[simp] theorem setState_apply (t s : State) : setState t s = .ok ((), t) := rfl
@[simp] theorem modState_apply (f : State → State) (s : State) : modState f s = .ok ((), f s) := rfl
@[simp] theorem trap_apply {α : Type} (code : BitVec 8) (d : Word) (s : State) :
    (trap code d : Op α) s = .error (.trap code d) := rfl
@[simp] theorem waitHere_apply {α : Type} (s : State) : (waitHere : Op α) s = .error .wait := rfl
@[simp] theorem check_true (code : BitVec 8) (d : Word) (s : State) : check true code d s = .ok ((), s) := rfl
@[simp] theorem check_false (code : BitVec 8) (d : Word) (s : State) : check false code d s = .error (.trap code d) := rfl
@[simp] theorem modes_apply (s : State) : modes s = .ok (modesOf s.me.nmode, s) := rfl
@[simp] theorem raise_apply (f : Flags) (s : State) :
    raise f s = .ok ((), s.updCore s.cur (fun x => { x with nflags := x.nflags ||| f.setWidth 64 })) := rfl
@[simp] theorem advance_apply (len : Word) (s : State) :
    advance len s = .ok ((), s.updCore s.cur (fun x => { x with pc := x.pc + len })) := rfl
theorem check_of {b : Bool} (h : b = true) (code : BitVec 8) (d : Word) (s : State) : check b code d s = .ok ((), s) := by
  rw [h]; rfl
theorem check_fails {b : Bool} (h : b = false) (code : BitVec 8) (d : Word) (s : State) :
    check b code d s = .error (.trap code d) := by
  rw [h]; rfl
@[simp] theorem needService_apply (s : State) : needService s = check (s.coreSvc s.cur) cPRIV s.openDetail s := rfl

/-! ## How an instruction ends -/

/-- An instruction that completes retires. -/
theorem run_ok {m : Op Unit} {s t : State} (h : m s = .ok ((), t)) :
    run m s = .next (t.updCore s.cur (fun x => { x with retired := x.retired + 1 })) := by
  simp [run, settle, h]

theorem run_trap {m : Op Unit} {s : State} {code : BitVec 8} {d : Word} (h : m s = .error (.trap code d)) :
    run m s = .next (s.takeFault s.cur code d) := by
  simp [run, settle, h]

theorem run_page {m : Op Unit} {s : State} {p : PageFault} (h : m s = .error (.page p)) :
    run m s = .next (s.pageFault s.cur p) := by
  simp [run, settle, h]

theorem run_wait {m : Op Unit} {s : State} (h : m s = .error .wait) : run m s = .next s := by
  simp [run, settle, h]

theorem run_ecc {m : Op Unit} {s : State} {e : EccErr} (h : m s = .error (.ecc e)) :
    run m s = .next (s.takeEcc s.cur e) := by
  simp [run, settle, h]

/-- Every instruction answers a next state. -/
theorem run_next (m : Op Unit) (s : State) : ∃ t, run m s = .next t := ⟨_, rfl⟩

/-- An instruction that transfers no control: its effect, then the pc past it, then it retires. -/
theorem run_straight {len : Word} {m : Op Unit} {s t : State} (h : m s = .ok ((), t)) (hc : t.cur = s.cur) :
    run (straight len m) s = .next (t.updCore s.cur (fun x => { x with pc := x.pc + len, retired := x.retired + 1 })) := by
  have : straight len m s = .ok ((), t.updCore s.cur (fun x => { x with pc := x.pc + len })) := by
    simp [straight, h, hc]
  rw [run_ok this]; simp

theorem straight_error {len : Word} {m : Op Unit} {s : State} {e : Stop} (h : m s = .error e) :
    straight len m s = .error e := by
  simp [straight, h]

/-- An instruction whose effect is on the acting core alone. -/
theorem run_straight_core {len : Word} {m : Op Unit} {s : State} {f : Core → Core} (h : m s = .ok ((), s.updCore s.cur f))
    (hp : (f s.me).pc = s.me.pc) (hr : (f s.me).retired = s.me.retired) : run (straight len m) s = .next (s.after len f) := by
  rw [run_straight h rfl]
  simp only [State.updCore_updCore]
  have e : ({ f s.me with pc := (f s.me).pc + len, retired := (f s.me).retired + 1 } : Core) =
      { f s.me with pc := s.me.pc + len, retired := s.me.retired + 1 } := by rw [hp, hr]
  exact congrArg (fun x => Host.Outcome.next (s.setCore s.cur x)) e

/-! ## Scalar shapes (05) -/

theorem alu_next (d a b : Reg) (f : Word → Word → Word) (s : State) :
    run (alu d a b f) s = .next (s.after 4 (fun x => x.setReg d (f (x.reg a) (x.reg b)))) := by
  refine run_straight_core (f := fun x => x.setReg d (f (x.reg a) (x.reg b))) ?_ (by simp) (by simp)
  simp [State.updCore_def, State.me]

theorem aluImm_next (len : Word) (d a : Reg) (f : Word → Word) (s : State) :
    run (aluImm len d a f) s = .next (s.after len (fun x => x.setReg d (f (x.reg a)))) := by
  refine run_straight_core (f := fun x => x.setReg d (f (x.reg a))) ?_ (by simp) (by simp)
  simp [State.updCore_def, State.me]

theorem branch_next (len disp : Word) (a b : Reg) (taken : Word → Word → Bool) (s : State) :
    run (branch len disp a b taken) s = .next (s.after (if taken (s.me.reg a) (s.me.reg b) then disp <<< 2 else len) id) := by
  have : branch len disp a b taken s = .ok ((), s.updCore s.cur (fun x =>
      { x with pc := x.pc + (if taken (s.me.reg a) (s.me.reg b) then disp <<< 2 else len) })) := by
    simp [branch]
  rw [run_ok this]; simp [State.after]

end Sys2Proof.Machine
end

