-- ==== Sys2Proof/Laws/PerInstr.lean ====
section
/-!
SUPPORT. The round trip of every instruction: a well-formed instruction that has an encoding is what the decoder reads
from its bytes, whatever follows them (02 R28–R41).
-/
namespace Sys2Proof.Laws.RoundTrip
open Sys2Proof Sys2Proof.Machine

/-- Decoding the bytes of a well-formed instruction that has an encoding gives it back, with its length. -/
def Statement (i : Instr) : Prop :=
  i.wf = true → encode i ≠ [] → ∀ rest, decode (encodeBytes i ++ rest) = .ok i (4 * (encode i).length) rest

theorem short {i : Instr} {w : IWord} (he : encode i = [w]) (hp : isPrefix w = false) (hd : decodeRaw w = .ok i) :
    Statement i := by
  intro hw _ rest
  simp [encodeBytes, he, decode_short w rest hp, decodeShort, hd, checkWf, hw]

theorem event {i : Instr} (he : encode i = []) : Statement i := fun _ h => absurd he h

theorem decodeVec_of {i : Instr} {op : VOp} {f : VFields} (ht : toV i = some (op, f)) (hi : ofV op f = i) :
    decodeRaw (eV (vspec op).major f (vspec op).func) = .ok i := by
  have h : decodeVec (vspec op).major.toNat (vspec op).func.toNat f = .ok i := by
    have hv : vopOf (vspec op).major.toNat (vspec op).func.toNat = some op := by cases op <;> rfl
    simp [decodeVec, hv, hi, ht]
  rw [← h]
  cases op <;> simp [decodeRaw, vspec]

theorem vec {i : Instr} {op : VOp} {f : VFields} (ht : toV i = some (op, f)) (hi : ofV op f = i)
    (he : encode i = [eV (vspec op).major f (vspec op).func]) : Statement i :=
  short he (by rw [isPrefix, fMaj_eV]; cases op <;> rfl) (decodeVec_of ht hi)

/-- An IX prefix before a word that decodes. -/
theorem decodeLong_ix {p : BitVec 22} {w2 : IWord} (i : Instr) {j : Instr} (hn : isPrefix w2 = false)
    (hr : decodeRaw w2 = .ok i) (hi : i.wf = true) (he : extendIx p i = .ok j) (hj : j.wf = true) :
    decodeLong (ePre 1#4 p) w2 = .ok j := by
  have hs : decodeShort w2 = .ok i := by rw [decodeShort, hr, checkWf, if_pos hi]
  unfold decodeLong
  rw [hn, fKind_ePre, fPay_ePre, hs]
  simp [he, checkWf, hj]

/-- A VX prefix before a word that decodes. -/
theorem decodeLong_vx {p : BitVec 22} {w2 : IWord} (i : Instr) {j : Instr} (hn : isPrefix w2 = false)
    (hr : decodeRaw w2 = .ok i) (hi : i.wf = true) (he : extendVx p i = .ok j) (hj : j.wf = true) :
    decodeLong (ePre 0#4 p) w2 = .ok j := by
  have hs : decodeShort w2 = .ok i := by rw [decodeShort, hr, checkWf, if_pos hi]
  unfold decodeLong
  rw [hn, fKind_ePre, fPay_ePre, hs]
  simp [he, checkWf, hj]

/-- A long form whose second word decodes. -/
theorem long {i : Instr} {w w2 : IWord} (he : encode i = [w, w2]) (hp : takesTwo w = true)
    (hd : i.wf = true → decodeLong w w2 = .ok i) : Statement i := by
  intro hw _ rest
  simp [encodeBytes, he, decode_long w w2 rest hp, hd hw]

theorem takesTwo_ePre (k : BitVec 4) (p : BitVec 22) (h : k.toNat < 3) : takesTwo (ePre k p) = true := by
  simp [takesTwo, isPrefix, h]

theorem ix_addi (d a : Reg) (i : BitVec 32) : Statement (.ixLongForm .addi d a i) :=
  long (w := ePre 1#4 (0#3 ++ i.extractLsb' 13 19)) (w2 := eI 0x02#6 d a 0#3 (i.extractLsb' 0 13)) rfl (takesTwo_ePre _ _ (by decide)) (fun hw =>
    decodeLong_ix (.addi d a (i.extractLsb' 0 13)) (by simp [isPrefix]) (by simp [decodeRaw, decodeImm]) hw (by simp [extendIx]) hw)

theorem ix_andi (d a : Reg) (i : BitVec 32) : Statement (.ixLongForm .andi d a i) :=
  long (w := ePre 1#4 (0#3 ++ i.extractLsb' 13 19)) (w2 := eI 0x02#6 d a 1#3 (i.extractLsb' 0 13)) rfl (takesTwo_ePre _ _ (by decide)) (fun hw =>
    decodeLong_ix (.andi d a (i.extractLsb' 0 13)) (by simp [isPrefix]) (by simp [decodeRaw, decodeImm]) hw (by simp [extendIx]) hw)

theorem ix_ori (d a : Reg) (i : BitVec 32) : Statement (.ixLongForm .ori d a i) :=
  long (w := ePre 1#4 (0#3 ++ i.extractLsb' 13 19)) (w2 := eI 0x02#6 d a 2#3 (i.extractLsb' 0 13)) rfl (takesTwo_ePre _ _ (by decide)) (fun hw =>
    decodeLong_ix (.ori d a (i.extractLsb' 0 13)) (by simp [isPrefix]) (by simp [decodeRaw, decodeImm]) hw (by simp [extendIx]) hw)

theorem ix_xori (d a : Reg) (i : BitVec 32) : Statement (.ixLongForm .xori d a i) :=
  long (w := ePre 1#4 (0#3 ++ i.extractLsb' 13 19)) (w2 := eI 0x02#6 d a 3#3 (i.extractLsb' 0 13)) rfl (takesTwo_ePre _ _ (by decide)) (fun hw =>
    decodeLong_ix (.xori d a (i.extractLsb' 0 13)) (by simp [isPrefix]) (by simp [decodeRaw, decodeImm]) hw (by simp [extendIx]) hw)

theorem ix_slti (d a : Reg) (i : BitVec 32) : Statement (.ixLongForm .slti d a i) :=
  long (w := ePre 1#4 (0#3 ++ i.extractLsb' 13 19)) (w2 := eI 0x02#6 d a 4#3 (i.extractLsb' 0 13)) rfl (takesTwo_ePre _ _ (by decide)) (fun hw =>
    decodeLong_ix (.slti d a (i.extractLsb' 0 13)) (by simp [isPrefix]) (by simp [decodeRaw, decodeImm]) hw (by simp [extendIx]) hw)

theorem ix_sltiu (d a : Reg) (i : BitVec 32) : Statement (.ixLongForm .sltiu d a i) :=
  long (w := ePre 1#4 (0#3 ++ i.extractLsb' 13 19)) (w2 := eI 0x02#6 d a 5#3 (i.extractLsb' 0 13)) rfl (takesTwo_ePre _ _ (by decide)) (fun hw =>
    decodeLong_ix (.sltiu d a (i.extractLsb' 0 13)) (by simp [isPrefix]) (by simp [decodeRaw, decodeImm]) hw (by simp [extendIx]) hw)

theorem ix_beq (d a : Reg) (i : BitVec 32) : Statement (.ixLongForm .beq d a i) :=
  long (w := ePre 1#4 (0#3 ++ i.extractLsb' 13 19)) (w2 := eI 0x04#6 d a 0#3 (i.extractLsb' 0 13)) rfl (takesTwo_ePre _ _ (by decide)) (fun hw =>
    decodeLong_ix (.beq d a (i.extractLsb' 0 13)) (by simp [isPrefix]) (by simp [decodeRaw, decodeBranch]) hw (by simp [extendIx]) hw)

theorem ix_bne (d a : Reg) (i : BitVec 32) : Statement (.ixLongForm .bne d a i) :=
  long (w := ePre 1#4 (0#3 ++ i.extractLsb' 13 19)) (w2 := eI 0x04#6 d a 1#3 (i.extractLsb' 0 13)) rfl (takesTwo_ePre _ _ (by decide)) (fun hw =>
    decodeLong_ix (.bne d a (i.extractLsb' 0 13)) (by simp [isPrefix]) (by simp [decodeRaw, decodeBranch]) hw (by simp [extendIx]) hw)

theorem ix_blt (d a : Reg) (i : BitVec 32) : Statement (.ixLongForm .blt d a i) :=
  long (w := ePre 1#4 (0#3 ++ i.extractLsb' 13 19)) (w2 := eI 0x04#6 d a 2#3 (i.extractLsb' 0 13)) rfl (takesTwo_ePre _ _ (by decide)) (fun hw =>
    decodeLong_ix (.blt d a (i.extractLsb' 0 13)) (by simp [isPrefix]) (by simp [decodeRaw, decodeBranch]) hw (by simp [extendIx]) hw)

theorem ix_bge (d a : Reg) (i : BitVec 32) : Statement (.ixLongForm .bge d a i) :=
  long (w := ePre 1#4 (0#3 ++ i.extractLsb' 13 19)) (w2 := eI 0x04#6 d a 3#3 (i.extractLsb' 0 13)) rfl (takesTwo_ePre _ _ (by decide)) (fun hw =>
    decodeLong_ix (.bge d a (i.extractLsb' 0 13)) (by simp [isPrefix]) (by simp [decodeRaw, decodeBranch]) hw (by simp [extendIx]) hw)

theorem ix_bltu (d a : Reg) (i : BitVec 32) : Statement (.ixLongForm .bltu d a i) :=
  long (w := ePre 1#4 (0#3 ++ i.extractLsb' 13 19)) (w2 := eI 0x04#6 d a 4#3 (i.extractLsb' 0 13)) rfl (takesTwo_ePre _ _ (by decide)) (fun hw =>
    decodeLong_ix (.bltu d a (i.extractLsb' 0 13)) (by simp [isPrefix]) (by simp [decodeRaw, decodeBranch]) hw (by simp [extendIx]) hw)

theorem ix_bgeu (d a : Reg) (i : BitVec 32) : Statement (.ixLongForm .bgeu d a i) :=
  long (w := ePre 1#4 (0#3 ++ i.extractLsb' 13 19)) (w2 := eI 0x04#6 d a 5#3 (i.extractLsb' 0 13)) rfl (takesTwo_ePre _ _ (by decide)) (fun hw =>
    decodeLong_ix (.bgeu d a (i.extractLsb' 0 13)) (by simp [isPrefix]) (by simp [decodeRaw, decodeBranch]) hw (by simp [extendIx]) hw)

theorem ix_jalr (d a : Reg) (i : BitVec 32) : Statement (.ixLongForm .jalr d a i) :=
  long (w := ePre 1#4 (0#3 ++ i.extractLsb' 13 19)) (w2 := eI 0x06#6 d a 0#3 (i.extractLsb' 0 13)) rfl (takesTwo_ePre _ _ (by decide)) (fun hw =>
    decodeLong_ix (.jalr d a (i.extractLsb' 0 13)) (by simp [isPrefix]) (by simp [decodeRaw]) hw (by simp [extendIx]) hw)

theorem ix_ldB (d a : Reg) (i : BitVec 32) : Statement (.ixLongForm .ldB d a i) :=
  long (w := ePre 1#4 (0#3 ++ i.extractLsb' 13 19)) (w2 := eI 0x08#6 d a 0#3 (i.extractLsb' 0 13)) rfl (takesTwo_ePre _ _ (by decide)) (fun hw =>
    decodeLong_ix (.ldB d a (i.extractLsb' 0 13)) (by simp [isPrefix]) (by simp [decodeRaw, decodeLoad]) hw (by simp [extendIx]) hw)

theorem ix_ldH (d a : Reg) (i : BitVec 32) : Statement (.ixLongForm .ldH d a i) :=
  long (w := ePre 1#4 (0#3 ++ i.extractLsb' 13 19)) (w2 := eI 0x08#6 d a 1#3 (i.extractLsb' 0 13)) rfl (takesTwo_ePre _ _ (by decide)) (fun hw =>
    decodeLong_ix (.ldH d a (i.extractLsb' 0 13)) (by simp [isPrefix]) (by simp [decodeRaw, decodeLoad]) hw (by simp [extendIx]) hw)

theorem ix_ldW (d a : Reg) (i : BitVec 32) : Statement (.ixLongForm .ldW d a i) :=
  long (w := ePre 1#4 (0#3 ++ i.extractLsb' 13 19)) (w2 := eI 0x08#6 d a 2#3 (i.extractLsb' 0 13)) rfl (takesTwo_ePre _ _ (by decide)) (fun hw =>
    decodeLong_ix (.ldW d a (i.extractLsb' 0 13)) (by simp [isPrefix]) (by simp [decodeRaw, decodeLoad]) hw (by simp [extendIx]) hw)

theorem ix_ldD (d a : Reg) (i : BitVec 32) : Statement (.ixLongForm .ldD d a i) :=
  long (w := ePre 1#4 (0#3 ++ i.extractLsb' 13 19)) (w2 := eI 0x08#6 d a 3#3 (i.extractLsb' 0 13)) rfl (takesTwo_ePre _ _ (by decide)) (fun hw =>
    decodeLong_ix (.ldD d a (i.extractLsb' 0 13)) (by simp [isPrefix]) (by simp [decodeRaw, decodeLoad]) hw (by simp [extendIx]) hw)

theorem ix_ldBu (d a : Reg) (i : BitVec 32) : Statement (.ixLongForm .ldBu d a i) :=
  long (w := ePre 1#4 (0#3 ++ i.extractLsb' 13 19)) (w2 := eI 0x08#6 d a 4#3 (i.extractLsb' 0 13)) rfl (takesTwo_ePre _ _ (by decide)) (fun hw =>
    decodeLong_ix (.ldBu d a (i.extractLsb' 0 13)) (by simp [isPrefix]) (by simp [decodeRaw, decodeLoad]) hw (by simp [extendIx]) hw)

theorem ix_ldHu (d a : Reg) (i : BitVec 32) : Statement (.ixLongForm .ldHu d a i) :=
  long (w := ePre 1#4 (0#3 ++ i.extractLsb' 13 19)) (w2 := eI 0x08#6 d a 5#3 (i.extractLsb' 0 13)) rfl (takesTwo_ePre _ _ (by decide)) (fun hw =>
    decodeLong_ix (.ldHu d a (i.extractLsb' 0 13)) (by simp [isPrefix]) (by simp [decodeRaw, decodeLoad]) hw (by simp [extendIx]) hw)

theorem ix_ldWu (d a : Reg) (i : BitVec 32) : Statement (.ixLongForm .ldWu d a i) :=
  long (w := ePre 1#4 (0#3 ++ i.extractLsb' 13 19)) (w2 := eI 0x08#6 d a 6#3 (i.extractLsb' 0 13)) rfl (takesTwo_ePre _ _ (by decide)) (fun hw =>
    decodeLong_ix (.ldWu d a (i.extractLsb' 0 13)) (by simp [isPrefix]) (by simp [decodeRaw, decodeLoad]) hw (by simp [extendIx]) hw)

theorem ix_ldQ (d a : Reg) (i : BitVec 32) : Statement (.ixLongForm .ldQ d a i) :=
  long (w := ePre 1#4 (0#3 ++ i.extractLsb' 13 19)) (w2 := eI 0x08#6 d a 7#3 (i.extractLsb' 0 13)) rfl (takesTwo_ePre _ _ (by decide)) (fun hw =>
    decodeLong_ix (.ldQ d a (i.extractLsb' 0 13)) (by simp [isPrefix]) (by simp [decodeRaw, decodeLoad]) hw (by simp [extendIx]) hw)

theorem ix_stB (d a : Reg) (i : BitVec 32) : Statement (.ixLongForm .stB d a i) :=
  long (w := ePre 1#4 (0#3 ++ i.extractLsb' 13 19)) (w2 := eI 0x09#6 d a 0#3 (i.extractLsb' 0 13)) rfl (takesTwo_ePre _ _ (by decide)) (fun hw =>
    decodeLong_ix (.stB d a (i.extractLsb' 0 13)) (by simp [isPrefix]) (by simp [decodeRaw, decodeStore]) hw (by simp [extendIx]) hw)

theorem ix_stH (d a : Reg) (i : BitVec 32) : Statement (.ixLongForm .stH d a i) :=
  long (w := ePre 1#4 (0#3 ++ i.extractLsb' 13 19)) (w2 := eI 0x09#6 d a 1#3 (i.extractLsb' 0 13)) rfl (takesTwo_ePre _ _ (by decide)) (fun hw =>
    decodeLong_ix (.stH d a (i.extractLsb' 0 13)) (by simp [isPrefix]) (by simp [decodeRaw, decodeStore]) hw (by simp [extendIx]) hw)

theorem ix_stW (d a : Reg) (i : BitVec 32) : Statement (.ixLongForm .stW d a i) :=
  long (w := ePre 1#4 (0#3 ++ i.extractLsb' 13 19)) (w2 := eI 0x09#6 d a 2#3 (i.extractLsb' 0 13)) rfl (takesTwo_ePre _ _ (by decide)) (fun hw =>
    decodeLong_ix (.stW d a (i.extractLsb' 0 13)) (by simp [isPrefix]) (by simp [decodeRaw, decodeStore]) hw (by simp [extendIx]) hw)

theorem ix_stD (d a : Reg) (i : BitVec 32) : Statement (.ixLongForm .stD d a i) :=
  long (w := ePre 1#4 (0#3 ++ i.extractLsb' 13 19)) (w2 := eI 0x09#6 d a 3#3 (i.extractLsb' 0 13)) rfl (takesTwo_ePre _ _ (by decide)) (fun hw =>
    decodeLong_ix (.stD d a (i.extractLsb' 0 13)) (by simp [isPrefix]) (by simp [decodeRaw, decodeStore]) hw (by simp [extendIx]) hw)

theorem ix_stQ (d a : Reg) (i : BitVec 32) : Statement (.ixLongForm .stQ d a i) :=
  long (w := ePre 1#4 (0#3 ++ i.extractLsb' 13 19)) (w2 := eI 0x09#6 d a 4#3 (i.extractLsb' 0 13)) rfl (takesTwo_ePre _ _ (by decide)) (fun hw =>
    decodeLong_ix (.stQ d a (i.extractLsb' 0 13)) (by simp [isPrefix]) (by simp [decodeRaw, decodeStore]) hw (by simp [extendIx]) hw)

theorem ixLongForm (op : IxOp) (d a : Reg) (i : BitVec 32) : Statement (.ixLongForm op d a i) := by
  cases op
  · exact ix_addi d a i
  · exact ix_andi d a i
  · exact ix_ori d a i
  · exact ix_xori d a i
  · exact ix_slti d a i
  · exact ix_sltiu d a i
  · exact ix_beq d a i
  · exact ix_bne d a i
  · exact ix_blt d a i
  · exact ix_bge d a i
  · exact ix_bltu d a i
  · exact ix_bgeu d a i
  · exact ix_jalr d a i
  · exact ix_ldB d a i
  · exact ix_ldH d a i
  · exact ix_ldW d a i
  · exact ix_ldD d a i
  · exact ix_ldBu d a i
  · exact ix_ldHu d a i
  · exact ix_ldWu d a i
  · exact ix_ldQ d a i
  · exact ix_stB d a i
  · exact ix_stH d a i
  · exact ix_stW d a i
  · exact ix_stD d a i
  · exact ix_stQ d a i

theorem float_size : ∀ (e : BitVec 2), (0b0011#4).getLsbD e.toNat = true →
    (0#1 ++ BitVec.extractLsb' 0 1 e : BitVec 2) = e := by decide

theorem full_size : ∀ (e : BitVec 2), e.toNat = 0 → (0#2 = e) = True := by decide

theorem legal_of {op : VOp} {f g : VFields} (ht : toV (ofV op f) = some (op, g)) (hw : (ofV op f).wf = vfOk op g)
    (he : g = f) (h : vfOk op f = true) : toV (ofV op f) = some (op, f) ∧ (ofV op f).wf = true := by
  subst he; exact ⟨ht, hw.trans h⟩

theorem ofV_legal (op : VOp) (f : VFields) (h : vfOk op f = true) :
    toV (ofV op f) = some (op, f) ∧ (ofV op f).wf = true := by
  cases op
  · exact legal_of rfl rfl (by cases f; simp [vfOk, vspec, srcOk, dstOk] at h; simp [h]) h
  · exact legal_of rfl rfl (by cases f; simp [vfOk, vspec, srcOk, dstOk] at h; simp [h]) h
  · exact legal_of rfl rfl (by cases f; simp [vfOk, vspec, srcOk, dstOk] at h; simp [h]) h
  · exact legal_of rfl rfl (by cases f; simp [vfOk, vspec, srcOk, dstOk] at h; simp [h]) h
  · exact legal_of rfl rfl (by cases f; simp [vfOk, vspec, srcOk, dstOk] at h; simp [h]) h
  · exact legal_of rfl rfl (by cases f; simp [vfOk, vspec, srcOk, dstOk] at h; simp [h]) h
  · exact legal_of rfl rfl (by cases f; simp [vfOk, vspec, srcOk, dstOk] at h; simp [h]) h
  · exact legal_of rfl rfl (by cases f; simp [vfOk, vspec, srcOk, dstOk] at h; simp [h]) h
  · exact legal_of rfl rfl (by cases f; simp [vfOk, vspec, srcOk, dstOk] at h; simp [h]) h
  · exact legal_of rfl rfl (by cases f; simp [vfOk, vspec, srcOk, dstOk] at h; simp [h]) h
  · exact legal_of rfl rfl (by cases f; simp [vfOk, vspec, srcOk, dstOk] at h; simp [h]) h
  · exact legal_of rfl rfl (by cases f; simp [vfOk, vspec, srcOk, dstOk] at h; simp [h]) h
  · exact legal_of rfl rfl (by cases f; simp [vfOk, vspec, srcOk, dstOk] at h; simp [h]) h
  · exact legal_of rfl rfl (by cases f; simp [vfOk, vspec, srcOk, dstOk] at h; simp [h]) h
  · exact legal_of rfl rfl (by cases f; simp [vfOk, vspec, srcOk, dstOk] at h; simp [h]) h
  · exact legal_of rfl rfl (by cases f; simp [vfOk, vspec, srcOk, dstOk] at h; simp [h]) h
  · exact legal_of rfl rfl (by cases f; simp [vfOk, vspec, srcOk, dstOk] at h; simp [h]) h
  · exact legal_of rfl rfl (by cases f; simp [vfOk, vspec, srcOk, dstOk] at h; simp [h]) h
  · exact legal_of rfl rfl (by cases f; simp [vfOk, vspec, srcOk, dstOk] at h; simp [h]) h
  · exact legal_of rfl rfl (by cases f; simp [vfOk, vspec, srcOk, dstOk] at h; simp [h]) h
  · exact legal_of rfl rfl (by cases f; simp [vfOk, vspec, srcOk, dstOk] at h; simp [h]) h
  · exact legal_of rfl rfl (by cases f; simp [vfOk, vspec, srcOk, dstOk] at h; simp [h]) h
  · exact legal_of rfl rfl (by cases f; simp [vfOk, vspec, srcOk, dstOk] at h; simp [h]) h
  · exact legal_of rfl rfl (by cases f; simp [vfOk, vspec, srcOk, dstOk] at h; simp [h]) h
  · exact legal_of rfl rfl (by cases f; simp [vfOk, vspec, srcOk, dstOk] at h; simp [h]) h
  · exact legal_of rfl rfl (by cases f; simp [vfOk, vspec, srcOk, dstOk] at h; simp [h]) h
  · exact legal_of rfl rfl (by cases f; simp [vfOk, vspec, srcOk, dstOk] at h; simp [h]) h
  · exact legal_of rfl rfl (by cases f; simp [vfOk, vspec, srcOk, dstOk] at h; simp [h, float_size]) h
  · exact legal_of rfl rfl (by cases f; simp [vfOk, vspec, srcOk, dstOk] at h; simp [h, float_size]) h
  · exact legal_of rfl rfl (by cases f; simp [vfOk, vspec, srcOk, dstOk] at h; simp [h, float_size]) h
  · exact legal_of rfl rfl (by cases f; simp [vfOk, vspec, srcOk, dstOk] at h; simp [h, float_size]) h
  · exact legal_of rfl rfl (by cases f; simp [vfOk, vspec, srcOk, dstOk] at h; simp [h, float_size]) h
  · exact legal_of rfl rfl (by cases f; simp [vfOk, vspec, srcOk, dstOk] at h; simp [h, float_size]) h
  · exact legal_of rfl rfl (by cases f; simp [vfOk, vspec, srcOk, dstOk] at h; simp [h, float_size]) h
  · exact legal_of rfl rfl (by cases f; simp [vfOk, vspec, srcOk, dstOk] at h; simp [h, float_size]) h
  · exact legal_of rfl rfl (by cases f; simp [vfOk, vspec, srcOk, dstOk] at h; simp [h, float_size]) h
  · exact legal_of rfl rfl (by cases f; simp [vfOk, vspec, srcOk, dstOk] at h; simp [h, float_size]) h
  · exact legal_of rfl rfl (by cases f; simp [vfOk, vspec, srcOk, dstOk] at h; simp [h, float_size]) h
  · exact legal_of rfl rfl (by cases f; simp [vfOk, vspec, srcOk, dstOk] at h; simp [h, float_size]) h
  · exact legal_of rfl rfl (by cases f; simp [vfOk, vspec, srcOk, dstOk] at h; simp [h, full_size]) h
  · exact legal_of rfl rfl (by cases f; simp [vfOk, vspec, srcOk, dstOk] at h; simp [h, full_size]) h
  · exact legal_of rfl rfl (by cases f; simp [vfOk, vspec, srcOk, dstOk] at h; simp [h, full_size]) h
  · exact legal_of rfl rfl (by cases f; simp [vfOk, vspec, srcOk, dstOk] at h; simp [h, full_size]) h
  · exact legal_of rfl rfl (by cases f; simp [vfOk, vspec, srcOk, dstOk] at h; simp [h, full_size]) h
  · exact legal_of rfl rfl (by cases f; simp [vfOk, vspec, srcOk, dstOk] at h; simp [h, full_size]) h
  · exact legal_of rfl rfl (by cases f; simp [vfOk, vspec, srcOk, dstOk] at h; simp [h, full_size]) h
  · exact legal_of rfl rfl (by cases f; simp [vfOk, vspec, srcOk, dstOk] at h; simp [h, full_size]) h
  · exact legal_of rfl rfl (by cases f; simp [vfOk, vspec, srcOk, dstOk] at h; simp [h, full_size]) h
  · exact legal_of rfl rfl (by cases f; simp [vfOk, vspec, srcOk, dstOk] at h; simp [h, full_size]) h
  · exact legal_of rfl rfl (by cases f; simp [vfOk, vspec, srcOk, dstOk] at h; simp [h, full_size]) h
  · exact legal_of rfl rfl (by cases f; simp [vfOk, vspec, srcOk, dstOk] at h; simp [h, full_size]) h
  · exact legal_of rfl rfl (by cases f; simp [vfOk, vspec, srcOk, dstOk] at h; simp [h, full_size]) h
  · exact legal_of rfl rfl (by cases f; simp [vfOk, vspec, srcOk, dstOk] at h; simp [h, full_size]) h
  · exact legal_of rfl rfl (by cases f; simp [vfOk, vspec, srcOk, dstOk] at h; simp [h, full_size]) h
  · exact legal_of rfl rfl (by cases f; simp [vfOk, vspec, srcOk, dstOk] at h; simp [h]) h
  · exact legal_of rfl rfl (by cases f; simp [vfOk, vspec, srcOk, dstOk] at h; simp [h]) h
  · exact legal_of rfl rfl (by cases f; simp [vfOk, vspec, srcOk, dstOk] at h; simp [h]) h
  · exact legal_of rfl rfl (by cases f; simp [vfOk, vspec, srcOk, dstOk] at h; simp [h]) h
  · exact legal_of rfl rfl (by cases f; simp [vfOk, vspec, srcOk, dstOk] at h; simp [h]) h
  · exact legal_of rfl rfl (by cases f; simp [vfOk, vspec, srcOk, dstOk] at h; simp [h]) h
  · exact legal_of rfl rfl (by cases f; simp [vfOk, vspec, srcOk, dstOk] at h; simp [h]) h
  · exact legal_of rfl rfl (by cases f; simp [vfOk, vspec, srcOk, dstOk] at h; simp [h]) h
  · exact legal_of rfl rfl (by cases f; simp [vfOk, vspec, srcOk, dstOk] at h; simp [h, full_size]) h
  · exact legal_of rfl rfl (by cases f; simp [vfOk, vspec, srcOk, dstOk] at h; simp [h]) h
  · exact legal_of rfl rfl (by cases f; simp [vfOk, vspec, srcOk, dstOk] at h; simp [h, full_size]) h
  · exact legal_of rfl rfl (by cases f; simp [vfOk, vspec, srcOk, dstOk] at h; simp [h, full_size]) h
  · exact legal_of rfl rfl (by cases f; simp [vfOk, vspec, srcOk, dstOk] at h; simp [h, full_size]) h
  · exact legal_of rfl rfl (by cases f; simp [vfOk, vspec, srcOk, dstOk] at h; simp [h]) h
  · exact legal_of rfl rfl (by cases f; simp [vfOk, vspec, srcOk, dstOk] at h; simp [h]) h
  · exact legal_of rfl rfl (by cases f; simp [vfOk, vspec, srcOk, dstOk] at h; simp [h]) h
  · exact legal_of rfl rfl (by cases f; simp [vfOk, vspec, srcOk, dstOk] at h; simp [h]) h
  · exact legal_of rfl rfl (by cases f; simp [vfOk, vspec, srcOk, dstOk] at h; simp [h]) h
  · exact legal_of rfl rfl (by cases f; simp [vfOk, vspec, srcOk, dstOk] at h; simp [h]) h
  · exact legal_of rfl rfl (by cases f; simp [vfOk, vspec, srcOk, dstOk] at h; simp [h]) h
  · exact legal_of rfl rfl (by cases f; simp [vfOk, vspec, srcOk, dstOk] at h; simp [h]) h
  · exact legal_of rfl rfl (by cases f; simp [vfOk, vspec, srcOk, dstOk] at h; simp [h, float_size]) h
  · exact legal_of rfl rfl (by cases f; simp [vfOk, vspec, srcOk, dstOk] at h; simp [h, float_size]) h
  · exact legal_of rfl rfl (by cases f; simp [vfOk, vspec, srcOk, dstOk] at h; simp [h, float_size]) h
  · exact legal_of rfl rfl (by cases f; simp [vfOk, vspec, srcOk, dstOk] at h; simp [h, float_size]) h
  · exact legal_of rfl rfl rfl h
  · exact legal_of rfl rfl rfl h
  · exact legal_of rfl rfl rfl h
  · exact legal_of rfl rfl rfl h
  · exact legal_of rfl rfl rfl h
  · exact legal_of rfl rfl (by cases f; simp [vfOk, vspec, srcOk, dstOk] at h; simp [h]) h
  · exact legal_of rfl rfl (by cases f; simp [vfOk, vspec, srcOk, dstOk] at h; simp [h]) h
  · exact legal_of rfl rfl (by cases f; simp [vfOk, vspec, srcOk, dstOk] at h; simp [h]) h
  · exact legal_of rfl rfl (by cases f; simp [vfOk, vspec, srcOk, dstOk] at h; simp [h]) h
  · exact legal_of rfl rfl (by cases f; simp [vfOk, vspec, srcOk, dstOk] at h; simp [h]) h
  · exact legal_of rfl rfl (by cases f; simp [vfOk, vspec, srcOk, dstOk] at h; simp [h]) h
  · exact legal_of rfl rfl (by cases f; simp [vfOk, vspec, srcOk, dstOk] at h; simp [h]) h
  · exact legal_of rfl rfl (by cases f; simp [vfOk, vspec, srcOk, dstOk] at h; simp [h, full_size]) h
  · exact legal_of rfl rfl (by cases f; simp [vfOk, vspec, srcOk, dstOk] at h; simp [h, full_size]) h
  · exact legal_of rfl rfl (by cases f; simp [vfOk, vspec, srcOk, dstOk] at h; simp [h]) h
  · exact legal_of rfl rfl (by cases f; simp [vfOk, vspec, srcOk, dstOk] at h; simp [h]) h
  · exact legal_of rfl rfl (by cases f; simp [vfOk, vspec, srcOk, dstOk] at h; simp [h, float_size]) h
  · exact legal_of rfl rfl (by cases f; simp [vfOk, vspec, srcOk, dstOk] at h; simp [h, float_size]) h
  · exact legal_of rfl rfl (by cases f; simp [vfOk, vspec, srcOk, dstOk] at h; simp [h]) h
  · exact legal_of rfl rfl (by cases f; simp [vfOk, vspec, srcOk, dstOk] at h; simp [h]) h
  · exact legal_of rfl rfl (by cases f; simp [vfOk, vspec, srcOk, dstOk] at h; simp [h, full_size]) h
  · exact legal_of rfl rfl (by cases f; simp [vfOk, vspec, srcOk, dstOk] at h; simp [h, full_size]) h
  · exact legal_of rfl rfl (by cases f; simp [vfOk, vspec, srcOk, dstOk] at h; simp [h, full_size]) h
  · exact legal_of rfl rfl (by cases f; simp [vfOk, vspec, srcOk, dstOk] at h; simp [h, full_size]) h
  · exact legal_of rfl rfl (by cases f; simp [vfOk, vspec, srcOk, dstOk] at h; simp [h, full_size]) h
  · exact legal_of rfl rfl (by cases f; simp [vfOk, vspec, srcOk, dstOk] at h; simp [h, full_size]) h
  · exact legal_of rfl rfl (by cases f; simp [vfOk, vspec, srcOk, dstOk] at h; simp [h, full_size]) h
  · exact legal_of rfl rfl (by cases f; simp [vfOk, vspec, srcOk, dstOk] at h; simp [h, full_size]) h
  · exact legal_of rfl rfl (by cases f; simp [vfOk, vspec, srcOk, dstOk] at h; simp [h, full_size]) h
  · exact legal_of rfl rfl (by cases f; simp [vfOk, vspec, srcOk, dstOk] at h; simp [h, full_size]) h

theorem vxLongForm (op : VOp) (f : VFields) (x : VxFields) : Statement (.vxLongForm op f x) :=
  long (w := ePre 0#4 (eVx x)) (w2 := eV (vspec op).major f (vspec op).func) rfl (takesTwo_ePre _ _ (by decide)) (fun hw => by
    have hx : vxOk op f x = true := hw
    have hf : vfOk op f = true := by simp [vxOk] at hx; simp [hx]
    obtain ⟨ht, hwf⟩ := ofV_legal op f hf
    have hr := decodeVec_of ht rfl
    have hn : isPrefix (eV (vspec op).major f (vspec op).func) = false := by rw [isPrefix, fMaj_eV]; cases op <;> rfl
    exact decodeLong_vx _ hn hr hwf (by simp [extendVx, ht]) hw)

theorem stxCue (d a b c : Reg) (w : BitVec 2) : Statement (.stxCue d a b c w) :=
  long (w := ePre 2#4 (0#1 ++ c ++ 0#16)) (w2 := eA 0x0E#6 d a b 2#5 (0#4 ++ w)) rfl (takesTwo_ePre _ _ (by decide)) (fun _ => by
    unfold decodeLong
    rw [isPrefix, fMaj_eA, fKind_ePre, fPay_ePre]
    simp [extendOx])

theorem storeApply (c : CoreId) (id : Nat) : Statement (.storeApply c id) := event rfl
theorem tlbiComplete (id : Nat) : Statement (.tlbiComplete id) := event rfl
theorem atomicResultReturn (c : CoreId) (inst : Nat) : Statement (.atomicResultReturn c inst) := event rfl
theorem orderWaitEnd (c : CoreId) (inst : Nat) : Statement (.orderWaitEnd c inst) := event rfl
theorem redfArrival (x : Contribution) : Statement (.redfArrival x) := event rfl
theorem redfResend (x : Contribution) : Statement (.redfResend x) := event rfl
theorem redfCellTimeout (addr : Nat) : Statement (.redfCellTimeout addr) := event rfl
theorem armamentRegister (c : CoreId) (slot j : Nat) : Statement (.armamentRegister c slot j) := event rfl
theorem armamentFire (dw : Nat) : Statement (.armamentFire dw) := event rfl
theorem barrierArrival (x : Arrival) : Statement (.barrierArrival x) := event rfl
theorem barrierRelease (x : Release) : Statement (.barrierRelease x) := event rfl
theorem qdestroyEffect (q : QKey) (force : Bool) : Statement (.qdestroyEffect q force) := event rfl
theorem pushArrival (p : Push) : Statement (.pushArrival p) := event rfl
theorem flowCreditReturn (c : CoreId) (qid : BitVec 32) : Statement (.flowCreditReturn c qid) := event rfl
theorem refillStart (q : QKey) : Statement (.refillStart q) := event rfl
theorem refillLand (q : QKey) : Statement (.refillLand q) := event rfl
theorem calderaLoss (q : QKey) : Statement (.calderaLoss q) := event rfl
theorem createInstance (c : CoreId) : Statement (.createInstance c) := event rfl
theorem preemptPriority7 (c : CoreId) : Statement (.preemptPriority7 c) := event rfl
theorem serviceStop (x : SvcEvent) : Statement (.serviceStop x) := event rfl
theorem serviceKill (x : SvcEvent) : Statement (.serviceKill x) := event rfl
theorem serviceCkpt (x : SvcEvent) : Statement (.serviceCkpt x) := event rfl
theorem budgetOverrun (c : CoreId) : Statement (.budgetOverrun c) := event rfl
theorem farLoadTimeout (c : CoreId) : Statement (.farLoadTimeout c) := event rfl
theorem farLoadReturn (c : CoreId) (inst : Nat) : Statement (.farLoadReturn c inst) := event rfl
theorem translationTimeout (c : CoreId) : Statement (.translationTimeout c) := event rfl
theorem walkComplete (c : CoreId) (inst : Nat) : Statement (.walkComplete c inst) := event rfl
theorem orderWaitTimeout (c : CoreId) : Statement (.orderWaitTimeout c) := event rfl
theorem atomicResultTimeout (c : CoreId) : Statement (.atomicResultTimeout c) := event rfl
theorem issueWaitTimeout (c : CoreId) : Statement (.issueWaitTimeout c) := event rfl
theorem pagerRequestRetry (c : CoreId) (inst : Nat) : Statement (.pagerRequestRetry c inst) := event rfl
theorem migrationCommand (x : MigCmd) : Statement (.migrationCommand x) := event rfl
theorem migrationComplete (frame : BitVec 40) : Statement (.migrationComplete frame) := event rfl
theorem remoteRequestArrival (x : RemoteReq) : Statement (.remoteRequestArrival x) := event rfl
theorem remoteAcknowledge (x : RemoteAck) : Statement (.remoteAcknowledge x) := event rfl
theorem landingAckAtOrigin (cue : BitVec 32) : Statement (.landingAckAtOrigin cue) := event rfl
theorem landingNotice (cue : BitVec 32) : Statement (.landingNotice cue) := event rfl
theorem failureNotice (cue : BitVec 32) : Statement (.failureNotice cue) := event rfl
theorem cueFailure (cue : BitVec 32) : Statement (.cueFailure cue) := event rfl
theorem watch (cue : BitVec 32) (w : Watcher) : Statement (.watch cue w) := event rfl
theorem watchResend (cue : BitVec 32) : Statement (.watchResend cue) := event rfl
theorem heldStoreExpiry (id : Nat) : Statement (.heldStoreExpiry id) := event rfl
theorem cueEntryFree (slot : BitVec 12) : Statement (.cueEntryFree slot) := event rfl
theorem cueqAnswer (x : CueqRes) : Statement (.cueqAnswer x) := event rfl
theorem remoteResult (x : RemoteRes) : Statement (.remoteResult x) := event rfl
theorem flitReceive (trunk : BitVec 6) (f : Flit) : Statement (.flitReceive trunk f) := event rfl
theorem ackTimeout (trunk : BitVec 6) : Statement (.ackTimeout trunk) := event rfl
theorem laneFault (trunk : BitVec 6) (lane : Nat) : Statement (.laneFault trunk lane) := event rfl
theorem retrainComplete (trunk : BitVec 6) : Statement (.retrainComplete trunk) := event rfl
theorem rqforkExecute (bf : BitVec 2) : Statement (.rqforkExecute bf) := event rfl
theorem bfstepExecute (bf : BitVec 2) : Statement (.bfstepExecute bf) := event rfl
theorem poolCoreMove (bf : BitVec 2) : Statement (.poolCoreMove bf) := event rfl
theorem smplShardArrival (bf : BitVec 2) : Statement (.smplShardArrival bf) := event rfl
theorem mergeComplete (bf : BitVec 2) : Statement (.mergeComplete bf) := event rfl
theorem mergeDeadline (bf : BitVec 2) : Statement (.mergeDeadline bf) := event rfl
theorem beamExecute (bf : BitVec 2) : Statement (.beamExecute bf) := event rfl
theorem matrixAccept (e : EnsId) : Statement (.matrixAccept e) := event rfl
theorem mloadbExecute (e : EnsId) (id : Nat) : Statement (.mloadbExecute e id) := event rfl
theorem mmaExecute (e : EnsId) (id : Nat) : Statement (.mmaExecute e id) := event rfl
theorem mdrainExecute (e : EnsId) (id : Nat) : Statement (.mdrainExecute e id) := event rfl
theorem mzeroExecute (e : EnsId) (id : Nat) : Statement (.mzeroExecute e id) := event rfl
theorem mbinvExecute (e : EnsId) (id : Nat) : Statement (.mbinvExecute e id) := event rfl
theorem mnotePush (e : EnsId) (id : Nat) : Statement (.mnotePush e id) := event rfl
theorem xcopyExecute (eng : BitVec 6) (id n : Nat) : Statement (.xcopyExecute eng id n) := event rfl
theorem xfillExecute (eng : BitVec 6) (id n : Nat) : Statement (.xfillExecute eng id n) := event rfl
theorem xredRootArrival (eng : BitVec 6) (x : RankArrival) : Statement (.xredRootArrival eng x) := event rfl
theorem xredChunk (eng : BitVec 6) (key : BitVec 32) (far : List FarChunk) (result : FarResult) : Statement (.xredChunk eng key far result) := event rfl
theorem xredDeadline (root : BitVec 12) (eng : BitVec 6) (key : BitVec 32) : Statement (.xredDeadline root eng key) := event rfl
theorem load (x : LoadCause) : Statement (.load x) := event rfl
theorem remove : Statement (.remove) := event rfl
theorem recast : Statement (.recast) := event rfl
theorem query : Statement (.query) := event rfl
theorem map : Statement (.map) := event rfl
theorem unmap : Statement (.unmap) := event rfl
theorem lifetime : Statement (.lifetime) := event rfl
theorem append : Statement (.append) := event rfl
theorem take : Statement (.take) := event rfl
theorem epoch : Statement (.epoch) := event rfl
theorem resume : Statement (.resume) := event rfl
theorem period : Statement (.period) := event rfl
theorem epochTimer (load : Nat) : Statement (.epochTimer load) := event rfl
theorem inputClose (c : CoreId) (q : QKey) : Statement (.inputClose c q) := event rfl
theorem curtainRetry (role : Nat) (qid : BitVec 32) : Statement (.curtainRetry role qid) := event rfl
theorem recastForward (role : Nat) : Statement (.recastForward role) := event rfl
theorem recastInstall (role : Nat) : Statement (.recastInstall role) := event rfl
theorem recastDeadline (role : Nat) : Statement (.recastDeadline role) := event rfl
theorem hostSubmission (page offset : Nat) (bytes : List Byte) : Statement (.hostSubmission page offset bytes) := event rfl
theorem hostPostedWrite (page offset : Nat) : Statement (.hostPostedWrite page offset) := event rfl
theorem hostReply (page : Nat) (reply : BitVec 128) : Statement (.hostReply page reply) := event rfl
theorem eccError (x : EccErr) : Statement (.eccError x) := event rfl
theorem selfTestEnd (id : Nat) (lasting : Bool) : Statement (.selfTestEnd id lasting) := event rfl
theorem coreRetire (c : CoreId) (lost : List Nat) : Statement (.coreRetire c lost) := event rfl
theorem errorLogClear (kind : BitVec 3) (n entry : Nat) : Statement (.errorLogClear kind n entry) := event rfl
theorem injectionArm (kind : BitVec 3) (n : Nat) (v : Word) : Statement (.injectionArm kind n v) := event rfl
theorem retentionControl (kind : BitVec 3) (n : Nat) (on : Bool) : Statement (.retentionControl kind n on) := event rfl
theorem monitorControl (m : Nat) (ctl : Word) : Statement (.monitorControl m ctl) := event rfl
theorem monitorSample (m v : Nat) : Statement (.monitorSample m v) := event rfl
theorem powerInterval (watts : Nat) (hot : List Nat) : Statement (.powerInterval watts hot) := event rfl
theorem packageFailure (pkg : BitVec 12) : Statement (.packageFailure pkg) := event rfl
theorem startUp : Statement (.startUp) := event rfl
theorem registerWrite (t : RegTarget) (v : Word) : Statement (.registerWrite t v) := event rfl
theorem illEncoding (w : IWord) (w2 : Option IWord) : Statement (.illEncoding w w2) := event rfl
theorem landedCueCacheExpiry (cue : BitVec 32) : Statement (.landedCueCacheExpiry cue) := event rfl
theorem retentionTransitionEnd (kind : BitVec 3) (n : Nat) : Statement (.retentionTransitionEnd kind n) := event rfl
theorem hostImageArrival (bytes : List Byte) : Statement (.hostImageArrival bytes) := event rfl
theorem add (d a b : Reg) (w : BitVec 1) : Statement (.add d a b w) :=
  short rfl (by simp [isPrefix]) (by simp [decodeRaw, decodeReg, used])
theorem sub (d a b : Reg) (w : BitVec 1) : Statement (.sub d a b w) :=
  short rfl (by simp [isPrefix]) (by simp [decodeRaw, decodeReg, used])
theorem and (d a b : Reg) : Statement (.and d a b) :=
  short rfl (by simp [isPrefix]) (by simp [decodeRaw, decodeReg, used])
theorem or (d a b : Reg) : Statement (.or d a b) :=
  short rfl (by simp [isPrefix]) (by simp [decodeRaw, decodeReg, used])
theorem xor (d a b : Reg) : Statement (.xor d a b) :=
  short rfl (by simp [isPrefix]) (by simp [decodeRaw, decodeReg, used])
theorem sll (d a b : Reg) (w : BitVec 1) : Statement (.sll d a b w) :=
  short rfl (by simp [isPrefix]) (by simp [decodeRaw, decodeReg, used])
theorem srl (d a b : Reg) (w : BitVec 1) : Statement (.srl d a b w) :=
  short rfl (by simp [isPrefix]) (by simp [decodeRaw, decodeReg, used])
theorem sra (d a b : Reg) (w : BitVec 1) : Statement (.sra d a b w) :=
  short rfl (by simp [isPrefix]) (by simp [decodeRaw, decodeReg, used])
theorem mul (d a b : Reg) (w : BitVec 1) : Statement (.mul d a b w) :=
  short rfl (by simp [isPrefix]) (by simp [decodeRaw, decodeReg, used])
theorem mulh (d a b : Reg) : Statement (.mulh d a b) :=
  short rfl (by simp [isPrefix]) (by simp [decodeRaw, decodeReg, used])
theorem mulhu (d a b : Reg) : Statement (.mulhu d a b) :=
  short rfl (by simp [isPrefix]) (by simp [decodeRaw, decodeReg, used])
theorem div (d a b : Reg) (w : BitVec 1) : Statement (.div d a b w) :=
  short rfl (by simp [isPrefix]) (by simp [decodeRaw, decodeReg, used])
theorem divu (d a b : Reg) (w : BitVec 1) : Statement (.divu d a b w) :=
  short rfl (by simp [isPrefix]) (by simp [decodeRaw, decodeReg, used])
theorem rem (d a b : Reg) (w : BitVec 1) : Statement (.rem d a b w) :=
  short rfl (by simp [isPrefix]) (by simp [decodeRaw, decodeReg, used])
theorem remu (d a b : Reg) (w : BitVec 1) : Statement (.remu d a b w) :=
  short rfl (by simp [isPrefix]) (by simp [decodeRaw, decodeReg, used])
theorem slt (d a b : Reg) : Statement (.slt d a b) :=
  short rfl (by simp [isPrefix]) (by simp [decodeRaw, decodeReg, used])
theorem sltu (d a b : Reg) : Statement (.sltu d a b) :=
  short rfl (by simp [isPrefix]) (by simp [decodeRaw, decodeReg, used])
theorem seq (d a b : Reg) : Statement (.seq d a b) :=
  short rfl (by simp [isPrefix]) (by simp [decodeRaw, decodeReg, used])
theorem min (d a b : Reg) : Statement (.min d a b) :=
  short rfl (by simp [isPrefix]) (by simp [decodeRaw, decodeReg, used])
theorem max (d a b : Reg) : Statement (.max d a b) :=
  short rfl (by simp [isPrefix]) (by simp [decodeRaw, decodeReg, used])
theorem minu (d a b : Reg) : Statement (.minu d a b) :=
  short rfl (by simp [isPrefix]) (by simp [decodeRaw, decodeReg, used])
theorem maxu (d a b : Reg) : Statement (.maxu d a b) :=
  short rfl (by simp [isPrefix]) (by simp [decodeRaw, decodeReg, used])
theorem selz (d a b c : Reg) : Statement (.selz d a b c) :=
  short rfl (by simp [isPrefix]) (by simp [decodeRaw, decodeReg, used])
theorem selnz (d a b c : Reg) : Statement (.selnz d a b c) :=
  short rfl (by simp [isPrefix]) (by simp [decodeRaw, decodeReg, used])
theorem clz (d a : Reg) (w : BitVec 1) : Statement (.clz d a w) :=
  short rfl (by simp [isPrefix]) (by simp [decodeRaw, decodeReg, used])
theorem ctz (d a : Reg) (w : BitVec 1) : Statement (.ctz d a w) :=
  short rfl (by simp [isPrefix]) (by simp [decodeRaw, decodeReg, used])
theorem popc (d a : Reg) (w : BitVec 1) : Statement (.popc d a w) :=
  short rfl (by simp [isPrefix]) (by simp [decodeRaw, decodeReg, used])
theorem brev (d a : Reg) : Statement (.brev d a) :=
  short rfl (by simp [isPrefix]) (by simp [decodeRaw, decodeReg, used])
theorem bswap (d a : Reg) : Statement (.bswap d a) :=
  short rfl (by simp [isPrefix]) (by simp [decodeRaw, decodeReg, used])
theorem rol (d a b : Reg) (w : BitVec 1) : Statement (.rol d a b w) :=
  short rfl (by simp [isPrefix]) (by simp [decodeRaw, decodeReg, used])
theorem ror (d a b : Reg) (w : BitVec 1) : Statement (.ror d a b w) :=
  short rfl (by simp [isPrefix]) (by simp [decodeRaw, decodeReg, used])
theorem addsh (d a b : Reg) (s : BitVec 2) : Statement (.addsh d a b s) :=
  short rfl (by simp [isPrefix]) (by simp [decodeRaw, decodeReg, used])
theorem addi (d a : Reg) (i : BitVec 13) : Statement (.addi d a i) :=
  short rfl (by simp [isPrefix]) (by simp [decodeRaw, decodeImm])
theorem andi (d a : Reg) (i : BitVec 13) : Statement (.andi d a i) :=
  short rfl (by simp [isPrefix]) (by simp [decodeRaw, decodeImm])
theorem ori (d a : Reg) (i : BitVec 13) : Statement (.ori d a i) :=
  short rfl (by simp [isPrefix]) (by simp [decodeRaw, decodeImm])
theorem xori (d a : Reg) (i : BitVec 13) : Statement (.xori d a i) :=
  short rfl (by simp [isPrefix]) (by simp [decodeRaw, decodeImm])
theorem slti (d a : Reg) (i : BitVec 13) : Statement (.slti d a i) :=
  short rfl (by simp [isPrefix]) (by simp [decodeRaw, decodeImm])
theorem sltiu (d a : Reg) (i : BitVec 13) : Statement (.sltiu d a i) :=
  short rfl (by simp [isPrefix]) (by simp [decodeRaw, decodeImm])
theorem slli (d a : Reg) (w : BitVec 1) (s : BitVec 6) : Statement (.slli d a w s) :=
  short rfl (by simp [isPrefix]) (by simp [decodeRaw, decodeImm, used])
theorem srli (d a : Reg) (w : BitVec 1) (s : BitVec 6) : Statement (.srli d a w s) :=
  short rfl (by simp [isPrefix]) (by simp [decodeRaw, decodeImm, used])
theorem srai (d a : Reg) (w : BitVec 1) (s : BitVec 6) : Statement (.srai d a w s) :=
  short rfl (by simp [isPrefix]) (by simp [decodeRaw, decodeImm, used])
theorem rori (d a : Reg) (w : BitVec 1) (s : BitVec 6) : Statement (.rori d a w s) :=
  short rfl (by simp [isPrefix]) (by simp [decodeRaw, decodeImm, used])
theorem bfx (d a : Reg) (p l : BitVec 6) : Statement (.bfx d a p l) :=
  short rfl (by simp [isPrefix]) (by simp [decodeRaw, decodeImm])
theorem bfxs (d a : Reg) (p l : BitVec 6) : Statement (.bfxs d a p l) :=
  short rfl (by simp [isPrefix]) (by simp [decodeRaw, decodeImm])
theorem lih (d : Reg) (i : BitVec 21) : Statement (.lih d i) :=
  short rfl (by simp [isPrefix]) (by simp [decodeRaw])
theorem beq (a b : Reg) (i : BitVec 13) : Statement (.beq a b i) :=
  short rfl (by simp [isPrefix]) (by simp [decodeRaw, decodeBranch])
theorem bne (a b : Reg) (i : BitVec 13) : Statement (.bne a b i) :=
  short rfl (by simp [isPrefix]) (by simp [decodeRaw, decodeBranch])
theorem blt (a b : Reg) (i : BitVec 13) : Statement (.blt a b i) :=
  short rfl (by simp [isPrefix]) (by simp [decodeRaw, decodeBranch])
theorem bge (a b : Reg) (i : BitVec 13) : Statement (.bge a b i) :=
  short rfl (by simp [isPrefix]) (by simp [decodeRaw, decodeBranch])
theorem bltu (a b : Reg) (i : BitVec 13) : Statement (.bltu a b i) :=
  short rfl (by simp [isPrefix]) (by simp [decodeRaw, decodeBranch])
theorem bgeu (a b : Reg) (i : BitVec 13) : Statement (.bgeu a b i) :=
  short rfl (by simp [isPrefix]) (by simp [decodeRaw, decodeBranch])
theorem jal (d : Reg) (i : BitVec 21) : Statement (.jal d i) :=
  short rfl (by simp [isPrefix]) (by simp [decodeRaw])
theorem jalr (d a : Reg) (i : BitVec 13) : Statement (.jalr d a i) :=
  short rfl (by simp [isPrefix]) (by simp [decodeRaw])
theorem tend : Statement (.tend) :=
  short rfl (by simp [isPrefix]) (by simp [decodeRaw, decodeTask, used])
theorem tpost (d : Reg) (r : BitVec 6) : Statement (.tpost d r) :=
  short rfl (by simp [isPrefix]) (by simp [decodeRaw, decodeTask, used])
theorem tstate (d : Reg) : Statement (.tstate d) :=
  short rfl (by simp [isPrefix]) (by simp [decodeRaw, decodeTask, used])
theorem tcycles (d : Reg) : Statement (.tcycles d) :=
  short rfl (by simp [isPrefix]) (by simp [decodeRaw, decodeTask, used])
theorem tsetarg (a : Reg) (r : BitVec 6) : Statement (.tsetarg a r) :=
  short rfl (by simp [isPrefix]) (by simp [decodeRaw, decodeTask, used])
theorem tenable (d : Reg) (r : BitVec 6) : Statement (.tenable d r) :=
  short rfl (by simp [isPrefix]) (by simp [decodeRaw, decodeTask, used])
theorem tdisable (d : Reg) (r : BitVec 6) : Statement (.tdisable d r) :=
  short rfl (by simp [isPrefix]) (by simp [decodeRaw, decodeTask, used])
theorem vclaim (d a : Reg) : Statement (.vclaim d a) :=
  short rfl (by simp [isPrefix]) (by simp [decodeRaw, decodeTask, used])
theorem csrr (d u : BitVec 5) (v : BitVec 6) : Statement (.csrr d u v) :=
  short rfl (by simp [isPrefix]) (by simp [decodeRaw, decodeTask, used])
theorem csrw (d a u : BitVec 5) (v : BitVec 6) : Statement (.csrw d a u v) :=
  short rfl (by simp [isPrefix]) (by simp [decodeRaw, decodeTask])
theorem csrs (d a u : BitVec 5) (v : BitVec 6) : Statement (.csrs d a u v) :=
  short rfl (by simp [isPrefix]) (by simp [decodeRaw, decodeTask])
theorem csrc (d a u : BitVec 5) (v : BitVec 6) : Statement (.csrc d a u v) :=
  short rfl (by simp [isPrefix]) (by simp [decodeRaw, decodeTask])
theorem trap (a : Reg) (c : BitVec 6) : Statement (.trap a c) :=
  short rfl (by simp [isPrefix]) (by simp [decodeRaw, decodeTask, used])
theorem brk (c : BitVec 6) : Statement (.brk c) :=
  short rfl (by simp [isPrefix]) (by simp [decodeRaw, decodeTask, used])
theorem svbind (d a b : Reg) : Statement (.svbind d a b) :=
  short rfl (by simp [isPrefix]) (by simp [decodeRaw, decodeTask, used])
theorem svhalt (d a b : Reg) : Statement (.svhalt d a b) :=
  short rfl (by simp [isPrefix]) (by simp [decodeRaw, decodeTask, used])
theorem svresume (d a b : Reg) : Statement (.svresume d a b) :=
  short rfl (by simp [isPrefix]) (by simp [decodeRaw, decodeTask, used])
theorem svresumeR (d a b : Reg) : Statement (.svresumeR d a b) :=
  short rfl (by simp [isPrefix]) (by simp [decodeRaw, decodeTask, used])
theorem svmap (d a b : Reg) : Statement (.svmap d a b) :=
  short rfl (by simp [isPrefix]) (by simp [decodeRaw, decodeTask, used])
theorem ldB (d a : Reg) (i : BitVec 13) : Statement (.ldB d a i) :=
  short rfl (by simp [isPrefix]) (by simp [decodeRaw, decodeLoad])
theorem ldH (d a : Reg) (i : BitVec 13) : Statement (.ldH d a i) :=
  short rfl (by simp [isPrefix]) (by simp [decodeRaw, decodeLoad])
theorem ldW (d a : Reg) (i : BitVec 13) : Statement (.ldW d a i) :=
  short rfl (by simp [isPrefix]) (by simp [decodeRaw, decodeLoad])
theorem ldD (d a : Reg) (i : BitVec 13) : Statement (.ldD d a i) :=
  short rfl (by simp [isPrefix]) (by simp [decodeRaw, decodeLoad])
theorem ldBu (d a : Reg) (i : BitVec 13) : Statement (.ldBu d a i) :=
  short rfl (by simp [isPrefix]) (by simp [decodeRaw, decodeLoad])
theorem ldHu (d a : Reg) (i : BitVec 13) : Statement (.ldHu d a i) :=
  short rfl (by simp [isPrefix]) (by simp [decodeRaw, decodeLoad])
theorem ldWu (d a : Reg) (i : BitVec 13) : Statement (.ldWu d a i) :=
  short rfl (by simp [isPrefix]) (by simp [decodeRaw, decodeLoad])
theorem ldQ (d a : Reg) (i : BitVec 13) : Statement (.ldQ d a i) :=
  short rfl (by simp [isPrefix]) (by simp [decodeRaw, decodeLoad])
theorem stB (d a : Reg) (i : BitVec 13) : Statement (.stB d a i) :=
  short rfl (by simp [isPrefix]) (by simp [decodeRaw, decodeStore])
theorem stH (d a : Reg) (i : BitVec 13) : Statement (.stH d a i) :=
  short rfl (by simp [isPrefix]) (by simp [decodeRaw, decodeStore])
theorem stW (d a : Reg) (i : BitVec 13) : Statement (.stW d a i) :=
  short rfl (by simp [isPrefix]) (by simp [decodeRaw, decodeStore])
theorem stD (d a : Reg) (i : BitVec 13) : Statement (.stD d a i) :=
  short rfl (by simp [isPrefix]) (by simp [decodeRaw, decodeStore])
theorem stQ (d a : Reg) (i : BitVec 13) : Statement (.stQ d a i) :=
  short rfl (by simp [isPrefix]) (by simp [decodeRaw, decodeStore])
theorem bld (d a b w : BitVec 5) : Statement (.bld d a b w) :=
  short rfl (by simp [isPrefix]) (by simp [decodeRaw, decodeBit, used])
theorem blds (d a b w : BitVec 5) : Statement (.blds d a b w) :=
  short rfl (by simp [isPrefix]) (by simp [decodeRaw, decodeBit, used])
theorem bst (d a b w : BitVec 5) : Statement (.bst d a b w) :=
  short rfl (by simp [isPrefix]) (by simp [decodeRaw, decodeBit, used])
theorem bldp (d a b w : BitVec 5) : Statement (.bldp d a b w) :=
  short rfl (by simp [isPrefix]) (by simp [decodeRaw, decodeBit, used])
theorem bstp (d a b w : BitVec 5) : Statement (.bstp d a b w) :=
  short rfl (by simp [isPrefix]) (by simp [decodeRaw, decodeBit, used])
theorem tlbiv (d a b : Reg) : Statement (.tlbiv d a b) :=
  short rfl (by simp [isPrefix]) (by simp [decodeRaw, decodeBit, used])
theorem tlbid (d a : Reg) : Statement (.tlbid d a) :=
  short rfl (by simp [isPrefix]) (by simp [decodeRaw, decodeBit, used])
theorem tlbprb (d a b : Reg) : Statement (.tlbprb d a b) :=
  short rfl (by simp [isPrefix]) (by simp [decodeRaw, decodeBit, used])
theorem pref (a : Reg) (p : BitVec 1) : Statement (.pref a p) :=
  short rfl (by simp [isPrefix]) (by simp [decodeRaw, decodeBit, used])
theorem amoAdd (d a b : Reg) (s : BitVec 3) (p : BitVec 2) (w : BitVec 1) : Statement (.amoAdd d a b s p w) :=
  short rfl (by simp [isPrefix]) (by simp [decodeRaw, decodeAmo])
theorem amoAnd (d a b : Reg) (s : BitVec 3) (p : BitVec 2) (w : BitVec 1) : Statement (.amoAnd d a b s p w) :=
  short rfl (by simp [isPrefix]) (by simp [decodeRaw, decodeAmo])
theorem amoOr (d a b : Reg) (s : BitVec 3) (p : BitVec 2) (w : BitVec 1) : Statement (.amoOr d a b s p w) :=
  short rfl (by simp [isPrefix]) (by simp [decodeRaw, decodeAmo])
theorem amoXor (d a b : Reg) (s : BitVec 3) (p : BitVec 2) (w : BitVec 1) : Statement (.amoXor d a b s p w) :=
  short rfl (by simp [isPrefix]) (by simp [decodeRaw, decodeAmo])
theorem amoMin (d a b : Reg) (s : BitVec 3) (p : BitVec 2) (w : BitVec 1) : Statement (.amoMin d a b s p w) :=
  short rfl (by simp [isPrefix]) (by simp [decodeRaw, decodeAmo])
theorem amoMax (d a b : Reg) (s : BitVec 3) (p : BitVec 2) (w : BitVec 1) : Statement (.amoMax d a b s p w) :=
  short rfl (by simp [isPrefix]) (by simp [decodeRaw, decodeAmo])
theorem amoMinu (d a b : Reg) (s : BitVec 3) (p : BitVec 2) (w : BitVec 1) : Statement (.amoMinu d a b s p w) :=
  short rfl (by simp [isPrefix]) (by simp [decodeRaw, decodeAmo])
theorem amoMaxu (d a b : Reg) (s : BitVec 3) (p : BitVec 2) (w : BitVec 1) : Statement (.amoMaxu d a b s p w) :=
  short rfl (by simp [isPrefix]) (by simp [decodeRaw, decodeAmo])
theorem amoSwap (d a b : Reg) (s : BitVec 3) (p : BitVec 2) (w : BitVec 1) : Statement (.amoSwap d a b s p w) :=
  short rfl (by simp [isPrefix]) (by simp [decodeRaw, decodeAmo])
theorem amoCas (d a b : Reg) (s : BitVec 3) (p : BitVec 2) (w : BitVec 1) : Statement (.amoCas d a b s p w) :=
  short rfl (by simp [isPrefix]) (by simp [decodeRaw, decodeAmo])
theorem fence (k : BitVec 2) (s : BitVec 3) : Statement (.fence k s) :=
  short rfl (by simp [isPrefix]) (by simp [decodeRaw, decodeOrder, used])
theorem ldAcq (d a : Reg) (s x : BitVec 3) : Statement (.ldAcq d a s x) :=
  short rfl (by simp [isPrefix]) (by simp [decodeRaw, decodeOrder, used])
theorem stRel (d a : Reg) (s x : BitVec 3) : Statement (.stRel d a s x) :=
  short rfl (by simp [isPrefix]) (by simp [decodeRaw, decodeOrder, used])
theorem redf (d a b : Reg) : Statement (.redf d a b) :=
  short rfl (by simp [isPrefix]) (by simp [decodeRaw, decodeOrder, used])
theorem tarm (a c : Reg) (r : BitVec 6) : Statement (.tarm a c r) :=
  short rfl (by simp [isPrefix]) (by simp [decodeRaw, decodeOrder, used])
theorem barrier (d a : Reg) : Statement (.barrier d a) :=
  short rfl (by simp [isPrefix]) (by simp [decodeRaw, decodeOrder, used])
theorem barq (d a b : Reg) : Statement (.barq d a b) :=
  short rfl (by simp [isPrefix]) (by simp [decodeRaw, decodeOrder, used])
theorem qpop (d a b : Reg) : Statement (.qpop d a b) :=
  short rfl (by simp [isPrefix]) (by simp [decodeRaw, decodeQueue, used])
theorem qpopM (d a b : Reg) : Statement (.qpopM d a b) :=
  short rfl (by simp [isPrefix]) (by simp [decodeRaw, decodeQueue, used])
theorem qtag (d a : Reg) : Statement (.qtag d a) :=
  short rfl (by simp [isPrefix]) (by simp [decodeRaw, decodeQueue, used])
theorem qcount (d a : Reg) : Statement (.qcount d a) :=
  short rfl (by simp [isPrefix]) (by simp [decodeRaw, decodeQueue, used])
theorem qdrop (d a : Reg) : Statement (.qdrop d a) :=
  short rfl (by simp [isPrefix]) (by simp [decodeRaw, decodeQueue, used])
theorem qpush (d a b : Reg) (g : BitVec 1) (t : BitVec 4) : Statement (.qpush d a b g t) :=
  short rfl (by simp [isPrefix]) (by simp [decodeRaw, decodeQueue, used])
theorem qpushM (d a b : Reg) (g : BitVec 1) (t : BitVec 4) : Statement (.qpushM d a b g t) :=
  short rfl (by simp [isPrefix]) (by simp [decodeRaw, decodeQueue, used])
theorem qmark (d a : Reg) (g : BitVec 1) : Statement (.qmark d a g) :=
  short rfl (by simp [isPrefix]) (by simp [decodeRaw, decodeQueue, used])
theorem qhandle (d a : Reg) : Statement (.qhandle d a) :=
  short rfl (by simp [isPrefix]) (by simp [decodeRaw, decodeQueue, used])
theorem qcreate (d a : Reg) : Statement (.qcreate d a) :=
  short rfl (by simp [isPrefix]) (by simp [decodeRaw, decodeQueue, used])
theorem qdestroy (d a : Reg) (f : BitVec 1) : Statement (.qdestroy d a f) :=
  short rfl (by simp [isPrefix]) (by simp [decodeRaw, decodeQueue, used])
theorem qstat (d a : Reg) : Statement (.qstat d a) :=
  short rfl (by simp [isPrefix]) (by simp [decodeRaw, decodeQueue, used])
theorem stx (d a b : Reg) (w : BitVec 2) : Statement (.stx d a b w) :=
  short rfl (by simp [isPrefix]) (by simp [decodeRaw, decodeRemote, used])
theorem stCue (d a b : Reg) (w : BitVec 2) : Statement (.stCue d a b w) :=
  short rfl (by simp [isPrefix]) (by simp [decodeRaw, decodeRemote, used])
theorem cueq (d a : Reg) : Statement (.cueq d a) :=
  short rfl (by simp [isPrefix]) (by simp [decodeRaw, decodeRemote, used])
theorem getq (d a b : Reg) (w : BitVec 2) : Statement (.getq d a b w) :=
  short rfl (by simp [isPrefix]) (by simp [decodeRaw, decodeRemote, used])
theorem amoq (d a b : Reg) (x : BitVec 1) (o : BitVec 4) : Statement (.amoq d a b x o) :=
  short rfl (by simp [isPrefix]) (by simp [decodeRaw, decodeRemote, used])
theorem lnkdiag (d a b : Reg) : Statement (.lnkdiag d a b) :=
  short rfl (by simp [isPrefix]) (by simp [decodeRaw, decodeRemote, used])
theorem lnkstat (d a : Reg) : Statement (.lnkstat d a) :=
  short rfl (by simp [isPrefix]) (by simp [decodeRaw, decodeRemote, used])
theorem rqalloc (d : Reg) : Statement (.rqalloc d) :=
  short rfl (by simp [isPrefix]) (by simp [decodeRaw, decodeRequest, used])
theorem rqread (d a w : BitVec 5) : Statement (.rqread d a w) :=
  short rfl (by simp [isPrefix]) (by simp [decodeRaw, decodeRequest, used])
theorem rqwrite (d a b w : BitVec 5) : Statement (.rqwrite d a b w) :=
  short rfl (by simp [isPrefix]) (by simp [decodeRaw, decodeRequest, used])
theorem rqqueue (d a : Reg) : Statement (.rqqueue d a) :=
  short rfl (by simp [isPrefix]) (by simp [decodeRaw, decodeRequest, used])
theorem rqcommit (d a b : Reg) : Statement (.rqcommit d a b) :=
  short rfl (by simp [isPrefix]) (by simp [decodeRaw, decodeRequest, used])
theorem rqfork (d a b : Reg) : Statement (.rqfork d a b) :=
  short rfl (by simp [isPrefix]) (by simp [decodeRaw, decodeRequest, used])
theorem rqretire (d a b : Reg) : Statement (.rqretire d a b) :=
  short rfl (by simp [isPrefix]) (by simp [decodeRaw, decodeRequest, used])
theorem rqretireFree (d a : Reg) : Statement (.rqretireFree d a) :=
  short rfl (by simp [isPrefix]) (by simp [decodeRaw, decodeRequest, used])
theorem rqpark (d a : Reg) : Statement (.rqpark d a) :=
  short rfl (by simp [isPrefix]) (by simp [decodeRaw, decodeRequest, used])
theorem bfstep (d a : Reg) : Statement (.bfstep d a) :=
  short rfl (by simp [isPrefix]) (by simp [decodeRaw, decodeRequest, used])
theorem smpl (d a b : Reg) : Statement (.smpl d a b) :=
  short rfl (by simp [isPrefix]) (by simp [decodeRaw, decodeRequest, used])
theorem beam (d a b : Reg) : Statement (.beam d a b) :=
  short rfl (by simp [isPrefix]) (by simp [decodeRaw, decodeRequest, used])
theorem lahar (d a b : Reg) (h : BitVec 1) : Statement (.lahar d a b h) :=
  short rfl (by simp [isPrefix]) (by simp [decodeRaw, decodeRequest, used])
theorem vadd (d a b : Reg) (m : BitVec 3) (e : BitVec 2) : Statement (.vadd d a b m e) := vec rfl (by simp [ofV]) rfl
theorem vsub (d a b : Reg) (m : BitVec 3) (e : BitVec 2) : Statement (.vsub d a b m e) := vec rfl (by simp [ofV]) rfl
theorem vmul (d a b : Reg) (m : BitVec 3) (e : BitVec 2) : Statement (.vmul d a b m e) := vec rfl (by simp [ofV]) rfl
theorem vmulh (d a b : Reg) (m : BitVec 3) (e : BitVec 2) : Statement (.vmulh d a b m e) := vec rfl (by simp [ofV]) rfl
theorem vmulhu (d a b : Reg) (m : BitVec 3) (e : BitVec 2) : Statement (.vmulhu d a b m e) := vec rfl (by simp [ofV]) rfl
theorem vmin (d a b : Reg) (m : BitVec 3) (e : BitVec 2) : Statement (.vmin d a b m e) := vec rfl (by simp [ofV]) rfl
theorem vmax (d a b : Reg) (m : BitVec 3) (e : BitVec 2) : Statement (.vmax d a b m e) := vec rfl (by simp [ofV]) rfl
theorem vminu (d a b : Reg) (m : BitVec 3) (e : BitVec 2) : Statement (.vminu d a b m e) := vec rfl (by simp [ofV]) rfl
theorem vmaxu (d a b : Reg) (m : BitVec 3) (e : BitVec 2) : Statement (.vmaxu d a b m e) := vec rfl (by simp [ofV]) rfl
theorem vadds (d a b : Reg) (m : BitVec 3) (e : BitVec 2) : Statement (.vadds d a b m e) := vec rfl (by simp [ofV]) rfl
theorem vsubs (d a b : Reg) (m : BitVec 3) (e : BitVec 2) : Statement (.vsubs d a b m e) := vec rfl (by simp [ofV]) rfl
theorem vaddsn (d a b : Reg) (m : BitVec 3) (e : BitVec 2) : Statement (.vaddsn d a b m e) := vec rfl (by simp [ofV]) rfl
theorem vsubsn (d a b : Reg) (m : BitVec 3) (e : BitVec 2) : Statement (.vsubsn d a b m e) := vec rfl (by simp [ofV]) rfl
theorem vabsd (d a b : Reg) (m : BitVec 3) (e : BitVec 2) : Statement (.vabsd d a b m e) := vec rfl (by simp [ofV]) rfl
theorem vavg (d a b : Reg) (m : BitVec 3) (e : BitVec 2) : Statement (.vavg d a b m e) := vec rfl (by simp [ofV]) rfl
theorem vmac (d a b : Reg) (m : BitVec 3) (e : BitVec 2) : Statement (.vmac d a b m e) := vec rfl (by simp [ofV]) rfl
theorem vand (d a b : Reg) (m : BitVec 3) (e : BitVec 2) : Statement (.vand d a b m e) := vec rfl (by simp [ofV]) rfl
theorem vor (d a b : Reg) (m : BitVec 3) (e : BitVec 2) : Statement (.vor d a b m e) := vec rfl (by simp [ofV]) rfl
theorem vxor (d a b : Reg) (m : BitVec 3) (e : BitVec 2) : Statement (.vxor d a b m e) := vec rfl (by simp [ofV]) rfl
theorem vandn (d a b : Reg) (m : BitVec 3) (e : BitVec 2) : Statement (.vandn d a b m e) := vec rfl (by simp [ofV]) rfl
theorem vsll (d a b : Reg) (m : BitVec 3) (e : BitVec 2) : Statement (.vsll d a b m e) := vec rfl (by simp [ofV]) rfl
theorem vsrl (d a b : Reg) (m : BitVec 3) (e : BitVec 2) : Statement (.vsrl d a b m e) := vec rfl (by simp [ofV]) rfl
theorem vsra (d a b : Reg) (m : BitVec 3) (e : BitVec 2) : Statement (.vsra d a b m e) := vec rfl (by simp [ofV]) rfl
theorem vrol (d a b : Reg) (m : BitVec 3) (e : BitVec 2) : Statement (.vrol d a b m e) := vec rfl (by simp [ofV]) rfl
theorem vnot (d a : Reg) (m : BitVec 3) (e : BitVec 2) : Statement (.vnot d a m e) := vec rfl (by simp [ofV]) rfl
theorem vpopc (d a : Reg) (m : BitVec 3) (e : BitVec 2) : Statement (.vpopc d a m e) := vec rfl (by simp [ofV]) rfl
theorem vclz (d a : Reg) (m : BitVec 3) (e : BitVec 2) : Statement (.vclz d a m e) := vec rfl (by simp [ofV]) rfl
theorem vfadd (d a b : Reg) (m : BitVec 3) (e : BitVec 1) : Statement (.vfadd d a b m e) := vec rfl (by simp [ofV]) rfl
theorem vfsub (d a b : Reg) (m : BitVec 3) (e : BitVec 1) : Statement (.vfsub d a b m e) := vec rfl (by simp [ofV]) rfl
theorem vfmul (d a b : Reg) (m : BitVec 3) (e : BitVec 1) : Statement (.vfmul d a b m e) := vec rfl (by simp [ofV]) rfl
theorem vfma (d a b : Reg) (m : BitVec 3) (e : BitVec 1) : Statement (.vfma d a b m e) := vec rfl (by simp [ofV]) rfl
theorem vfms (d a b : Reg) (m : BitVec 3) (e : BitVec 1) : Statement (.vfms d a b m e) := vec rfl (by simp [ofV]) rfl
theorem vfnma (d a b : Reg) (m : BitVec 3) (e : BitVec 1) : Statement (.vfnma d a b m e) := vec rfl (by simp [ofV]) rfl
theorem vfmin (d a b : Reg) (m : BitVec 3) (e : BitVec 1) : Statement (.vfmin d a b m e) := vec rfl (by simp [ofV]) rfl
theorem vfmax (d a b : Reg) (m : BitVec 3) (e : BitVec 1) : Statement (.vfmax d a b m e) := vec rfl (by simp [ofV]) rfl
theorem vfabs (d a : Reg) (m : BitVec 3) (e : BitVec 1) : Statement (.vfabs d a m e) := vec rfl (by simp [ofV]) rfl
theorem vfneg (d a : Reg) (m : BitVec 3) (e : BitVec 1) : Statement (.vfneg d a m e) := vec rfl (by simp [ofV]) rfl
theorem vfdiv (d a b : Reg) (m : BitVec 3) (e : BitVec 1) : Statement (.vfdiv d a b m e) := vec rfl (by simp [ofV]) rfl
theorem vfsqrt (d a : Reg) (m : BitVec 3) (e : BitVec 1) : Statement (.vfsqrt d a m e) := vec rfl (by simp [ofV]) rfl
theorem vcmpeq (d a b : Reg) (m : BitVec 3) : Statement (.vcmpeq d a b m) := vec rfl (by simp [ofV]) rfl
theorem vcmpne (d a b : Reg) (m : BitVec 3) : Statement (.vcmpne d a b m) := vec rfl (by simp [ofV]) rfl
theorem vcmplt (d a b : Reg) (m : BitVec 3) : Statement (.vcmplt d a b m) := vec rfl (by simp [ofV]) rfl
theorem vcmple (d a b : Reg) (m : BitVec 3) : Statement (.vcmple d a b m) := vec rfl (by simp [ofV]) rfl
theorem vcmpltn (d a b : Reg) (m : BitVec 3) : Statement (.vcmpltn d a b m) := vec rfl (by simp [ofV]) rfl
theorem vcmplen (d a b : Reg) (m : BitVec 3) : Statement (.vcmplen d a b m) := vec rfl (by simp [ofV]) rfl
theorem vfcmpeq (d a b : Reg) (m : BitVec 3) : Statement (.vfcmpeq d a b m) := vec rfl (by simp [ofV]) rfl
theorem vfcmplt (d a b : Reg) (m : BitVec 3) : Statement (.vfcmplt d a b m) := vec rfl (by simp [ofV]) rfl
theorem vfcmple (d a b : Reg) (m : BitVec 3) : Statement (.vfcmple d a b m) := vec rfl (by simp [ofV]) rfl
theorem vfcmpun (d a b : Reg) (m : BitVec 3) : Statement (.vfcmpun d a b m) := vec rfl (by simp [ofV]) rfl
theorem mand (d a b : Reg) : Statement (.mand d a b) := vec rfl (by simp [ofV]) rfl
theorem mor (d a b : Reg) : Statement (.mor d a b) := vec rfl (by simp [ofV]) rfl
theorem mxor (d a b : Reg) : Statement (.mxor d a b) := vec rfl (by simp [ofV]) rfl
theorem mandn (d a b : Reg) : Statement (.mandn d a b) := vec rfl (by simp [ofV]) rfl
theorem mnot (d a : Reg) : Statement (.mnot d a) := vec rfl (by simp [ofV]) rfl
theorem vmov (d a : Reg) (m : BitVec 3) (e : BitVec 2) : Statement (.vmov d a m e) := vec rfl (by simp [ofV]) rfl
theorem vsplat (d a : Reg) (m : BitVec 3) (e : BitVec 2) : Statement (.vsplat d a m e) := vec rfl (by simp [ofV]) rfl
theorem vext (d a b : Reg) (e : BitVec 2) : Statement (.vext d a b e) := vec rfl (by simp [ofV]) rfl
theorem vins (d a b : Reg) (e : BitVec 2) : Statement (.vins d a b e) := vec rfl (by simp [ofV]) rfl
theorem vslup (d a b : Reg) (m : BitVec 3) (e : BitVec 2) : Statement (.vslup d a b m e) := vec rfl (by simp [ofV]) rfl
theorem vsldn (d a b : Reg) (m : BitVec 3) (e : BitVec 2) : Statement (.vsldn d a b m e) := vec rfl (by simp [ofV]) rfl
theorem vperm (d a b : Reg) (m : BitVec 3) (e : BitVec 2) : Statement (.vperm d a b m e) := vec rfl (by simp [ofV]) rfl
theorem vmerge (d a b : Reg) (m : BitVec 3) (e : BitVec 2) : Statement (.vmerge d a b m e) := vec rfl (by simp [ofV]) rfl
theorem vcomp (d a : Reg) (m : BitVec 3) : Statement (.vcomp d a m) := vec rfl (by simp [ofV]) rfl
theorem vidx (d : Reg) (m : BitVec 3) (e : BitVec 2) : Statement (.vidx d m e) := vec rfl (by simp [ofV]) rfl
theorem vmaskn (d a : Reg) : Statement (.vmaskn d a) := vec rfl (by simp [ofV]) rfl
theorem mcount (d a : Reg) : Statement (.mcount d a) := vec rfl (by simp [ofV]) rfl
theorem mfirst (d a : Reg) : Statement (.mfirst d a) := vec rfl (by simp [ofV]) rfl
theorem vrsum (d a : Reg) (m : BitVec 3) (e : BitVec 2) : Statement (.vrsum d a m e) := vec rfl (by simp [ofV]) rfl
theorem vrmin (d a : Reg) (m : BitVec 3) (e : BitVec 2) : Statement (.vrmin d a m e) := vec rfl (by simp [ofV]) rfl
theorem vrmax (d a : Reg) (m : BitVec 3) (e : BitVec 2) : Statement (.vrmax d a m e) := vec rfl (by simp [ofV]) rfl
theorem vrminu (d a : Reg) (m : BitVec 3) (e : BitVec 2) : Statement (.vrminu d a m e) := vec rfl (by simp [ofV]) rfl
theorem vrmaxu (d a : Reg) (m : BitVec 3) (e : BitVec 2) : Statement (.vrmaxu d a m e) := vec rfl (by simp [ofV]) rfl
theorem vrand (d a : Reg) (m : BitVec 3) (e : BitVec 2) : Statement (.vrand d a m e) := vec rfl (by simp [ofV]) rfl
theorem vrior (d a : Reg) (m : BitVec 3) (e : BitVec 2) : Statement (.vrior d a m e) := vec rfl (by simp [ofV]) rfl
theorem vrxor (d a : Reg) (m : BitVec 3) (e : BitVec 2) : Statement (.vrxor d a m e) := vec rfl (by simp [ofV]) rfl
theorem vfrsum (d a : Reg) (m : BitVec 3) (e : BitVec 1) : Statement (.vfrsum d a m e) := vec rfl (by simp [ofV]) rfl
theorem vfrmin (d a : Reg) (m : BitVec 3) (e : BitVec 1) : Statement (.vfrmin d a m e) := vec rfl (by simp [ofV]) rfl
theorem vfrmax (d a : Reg) (m : BitVec 3) (e : BitVec 1) : Statement (.vfrmax d a m e) := vec rfl (by simp [ofV]) rfl
theorem vframax (d a : Reg) (m : BitVec 3) (e : BitVec 1) : Statement (.vframax d a m e) := vec rfl (by simp [ofV]) rfl
theorem vwadd (d a b : Reg) (m : BitVec 3) (e : BitVec 2) (h k : BitVec 1) : Statement (.vwadd d a b m e h k) := vec rfl (by simp [ofV]) rfl
theorem vwmul (d a b : Reg) (m : BitVec 3) (e : BitVec 2) (h k : BitVec 1) : Statement (.vwmul d a b m e h k) := vec rfl (by simp [ofV]) rfl
theorem vwmuln (d a b : Reg) (m : BitVec 3) (e : BitVec 2) (h k : BitVec 1) : Statement (.vwmuln d a b m e h k) := vec rfl (by simp [ofV]) rfl
theorem vdot (d a b : Reg) (m : BitVec 3) (e : BitVec 2) (h k : BitVec 1) : Statement (.vdot d a b m e h k) := vec rfl (by simp [ofV]) rfl
theorem vdotn (d a b : Reg) (m : BitVec 3) (e : BitVec 2) (h k : BitVec 1) : Statement (.vdotn d a b m e h k) := vec rfl (by simp [ofV]) rfl
theorem vnshr (d a b : Reg) (m : BitVec 3) (e : BitVec 2) : Statement (.vnshr d a b m e) := vec rfl (by simp [ofV]) rfl
theorem vnshrn (d a b : Reg) (m : BitVec 3) (e : BitVec 2) : Statement (.vnshrn d a b m e) := vec rfl (by simp [ofV]) rfl
theorem vpack (d a b : Reg) (m : BitVec 3) (e : BitVec 2) : Statement (.vpack d a b m e) := vec rfl (by simp [ofV]) rfl
theorem vld (d a : Reg) (m : BitVec 3) (e : BitVec 2) : Statement (.vld d a m e) := vec rfl (by simp [ofV]) rfl
theorem vst (d a : Reg) (m : BitVec 3) (e : BitVec 2) : Statement (.vst d a m e) := vec rfl (by simp [ofV]) rfl
theorem vlds (d a b : Reg) (m : BitVec 3) (e : BitVec 2) : Statement (.vlds d a b m e) := vec rfl (by simp [ofV]) rfl
theorem vsts (d a b : Reg) (m : BitVec 3) (e : BitVec 2) : Statement (.vsts d a b m e) := vec rfl (by simp [ofV]) rfl
theorem vldx (d a b : Reg) (m : BitVec 3) : Statement (.vldx d a b m) := vec rfl (by simp [ofV]) rfl
theorem vstx (d a b : Reg) (m : BitVec 3) : Statement (.vstx d a b m) := vec rfl (by simp [ofV]) rfl
theorem vldt (d a b : Reg) (m : BitVec 3) (e : BitVec 2) : Statement (.vldt d a b m e) := vec rfl (by simp [ofV]) rfl
theorem vldb (d a : Reg) (m : BitVec 3) (e : BitVec 2) : Statement (.vldb d a m e) := vec rfl (by simp [ofV]) rfl
theorem vcvtf (d a : Reg) (m : BitVec 3) (e : BitVec 1) : Statement (.vcvtf d a m e) := vec rfl (by simp [ofV]) rfl
theorem vcvti (d a : Reg) (m : BitVec 3) (e : BitVec 1) : Statement (.vcvti d a m e) := vec rfl (by simp [ofV]) rfl
theorem vcvtn (d a c : Reg) (e : BitVec 2) : Statement (.vcvtn d a c e) := vec rfl (by simp [ofV]) rfl
theorem vcvtw (d a c : Reg) (m : BitVec 3) (e : BitVec 2) (h : BitVec 1) : Statement (.vcvtw d a c m e h) := vec rfl (by simp [ofV]) rfl
theorem vfn (d a t : BitVec 5) (m : BitVec 3) : Statement (.vfn d a t m) := vec rfl (by simp [ofV]) rfl
theorem vsin (d a : Reg) (m : BitVec 3) : Statement (.vsin d a m) := vec rfl (by simp [ofV]) rfl
theorem vcos (d a : Reg) (m : BitVec 3) : Statement (.vcos d a m) := vec rfl (by simp [ofV]) rfl
theorem vexp (d a : Reg) (m : BitVec 3) : Statement (.vexp d a m) := vec rfl (by simp [ofV]) rfl
theorem vlog (d a : Reg) (m : BitVec 3) : Statement (.vlog d a m) := vec rfl (by simp [ofV]) rfl
theorem vrcp (d a : Reg) (m : BitVec 3) : Statement (.vrcp d a m) := vec rfl (by simp [ofV]) rfl
theorem vrsq (d a : Reg) (m : BitVec 3) : Statement (.vrsq d a m) := vec rfl (by simp [ofV]) rfl
theorem vtanh (d a : Reg) (m : BitVec 3) : Statement (.vtanh d a m) := vec rfl (by simp [ofV]) rfl
theorem vsigm (d a : Reg) (m : BitVec 3) : Statement (.vsigm d a m) := vec rfl (by simp [ofV]) rfl
theorem vscale (d a b : Reg) (m : BitVec 3) : Statement (.vscale d a b m) := vec rfl (by simp [ofV]) rfl
theorem mloadb (d a b : Reg) (k : BitVec 6) : Statement (.mloadb d a b k) :=
  short rfl (by simp [isPrefix]) (by simp [decodeRaw, decodeMatrix])
theorem mma (d a b : Reg) (k : BitVec 6) : Statement (.mma d a b k) :=
  short rfl (by simp [isPrefix]) (by simp [decodeRaw, decodeMatrix])
theorem mdrain (d a b : Reg) (z : BitVec 1) (c : BitVec 3) : Statement (.mdrain d a b z c) :=
  short rfl (by simp [isPrefix]) (by simp [decodeRaw, decodeMatrix, used])
theorem mzero (d : Reg) : Statement (.mzero d) :=
  short rfl (by simp [isPrefix]) (by simp [decodeRaw, decodeMatrix, used])
theorem mbinv (k : BitVec 6) : Statement (.mbinv k) :=
  short rfl (by simp [isPrefix]) (by simp [decodeRaw, decodeMatrix, used])
theorem mbstat (d : Reg) (k : BitVec 6) : Statement (.mbstat d k) :=
  short rfl (by simp [isPrefix]) (by simp [decodeRaw, decodeMatrix, used])
theorem mnote (d a : Reg) : Statement (.mnote d a) :=
  short rfl (by simp [isPrefix]) (by simp [decodeRaw, decodeMatrix, used])
theorem tdset (a b : Reg) : Statement (.tdset a b) :=
  short rfl (by simp [isPrefix]) (by simp [decodeRaw, decodeMatrix, used])
theorem tdget (a b : Reg) : Statement (.tdget a b) :=
  short rfl (by simp [isPrefix]) (by simp [decodeRaw, decodeMatrix, used])
theorem tdalloc (d : Reg) : Statement (.tdalloc d) :=
  short rfl (by simp [isPrefix]) (by simp [decodeRaw, decodeMatrix, used])
theorem tdfree (d a : Reg) : Statement (.tdfree d a) :=
  short rfl (by simp [isPrefix]) (by simp [decodeRaw, decodeMatrix, used])
theorem tdrag (a b : Reg) : Statement (.tdrag a b) :=
  short rfl (by simp [isPrefix]) (by simp [decodeRaw, decodeMatrix, used])
theorem xcopy (d a b : Reg) (r : BitVec 1) : Statement (.xcopy d a b r) :=
  short rfl (by simp [isPrefix]) (by simp [decodeRaw, decodeEngine, used])
theorem xred (d a b : Reg) (r : BitVec 1) : Statement (.xred d a b r) :=
  short rfl (by simp [isPrefix]) (by simp [decodeRaw, decodeEngine, used])
theorem xfill (d a b : Reg) (r : BitVec 1) : Statement (.xfill d a b r) :=
  short rfl (by simp [isPrefix]) (by simp [decodeRaw, decodeEngine, used])
theorem xstat (d a : Reg) : Statement (.xstat d a) :=
  short rfl (by simp [isPrefix]) (by simp [decodeRaw, decodeEngine, used])
theorem xabort (d a : Reg) : Statement (.xabort d a) :=
  short rfl (by simp [isPrefix]) (by simp [decodeRaw, decodeEngine, used])

end Sys2Proof.Laws.RoundTrip
end

