-- ==== Sys2Proof/Laws/Stores.lean ====
section
/-!
SUPPORT. Every operation on the byte map keeps its canonical form: clearing and restoring a range, moving a frame,
and the writes that stores, reductions and arriving buffer entries make.
-/
namespace Sys2Proof.Machine

/-- What every step of a fold keeps, the fold keeps. -/
theorem foldl_keeps {α β : Type} (P : α → Prop) (f : α → β → α) (l : List β) (a : α) (h : P a)
    (k : ∀ a b, P a → P (f a b)) : P (l.foldl f a) := by
  induction l generalizing a with
  | nil => exact h
  | cons b t ih => exact ih _ (k a b h)

theorem Memory.filter_wf (m : Memory) (f : Host.Cell → Bool) (h : Memory.wf m) : Memory.wf (m.filter f) :=
  ⟨h.1.filter _, fun q hq => h.2 q (List.mem_filter.mp hq).1⟩

/-- Clearing a range keeps the canonical form. -/
theorem Memory.clear_wf (m : Memory) (p n : Nat) (h : Memory.wf m) : Memory.wf (Memory.clear m p n) := Memory.filter_wf _ _ h

/-- Restoring a range from listed bytes keeps the canonical form. -/
theorem Memory.restore_wf (m : Memory) (p n : Nat) (cells : List Host.Cell) (h : Memory.wf m) :
    Memory.wf (Memory.restore m p n cells) := by
  refine foldl_keeps Memory.wf _ _ _ (Memory.clear_wf m p n h) (fun m c hm => ?_)
  split
  · exact Memory.set_wf _ _ _ hm
  · exact hm

/-- Moving a frame keeps the canonical form. -/
theorem Memory.moveFrame_wf (m : Memory) (old new size : Nat) (h : Memory.wf m) : Memory.wf (Memory.moveFrame m old new size) :=
  foldl_keeps Memory.wf _ _ _ (Memory.filter_wf _ _ h) (fun _ _ hm => Memory.set_wf _ _ _ hm)

/-- A byte of a cleared range reads zero. -/
theorem Memory.get_clear_in (m : Memory) (p n i : Nat) (h : p ≤ i ∧ i < p + n) : Memory.get (Memory.clear m p n) i = 0 := by
  induction m with
  | nil => rfl
  | cons c t ih =>
    obtain ⟨b, v⟩ := c
    simp only [Memory.clear, List.filter_cons] at ih ⊢
    split
    · rename_i hb
      have : b ≠ i := by rintro rfl; simp [h] at hb
      simpa [Memory.get, this] using ih
    · exact ih

/-- A byte outside a cleared range reads as before. -/
theorem Memory.get_clear_out (m : Memory) (p n i : Nat) (h : i < p ∨ p + n ≤ i) :
    Memory.get (Memory.clear m p n) i = Memory.get m i := by
  induction m with
  | nil => rfl
  | cons c t ih =>
    obtain ⟨b, v⟩ := c
    simp only [Memory.clear, List.filter_cons] at ih ⊢
    split
    · simp only [Memory.get, ih]
    · rename_i hb
      have : b ≠ i := by rintro rfl; simp at hb; omega
      simpa [Memory.get, this] using ih

@[simp] theorem State.devPut_mem (s : State) (r : Nat) (v : Word) : (s.devPut r v).mem = s.mem := by
  unfold State.devPut; split <;> rfl

@[simp] theorem State.postOnce_mem (s : State) (d : Nat) (i : Instr) : (s.postOnce d i).mem = s.mem := by
  unfold State.postOnce; split <;> rfl

@[simp] theorem State.devPuts_mem (s : State) (r : Nat) (l : List Word) : (s.devPuts r l).mem = s.mem := by
  induction l generalizing s r with
  | nil => rfl
  | cons v t ih => exact (ih _ _).trans (State.devPut_mem _ _ _)

@[simp] theorem State.logError_mem (s : State) (kind n code : Nat) (inj : Bool) (addr : Word) (synd : BitVec 16) (dom : BitVec 12) :
    (s.logError kind n code inj addr synd dom).mem = s.mem := State.devPuts_mem _ _ _

@[simp] theorem State.setRetention_mem (s : State) (kind n : Nat) (on : Bool) : (s.setRetention kind n on).mem = s.mem := by
  simp only [State.setRetention, apply_ite State.mem, State.postOnce_mem, State.devPut_mem, ite_self]

@[simp] theorem State.retentionEnd_mem (s : State) (kind n : Nat) : (s.retentionEnd kind n).mem = s.mem := by
  unfold State.retentionEnd
  dsimp only
  split
  · rfl
  · simp only [apply_ite State.mem, State.logError_mem, ite_self]

@[simp] theorem State.wake_mem (s : State) (kind n : Nat) : (s.wake kind n).mem = s.mem := by
  simp only [State.wake, apply_ite State.mem, State.retentionEnd_mem, State.setRetention_mem, ite_self]

@[simp] theorem State.wakeAt_mem (s : State) (p : Nat) : (s.wakeAt p).mem = s.mem := by
  unfold State.wakeAt
  split
  · exact State.wake_mem _ _ _
  · rfl

@[simp] theorem State.forget_mem (s : State) (w : Nat × Nat × Nat) : (s.forget w).mem = s.mem := rfl
@[simp] theorem State.strike_mem (s : State) (w : Nat × Nat × Nat) (fatal : Bool) : (s.strike w fatal).mem = s.mem := rfl

@[simp] theorem State.writeWord_mem (s : State) (w : Nat × Nat × Nat) : (s.writeWord w).mem = s.mem := by
  unfold State.writeWord
  simp only
  split
  · split
    · rw [State.strike_mem, State.devPut_mem, State.forget_mem]
    · rw [State.devPut_mem, State.forget_mem]
  · rw [State.forget_mem]

@[simp] theorem State.injectAt_mem (s : State) (p n : Nat) : (s.injectAt p n).mem = s.mem := by
  unfold State.injectAt
  split
  · rfl
  · exact foldl_keeps (fun t : State => t.mem = s.mem) _ _ _ rfl (fun t w ht => (State.writeWord_mem t w).trans ht)

@[simp] theorem State.mendWord_mem (s : State) (w : Nat × Nat × Nat) (addr : Word) (dom : BitVec 12) :
    (s.mendWord w addr dom).mem = s.mem := by
  unfold State.mendWord
  split
  · rw [State.forget_mem, State.logError_mem]
  · rfl

/-- Correcting what a read finds changes no byte. -/
@[simp] theorem State.scrub_mem (s : State) (p n : Nat) (addr : Word) (dom : BitVec 12) : (s.scrub p n addr dom).mem = s.mem :=
  foldl_keeps (fun t : State => t.mem = s.mem) _ _ _ rfl (fun t w ht => (State.mendWord_mem t w addr dom).trans ht)

@[simp] theorem State.meetWatches_mem (s : State) (p n : Nat) : (s.meetWatches p n).mem = s.mem := by
  unfold State.meetWatches
  split
  · exact foldl_keeps (fun t : State => t.mem = s.mem) _ _ _ rfl (fun t w ht => by simpa using ht)
  · rfl

/-- A write at a place: ignored in a frame area, else the bytes and nothing else of memory. -/
theorem State.writeAt_mem (s : State) (p : Nat) (bs : List Byte) :
    (s.writeAt p bs).mem = if s.inFrameArea p then s.mem else Memory.setBytes s.mem p bs := by
  unfold State.writeAt
  split <;> simp

theorem State.writeAt_wf (s : State) (p : Nat) (bs : List Byte) (h : Memory.wf s.mem) : Memory.wf (s.writeAt p bs).mem := by
  rw [State.writeAt_mem]
  split
  · exact h
  · exact Memory.setBytes_wf _ _ _ h

theorem State.redApply_wf (s : State) (x : Contribution) (h : Memory.wf s.mem) : Memory.wf (s.redApply x).mem := by
  unfold State.redApply
  split
  · exact h
  · exact State.writeAt_wf _ _ _ (by rw [State.scrub_mem]; exact h)

theorem State.redDrain_wf (fuel : Nat) (s : State) (p : Nat) (h : Memory.wf s.mem) : Memory.wf (s.redDrain fuel p).mem := by
  induction fuel generalizing s with
  | zero => exact h
  | succ n ih =>
    unfold State.redDrain
    dsimp only
    split
    · exact h
    · exact ih _ (State.redApply_wf _ _ h)

theorem State.redStore_wf (s : State) (p n : Nat) (h : Memory.wf s.mem) : Memory.wf (s.redStore p n).mem :=
  foldl_keeps (fun t : State => Memory.wf t.mem) _ _ _ h (fun _ _ ht => State.redDrain_wf _ _ _ ht)

/-- An ordinary store keeps the canonical form. -/
theorem State.storeAt_wf (s : State) (p : Nat) (bs : List Byte) (h : Memory.wf s.mem) : Memory.wf (s.storeAt p bs).mem := by
  have k := State.redStore_wf _ p bs.length (State.writeAt_wf s p bs h)
  unfold State.storeAt
  dsimp only
  split
  · exact State.writeAt_wf _ _ _ k
  · exact k

theorem State.storeNat_wf (s : State) (p n v : Nat) (h : Memory.wf s.mem) : Memory.wf (s.storeNat p n v).mem :=
  State.storeAt_wf _ _ _ h

end Sys2Proof.Machine
end

