-- ==== Sys2Proof/Tests/Slice0.lean ====
section
/-!
SUPPORT. Tests on fixed values, from the spec's own tables and from hand calculation, and a state that meets the
hypotheses of each statement.
-/
namespace Sys2Proof.Tests
open Sys2Proof Sys2Proof.Machine
-- Each proof here ends in the kernel: one after another, they need one stack.
set_option Elab.async false

/-! ## Words of the spec's tables -/

/-- Every word of the list decodes to its instruction, and is that instruction's encoding. -/
abbrev wordsAre (l : List (List IWord × Instr)) : Prop :=
  ∀ p ∈ l, decode (p.1.flatMap wordBytes) = .ok p.2 (4 * p.1.length) [] ∧ encode p.2 = p.1

-- 05 Tables 5.3, 5.5, 5.6, 5.7 and 5.13
theorem test_words_scalar : wordsAre [([0x06102800], .add 16 16 5 0), ([0x04A63AC1], .div 5 6 7 1), ([0x04A63DC8], .selnz 5 6 7 8),
    ([0x050837C2], .addsh 8 8 6 2), ([0x052A0600], .clz 9 10 0), ([0x08C00064], .addi 6 0 100), ([0x08A6D043], .srai 5 6 1 3),
    ([0x08A6F203], .bfxs 5 6 8 3), ([0x0D1FFEC0], .lih 8 0x1FFEC0), ([0x08E003E8], .addi 7 0 1000), ([0x09084040], .ori 8 8 0x40),
    ([0x10A03FFD], .bne 5 0 0x1FFD), ([0x1CA00202], .csrr 5 0 2), ([0x1C060242], .csrw 0 6 0 2), ([0x1CE00241], .csrw 7 0 0 1),
    ([0x1D200220], .csrr 9 0 0x20), ([0x1C090305], .trap 9 5), ([0x1C000340], .brk 0)] := by decide

-- 02 R32 to R35 (long forms), 15 R336
theorem test_words_long : wordsAre [([0xFC400091, 0x08C01456], .ixLongForm .addi 6 0 0x123456),
    ([0xFC06F900, 0x40811080], .vxLongForm .vadd ⟨4, 1, 2, 0, 2, 0, 0⟩ ⟨0x1B, 0xE4, 0, 0, 0, 0, 0⟩),
    ([0xFC850000, 0x38E83083], .stxCue 7 8 6 5 3)] := by decide

-- 04 Table 4.7, 11 R225
theorem test_words_task : wordsAre [([0x1CA00043], .tpost 5 3), ([0x1CC00080], .tstate 6), ([0x1CE000C0], .tcycles 7), ([0x1C070105], .tsetarg 7 5),
    ([0x1C000142], .tenable 0 2), ([0x1D000182], .tdisable 8 2), ([0x1CC701C0], .vclaim 6 7)] := by decide

-- 06 Table 6.8
theorem test_words_queue : wordsAre [([0x34C13800], .qpop 6 1 7), ([0x34C24040], .qpopM 6 2 8), ([0x34E20080], .qtag 7 2), ([0x352200C0], .qcount 9 2),
    ([0x34030100], .qdrop 0 3), ([0x35453160], .qpush 10 5 6 1 0), ([0x34680180], .qpushM 3 8 0 0 0), ([0x348501C0], .qmark 4 5 0),
    ([0x35220200], .qhandle 9 2), ([0x34C80240], .qcreate 6 8), ([0x34C90281], .qdestroy 6 9 1), ([0x352202C0], .qstat 9 2),
    ([0x34600141], .qpush 3 0 0 0 1)] := by decide

-- 08 Tables 8.3, 8.4 and 8.13
theorem test_words_memory : wordsAre [([0x20A84010], .ldW 5 8 16), ([0x20A87FF8], .ldD 5 8 0x1FF8), ([0x20C8E000], .ldQ 6 8 0), ([0x24C46008], .stD 6 4 8),
    ([0x28A84803], .bld 5 8 9 3), ([0x28A84843], .blds 5 8 9 3), ([0x28A84883], .bst 5 8 9 3), ([0x28A848C3], .bldp 5 8 9 3),
    ([0x28A84903], .bstp 5 8 9 3), ([0x28684A00], .tlbiv 3 8 9), ([0x28690240], .tlbid 3 9), ([0x28C80280], .tlbprb 6 8 0),
    ([0x280802C1], .pref 8 1)] := by decide

-- 09 Table 9.8, R198, R206, R209, R215
theorem test_words_order : wordsAre [([0x2CC82827], .amoAdd 6 8 5 4 3 1), ([0x2CC82840], .amoAnd 6 8 5 0 0 0), ([0x2CC82A00], .amoSwap 6 8 5 0 0 0),
    ([0x2CC82A53], .amoCas 6 8 5 2 1 1), ([0x30A80062], .ldAcq 5 8 4 2), ([0x30A8006B], .ldAcq 5 8 5 3), ([0x30C800A2], .stRel 6 8 4 2),
    ([0x30C828C0], .redf 6 8 5), ([0x300A0902], .tarm 10 1 2), ([0x30490140], .barrier 2 9), ([0x30492980], .barq 2 9 5)] := by decide

-- 11, the examples of R233 to R256
theorem test_words_vector : wordsAre [([0x40C1104F], .vmac 6 1 2 0 1), ([0x44611046], .vsra 3 1 2 0 1), ([0x48211100], .vfadd 1 1 2 1 0),
    ([0x48A11043], .vfma 5 1 2 0 1), ([0x4C411002], .vcmplt 2 1 2 0), ([0x4C61100A], .mand 3 1 2), ([0x5029000A], .vmaskn 1 9),
    ([0x50A13002], .vext 5 1 6 0), ([0x54A10208], .vfrsum 5 1 2 0), ([0x58611083], .vdot 3 1 2 0 2 0 0), ([0x586110B3], .vdot 3 1 2 0 2 1 1),
    ([0x60280100], .vld 1 8 1 0), ([0x60280101], .vst 1 8 1 0), ([0x60084806], .vldt 0 8 9 0 0), ([0x64A11882], .vcvtn 5 1 3 2),
    ([0x64411804], .vfn 2 1 3 0), ([0x64410005], .vsin 2 1 0), ([0x64410007], .vexp 2 1 0), ([0x64410309], .vrcp 2 1 3),
    ([0x6441180D], .vscale 2 1 3 0)] := by decide

-- 12 Table 12.9, 13 Table 13.6
theorem test_words_matrix : wordsAre [([0x68484805], .mloadb 2 8 9 5), ([0x68484845], .mma 2 8 9 5), ([0x686A5882], .mdrain 3 10 11 0 2),
    ([0x684000C0], .mzero 2), ([0x68000125], .mbinv 37), ([0x68C00145], .mbstat 6 5), ([0x68850180], .mnote 4 5), ([0x680849C0], .tdset 8 9),
    ([0x68084A00], .tdget 8 9), ([0x68C00240], .tdalloc 6), ([0x68C80280], .tdfree 6 8), ([0x68084AC0], .tdrag 8 9),
    ([0x6C484800], .xcopy 2 8 9 0), ([0x6C484801], .xcopy 2 8 9 1), ([0x6C685040], .xred 3 8 10 0), ([0x6C484880], .xfill 2 8 9 0),
    ([0x6CC800C0], .xstat 6 8), ([0x6CC80100], .xabort 6 8)] := by decide

-- 15 Table 15.7, 18 Table 18.8, 20 Table 20.13
theorem test_words_remote : wordsAre [([0x38A83003], .stx 5 8 6 3), ([0x38A83043], .stCue 5 8 6 3), ([0x386700C0], .cueq 3 7), ([0x38484903], .getq 2 8 9 3),
    ([0x38882950], .amoq 4 8 5 1 0), ([0x38C84980], .lnkdiag 6 8 9), ([0x38C801C0], .lnkstat 6 8), ([0x3CC00000], .rqalloc 6),
    ([0x3CC80043], .rqread 6 8 3), ([0x3CC84885], .rqwrite 6 8 9 5), ([0x3CC800C0], .rqqueue 6 8), ([0x3CC84900], .rqcommit 6 8 9),
    ([0x3C684940], .rqfork 3 8 9), ([0x3CC84980], .rqretire 6 8 9), ([0x3CC80181], .rqretireFree 6 8), ([0x3CC801C0], .rqpark 6 8),
    ([0x3C480200], .bfstep 2 8), ([0x3C684A40], .smpl 3 8 9), ([0x3C684A80], .beam 3 8 9), ([0x3CC84AC0], .lahar 6 8 9 0),
    ([0x1CC84E00], .svbind 6 8 9), ([0x1C484E40], .svhalt 2 8 9), ([0x1CC84E80], .svresume 6 8 9), ([0x1CC84EC0], .svmap 6 8 9),
    ([0x1CC84E81], .svresumeR 6 8 9)] := by decide

-- 02 R41: reserved majors, the all-zero and the all-one word, an unassigned func3, a reserved bit
theorem test_ill_words : [0x00000000#32, 0xFFFFFFFF#32, 0x5C000000#32, 0x70000000#32, 0x10A0C000#32, 0x1CA00083#32].all (fun w =>
    match decode (wordBytes w) with
    | .ok _ _ _ => false
    | _ => true) = true := by decide

/-! ## Ill-formed terms, one for each check (02 R30–R41) -/

-- the greatest admitted value passes where the next one fails
theorem test_wf_shift : (Instr.slli 1 2 1 31).wf = true ∧ (Instr.slli 1 2 1 32).wf = false ∧ (Instr.srli 1 2 1 32).wf = false ∧
    (Instr.srai 1 2 1 32).wf = false ∧ (Instr.rori 1 2 1 32).wf = false ∧ (Instr.rori 1 2 0 63).wf = true := by decide
theorem test_wf_field : (Instr.bfx 1 2 0 63).wf = true ∧ (Instr.bfx 1 2 1 63).wf = false ∧ (Instr.bfxs 1 2 63 1).wf = false := by decide
theorem test_wf_handle : (Instr.qpop 1 15 2).wf = true ∧ (Instr.qpop 1 16 2).wf = false ∧ (Instr.qpush 16 1 2 0 0).wf = false ∧
    (Instr.qpush 16 1 2 1 0).wf = true ∧ (Instr.svhalt 16 1 2).wf = false ∧ (Instr.tlbiv 16 1 2).wf = false ∧ (Instr.barrier 16 1).wf = false ∧
    (Instr.cueq 16 1).wf = false ∧ (Instr.rqfork 16 1 2).wf = false ∧ (Instr.mloadb 16 1 2 0).wf = false ∧ (Instr.xcopy 16 1 2 0).wf = false := by decide
theorem test_wf_payload : (Instr.qpushM 3 8 1 0 0).wf = false ∧ (Instr.qpushM 3 8 1 1 0).wf = true := by decide
theorem test_wf_tile : (Instr.mma 7 1 2 0).wf = true ∧ (Instr.mma 8 1 2 0).wf = false ∧ (Instr.mzero 8).wf = false := by decide
theorem test_wf_pair : (Instr.ldQ 2 1 0).wf = true ∧ (Instr.ldQ 3 1 0).wf = false ∧ (Instr.ldQ 0 1 0).wf = false ∧ (Instr.stQ 31 1 0).wf = false ∧
    (Instr.ixLongForm .ldQ 3 1 0).wf = false ∧ (Instr.ldAcq 3 1 0 4).wf = false ∧ (Instr.amoq 1 2 3 0 9).wf = false := by decide
theorem test_wf_bits : (Instr.bldp 5 8 5 0).wf = false ∧ (Instr.bstp 5 8 5 0).wf = false ∧ (Instr.bldp 5 8 9 0).wf = true := by decide
theorem test_wf_scope : (Instr.fence 2 5).wf = true ∧ (Instr.fence 2 6).wf = false ∧ (Instr.fence 3 0).wf = false ∧ (Instr.amoAdd 1 2 3 6 1 0).wf = false ∧
    (Instr.ldAcq 1 2 6 0).wf = false ∧ (Instr.stRel 1 2 0 5).wf = false := by decide
theorem test_wf_order : (Instr.amoAdd 1 2 3 0 0 0).wf = true ∧ (Instr.amoAdd 1 2 3 4 0 0).wf = false ∧ (Instr.amoCas 1 2 3 5 3 1).wf = true := by decide
theorem test_wf_tarm : (Instr.tarm 28 4 0).wf = true ∧ (Instr.tarm 29 4 0).wf = false ∧ (Instr.tarm 1 0 0).wf = false ∧ (Instr.tarm 1 5 0).wf = false := by decide
theorem test_wf_amoq : (Instr.amoq 1 2 4 0 9).wf = true ∧ (Instr.amoq 1 2 4 0 10).wf = false := by decide
theorem test_wf_vector : (Instr.vcmplt 0 1 2 0).wf = false ∧ (Instr.vcmplt 8 1 2 0).wf = false ∧ (Instr.mand 1 8 2).wf = false ∧
    (Instr.vwadd 1 2 3 0 0 0 0).wf = false ∧ (Instr.vldt 1 8 9 0 0).wf = false ∧ (Instr.vldt 16 8 9 0 0).wf = true ∧ (Instr.vfn 1 2 8 0).wf = false ∧
    (Instr.vcvtn 5 1 3 1).wf = false ∧ (Instr.vcvtn 5 1 0 0).wf = false := by decide
theorem test_wf_payload_vx : (Instr.vxLongForm .vadd ⟨4, 1, 2, 0, 2, 0, 0⟩ ⟨0x1B, 0xE4, 0, 0, 0, 0, 1⟩).wf = false ∧
    (Instr.vxLongForm .vadd ⟨4, 16, 2, 0, 2, 0, 0⟩ ⟨0xE4, 0xE4, 0, 0, 1, 0, 0⟩).wf = false ∧
    (Instr.vxLongForm .vld ⟨4, 1, 0, 0, 0, 0, 0⟩ ⟨0xE4, 0xE4, 0, 1, 0, 0, 0⟩).wf = false ∧
    (Instr.vxLongForm .vld ⟨4, 1, 0, 0, 0, 0, 0⟩ ⟨0x1B, 0xE4, 0, 0, 0, 0, 0⟩).wf = false ∧
    (Instr.vxLongForm .mand ⟨1, 1, 2, 0, 0, 0, 0⟩ ⟨0xE4, 0xE4, 1, 0, 0, 0, 0⟩).wf = false ∧
    (Instr.vxLongForm .vmac ⟨4, 1, 2, 0, 0, 0, 0⟩ ⟨0xE4, 0xE4, 0, 1, 0, 0, 0⟩).wf = false ∧
    (Instr.vxLongForm .vadd ⟨4, 1, 2, 0, 0, 1, 0⟩ ⟨0xE4, 0xE4, 0, 0, 0, 0, 0⟩).wf = false := by decide

/-! ## One step on a small state -/

/-- Core 0 runs an instance of priority 3 in role 0, whose domain is 5 and whose code is virtual page 1. -/
def start (svc : Bool) (f : Core → Core) : State :=
  let role : Role := { svc := svc, dom := 5, cores := [0], codeVa := 0x10000, codeLen := 65536 }
  let x := State.reset.core 0
  (State.reset.setRole 0 role).setCore 0 (f { x with cond := .running, role := some 0, pc := 0xFFF0000000010000, inst := { id := 9, prio := 3 } })

/-- The instruction answers a next state of which `p` holds. -/
def after (i : Instr) (s : State) (p : State → Bool) : Bool := match exec i s with
  | .next t => p t
  | _ => false

/-- The last call that fumarole's queue has taken holds a fault item with this code and detail. -/
def told (t : State) (code : BitVec 8) (detail : Word) : Bool := match (t.queue 505).items.getLast? with
  | some i => i.item.data.extractLsb' (128 + 56) 8 == code && i.item.data.extractLsb' (128 + 128) 64 == detail
  | none => false

/-- Fumarole's queue is there. -/
def heard (s : State) : State := s.setQueue 505 (serviceQueue 5 0)

-- 05 R109's example; R105 DIV at the overflow; R105 ADDSH; R113 with the link in its own source
theorem test_bfxs : after (.bfxs 5 6 8 3) (start false (·.setReg 6 0xA00)) (fun t => t.me.reg 5 == 0xFFFFFFFFFFFFFFFA) = true := by decide +kernel
theorem test_lih : after (.lih 8 0x1FFEC0) (start false id) (fun t => t.me.reg 8 == 0xFFF6000000000000 && t.me.pc == 0xFFF0000000010004) = true := by
  decide +kernel
theorem test_div_overflow : after (.div 5 6 7 1) (start false (fun x => (x.setReg 6 0x80000000).setReg 7 0xFFFFFFFF))
    (fun t => t.me.reg 5 == 0xFFFFFFFF80000000) = true := by decide +kernel
theorem test_rem_zero : after (.rem 5 6 7 0) (start false (fun x => x.setReg 6 0xFFFFFFFFFFFFFFF9)) (fun t => t.me.reg 5 == 0xFFFFFFFFFFFFFFF9) = true := by
  decide +kernel
theorem test_s0 : after (.addi 0 0 5) (start false id) (fun t => t.me.reg 0 == 0 && t.me.retired == 1) = true := by decide +kernel
theorem test_jalr_self : after (.jalr 31 31 0) (start false (·.setReg 31 0x1230)) (fun t => t.me.pc == 0x1230 && t.me.reg 31 == 0xFFF0000000010004) = true := by
  decide +kernel
theorem test_jalr_misaligned : after (.jalr 31 31 0) (heard (start false (·.setReg 31 0x1232)))
    (fun t => t.me.cond == .idle && told t cALIGN 0x1232) = true := by decide +kernel
theorem test_bne_back : after (.bne 5 0 0x1FFD) (start false (·.setReg 5 1)) (fun t => t.me.pc == 0xFFF000000000FFF4) = true := by decide +kernel

-- 05 Table 5.13: CSRW s7, NFLAGS, s0 reads the flags and clears them; 05 R119's example; 02 R42
theorem test_csrw_nflags : after (.csrw 7 0 0 1) (start false (fun x => { x with nflags := 0x15 })) (fun t => t.me.reg 7 == 0x15 && t.me.nflags == 0) = true := by
  decide +kernel
theorem test_csrw_priv : after (.csrw 0 6 1 0) (heard (start false (·.setReg 6 1))) (fun t => told t cPRIV 0x40 && t.me.dbgctl == 0) = true := by decide +kernel
theorem test_trap : after (.trap 9 5) (heard (start false (·.setReg 9 0x77))) (fun t => told t 0x45 0x77 && t.me.cond == .idle) = true := by decide +kernel

-- 08 R166: a store to the core's own TCM in the short form, and what a load of its bytes then reads
theorem test_store_load : after (.stW 6 8 4) (start false (fun x => (x.setReg 6 0x80F1F2F3).setReg 8 0xFFF6000000000010)) (fun s =>
    after (.ldB 5 8 7) s (fun t => t.me.reg 5 == 0xFFFFFFFFFFFFFF80) && after (.ldHu 5 8 4) s (fun t => t.me.reg 5 == 0xF2F3)) = true := by decide +kernel
theorem test_store_misaligned : after (.stW 6 8 2) (heard (start false (·.setReg 8 0xFFF6000000000010))) (fun t => told t cALIGN 0xFFF6000000000012) = true := by
  decide +kernel
theorem test_frame_area : after (.ldD 5 8 0) (heard (start false (·.setReg 8 0xFFF6000000003A00))) (fun t => told t cACCESS 0xFFF6000000003A00) = true := by
  decide +kernel

-- 22 R448's example, with the readings of sensor 0
theorem test_monitor : after (.monitorControl 0 0x8009000000000000) State.reset (fun s =>
    let t := [0, 1, 3, 4, 40, 70000].foldl (fun s v => match exec (.monitorSample 0 v) s with
      | .next t => t
      | _ => s) s
    (List.range 11).map (fun k => t.devGet (monReg 0 k)) ==
      [0x8009000000000000, 6, 0x0001117000000000, 0x0000000100000002, 1, 0x0000000100000000, 0, 0, 0, 0, 0x0000000100000000]) = true := by decide +kernel

-- 03 Table 3.4, in quarters
theorem test_k4 : (List.range 16).map (fun c => Claim.scaled 2 (decodeFloat .k4 c)) = [0, 1, 2, 3, 4, 6, 8, 12, 0, -1, -2, -3, -4, -6, -8, -12] := by
  decide +kernel
-- 03 R62, R66: a half to the even neighbour, and beyond the greatest T8 with and without SAT
theorem test_round_even : encodeNum .bf16 ⟨0, false, false, false⟩ (.fin false 257 0) = (0x4380, flagINX) ∧ encodeNum .bf16 ⟨0, false, false, false⟩ (.fin false 259 0) = (0x4382, flagINX) := by decide +kernel

/-! ## States that meet the statements' hypotheses -/

/-- The machine with core 0's turn next: a service-level instance in the code page at `withFetchWord`'s address. -/
def ready (w : Nat) : State := State.reset.withFetchWord 64 w

/-- What an access check and a translation give. -/
def reached (s : State) (kind : Kind) (addr : Word) (al : Nat) (p : Loc → Nat → State → Bool) : Bool :=
  match checkAddress addr s with
  | .ok (l, _) => addr.toNat % al == 0 && match translate l kind addr s with
    | .ok (pa, u) => p l pa u
    | .error _ => false
  | .error _ => false

/-- What holds of every core that is listed, and of a core as reset leaves it, holds of every core. -/
theorem all_entries {α : Type} (d : α) (P : α → Prop) (hd : P d) : ∀ (l : Tbl α), (∀ e ∈ l, P e.2) → ∀ k, P (Tbl.get l d k)
  | [], _, _ => hd
  | (j, v) :: l, h, k => by
    have r := all_entries d P hd l (fun e he => h e (List.mem_cons_of_mem _ he)) k
    simp only [Tbl.get, Tbl.find?] at r ⊢
    split
    · exact h _ List.mem_cons_self
    · exact r
theorem all_cores (s : State) (P : Core → Prop) (h : ∀ e ∈ s.cores, P e.2) (hd : P {}) (k : CoreId) : P (s.core k) :=
  all_entries _ P hd s.cores h k

/-- An access at the place is applied at once, and is next in program order. -/
def quiet (s : State) (p : Nat) : Bool :=
  s.redirects.isEmpty && s.migrations.isEmpty && s.injected.isEmpty && s.tests.isEmpty && p / 2 ^ 48 != 5 && (s.sleeping p 16).isNone
def next? (u : State) (l : Loc) (pa n : Nat) : Bool := !u.mustWait l pa n false && u.me.stbuf.all (fun e => !u.behind? u.cur l pa n false e)

/-- Does it stop, and for which page fault? -/
def pageOf {α : Type} : Except Stop α → Option PageWhy
  | .error (.page p) => some p.why
  | _ => none
/-- Does it stop with a fault of this code and detail? -/
def trapOf {α : Type} : Except Stop α → Option (BitVec 8 × Word)
  | .error (.trap c d) => some (c, d)
  | _ => none
/-- What it gives. -/
def okOf {α β : Type} : Except Stop (α × β) → Option α
  | .ok (x, _) => some x
  | _ => none

/-- The core's TCM, at a doubleword's end and at its last quadword below the frame area. -/
def tcm : Word := 0xFFF6000000000000
/-- Where a store of virtual page 2 goes: core 0's DTLB holds the page, read and write. -/
def paged (f : Core → Core) : State :=
  start false (fun x => f { x with dtlb := [{ dom := 5, page := 2, large := false, leaf := 0x200DF, gen := 0 }] })
def full : List StEntry := (List.range 8).map (fun i => { src := 0, id := i, inst := 9, dom := 5, key := 3 * 2 ^ 48 + 256 + 8 * i, pa := 3 * 2 ^ 48 + 256 + 8 * i, n := 8, value := 0, bits := 0xFFFFFFFFFFFFFFFF })

def waiting7 (st : HeldAs) (p : BitVec 3) : Held :=
  { inst := { id := 4, prio := p }, st := st, frame := none, pc := 0xFFF0000000010040, sregs := Vector.replicate 16 0, nflags := 0, vl := 0,
    vregs := Vector.replicate 32 [], masks := Vector.replicate 8 0, blocks := [] }
/-- Domain 5's tables at 0x2000, 0x10000 and 0x6000: page 2 of small pages with leaf `l`, and large page 1 with leaf `g`. -/
def tables (l g : Word) (f : Core → Core) : State :=
  let s := (start false f).devPut (0x20000 + 5) (0x2000 + 1)
  { s with mem := Memory.setBytes (Memory.setBytes (Memory.setBytes (Memory.setBytes [] 0x2000 (bytesOf (0x10001 : Word) 8)) 0x10000 (bytesOf (0x6001 : Word) 8))
      0x10008 (bytesOf g 8)) 0x6010 (bytesOf l 8) }
/-- The machine about to run an instruction on core 0, whose registers `f` sets. -/
noncomputable def about (i : Instr) (f : Core → Core) : State :=
  let s := ready (match encode i with
    | [w] => w.toNat
    | [w, v] => (v ++ w).toNat
    | _ => 0)
  s.setCore 0 (f (s.core 0))
def waits (w : Wait) (x : Core) : Core := { x with held := [waiting7 (.parked w) 3] }

/-- `n` accesses of the running instance to other packages on their way. -/
def busy (n : Nat) (x : Core) : Core :=
  { x with outst := (List.range n).map (fun k =>
      { serial := k, inst := x.inst.id, store := true, read := true, addr := 0, qid := none, cue := 0, notice := false, at_ := 0 }) }
def it (t : BitVec 4) (n : Nat) : Item := { tag := t, data := BitVec.ofNat 1024 n }
def cp (k n : Nat) (o : Option Nat) : Copy := ⟨k, 0, it 1 n, o⟩
/-- Queue 40 of cluster 0, of domain 5, with handle 4; queue 600 of cluster 1 with handle 5, 40 of package 1 with handle 6. -/
def queued (x : Queue) (f : Core → Core) : State :=
  { (start true (fun c => f { c with handles := [(3, .faultQueue), (4, .queue 40), (5, .queue (BitVec.ofNat 32 (88 + 2 ^ 15))), (6, .queue (BitVec.ofNat 32 (40 + 2 ^ 20)))] })).setQueue 40 x with
    happenings := [] }
def q40 : Queue := { st := .active, cap := 2, g := 2, consumers := [0, 1], dom := 5, window := 4 }
def idle (s : State) : Bool := s.me.contribs.isEmpty && s.me.stbuf.isEmpty && s.migrations.isEmpty && s.me.outst.all (fun o => o.inst != s.me.inst.id) && s.happenings.isEmpty
def spad : Word := 0xFFF7000000000000
/-- A tensor of `ext` × `ext` elements of a format at a base, dense, with rows 128 bytes apart. -/
def tens (fmt ext : Nat) (base : Word) : Entry :=
  BitVec.ofNat 512 (base.toNat + fmt * 2 ^ 220 + 2 * 2 ^ 224 + 2 ^ 236 + (ext - 1) * 2 ^ 242 + (ext - 1) * 2 ^ 262 + 128 * 2 ^ 362)
/-- Core 0 with `s6` naming INDEX 5 locally, `s7` at the TCM, handle 4 on queue 40, accumulator 3 on tile 9. -/
def tensored (e : Entry) (f : Core → Core) : State :=
  { queued q40 (fun x => f { ((x.setReg 6 0xFFF04005).setReg 7 tcm) with accs := [(3, 9)] }) with
    tensors := [(5, { taken := true, owner := 5, entry := e }), (6, { taken := true, owner := 6 }), (0, { taken := true }), (1, { taken := true })] }
/-- A core with 16 lanes, whose `v1` holds `f i` in lane i. -/
def laned (f : Nat → Nat) (g : Core → Core) : State :=
  { start true (fun x => g { ({ x with vl := 16 } : Core).setVreg 1 ((List.range 16).map (fun i => BitVec.ofNat 32 (f i))) with blocks := [0], masks := Vector.replicate 8 2 }) with happenings := [] }
/-- Record 5 of former 0 in a state, with 7 tokens of prompt, of domain 5 and generation 9, and fields more. -/
def recorded (st more : Nat) (f : Core → Core) : State :=
  let s := queued q40 (fun x => f (x.setReg 6 (9 * 2 ^ 24 + 5)))
  let r := BitVec.ofNat 2048 (5 * 2 ^ 16 + st * 2 ^ 53 + 9 * 2 ^ 56 + 7 * 2 ^ 64 + 0x1000 * 2 ^ 128 + 1 * 2 ^ 176 + more)
  { s.devPut (formerReg 0 7) (2 ^ 63 + 5) with mem := Memory.setBytes [] (recordPlace 0 5) (bytesOf r 256) }
def request (k : RemoteKind) : RemoteReq :=
  { serial := 7, origin := 1, core := 0, domain := 5, svc := true, inst := 9, pc := 0, addr := 0x0002000000000008, kind := k }
/-- The target word of core 1. -/
def word1 : Word := 0xFFF0000800000000
/-- Core 1 as `g` makes it, with a domain-5 role 0 and core 0 at service level. -/
def two (f g : Core → Core) : State :=
  let s := { queued q40 (fun x => f ((x.setReg 6 word1).setReg 7 tcm)) with mem := Memory.setBytes [] (3 * 2 ^ 48) ((List.range 24).map (fun k => if k = 16 then 3 else 0)) }
  s.setCore 1 (g {})
/-- A service's queue with a call of a function of domain 5, its reply path queue 40, and the arguments. -/
def called (n fn arg : Nat) (f : State → State) : State :=
  let call := BitVec.ofNat 1024 (99 + fn * 2 ^ 64 + 5 * 2 ^ 80 + 40 * 2 ^ 96 + arg * 2 ^ 128)
  f ((two (fun x => x) (fun x => x)).setQueue (500 + n) { serviceQueue n 0 with items := [⟨0, 0, { tag := 0, data := call }, none⟩] })
def asked (s : State) (n fn : Nat) (p : State → BitVec 1024 → Bool) : Bool := match (s.queue (500 + n)).items with
  | i :: _ => !i.item.note && Claim.func i.item.data == fn && p (s.takeCopy (500 + n) i) i.item.data
  | [] => false
/-- A store of the domain is queued at a page that moves: what takes a translation away waits. -/
def unsettled (dom : BitVec 12) (s : State) : State :=
  { s with nextId := 9, migrations := [{ cmd := { domain := dom, va := 0x20000, large := false, frame := 0x70000 }, old := 0x20000,
                                         queued := [.store { src := 0, id := 1, inst := 9, dom := dom, key := 0x20000, pa := 0x20000, n := 8, value := 0, bits := 0xFF }] }] }

-- 01
theorem witness_DecodeEncode : Instr.wf (.add 16 16 5 0) = true ∧ encode (.add 16 16 5 0) ≠ [] ∧ Instr.wf (.ixLongForm .addi 6 0 0xFFFFFFFF) = true := by
  decide +kernel
theorem witness_StepRunsDecoded :
    (ready 0x06102800).takeTurn.1 = some (.core 0) ∧
    (let t := (ready 0x06102800).takeTurn.2
     let u := { t with cur := 0 }
     u.schedule = [] ∧ u.me.cond = .running ∧ (u.create 0).isNone ∧ u.overBudget 0 = false ∧ u.me.preemptable = false) := by decide +kernel
/-- The word fetched at the pc, and the one after. -/
def fetched (w : Nat) (p : IWord → IWord → Bool) : Bool :=
  let s := ready w
  match fetchAt s.me.pc s with
  | .ok (a, x) => match fetchAt (s.me.pc + 4) x with
    | .ok (b, _) => p a b
    | .error _ => false
  | .error _ => false
theorem witness_StepRunsDecoded_words :
    fetched 0x06102800 (fun a _ => !isPrefix a && (decodeShort a).toOption == some (.add 16 16 5 0)) ∧
    fetched 0x08C01456FC400091 (fun a b => takesTwo a && (decodeLong a b).toOption == some (.ixLongForm .addi 6 0 0x123456)) ∧
    fetched 0 (fun a _ => !isPrefix a && (decodeShort a).toOption.isNone) ∧
    fetched 0xFC400091FC400091 (fun a b => takesTwo a && (decodeLong a b).toOption.isNone) := by decide +kernel
theorem witness_FetchReadsTheBytes :
    let s := ready 0x06102800
    s.resolve s.cur (s.coreSvc s.cur) true s.me.pc = some (.virt 0x10000) ∧ (s.coreRole s.cur).inCode 0x10000 = true ∧
    ((s.me.itlb.find? (fun e => e.hits (s.coreDom s.cur) 0x10000 (s.gen (s.coreDom s.cur)))).any fun e =>
      pteX e.leaf && decide (leafPA e.leaf e.large 0x10000 < 2 ^ 48)) ∧
    s.redirects = [] ∧ s.migrations = [] ∧ s.injected = [] ∧ s.tests = [] := by decide +kernel
/-- The step runs what is fetched: ADD s16, s16, s5. -/
theorem test_step : (match step ((ready 0x06102800).setCore 0 (((ready 0x06102800).core 0).setReg 5 7)) with
    | .next t => t.me.reg 16 == 7 && t.me.retired == 1
    | _ => false) = true := by decide +kernel
theorem witness_StepKeepsMemoryForm : Memory.wf (ready 0x06102800).mem ∧ (ready 0x06102800).mem.length = 3 := by decide +kernel

-- 02, 03
theorem witness_ScalarImmediate : ((32 : BitVec 6).toNat + ((31 : BitVec 6).toNat + 1) ≤ 64) ∧ (31 : BitVec 6).toNat < 32 := by decide
/-- A branch taken and one not taken; a jump to an aligned and to a misaligned address. -/
theorem witness_ScalarControl : let s := start false (·.setReg 5 1)
    s.me.reg 5 ≠ s.me.reg 0 ∧ s.me.reg 0 = s.me.reg 7 ∧ (s.me.reg 5 + 3).toNat % 4 = 0 ∧ (s.me.reg 5).toNat % 4 ≠ 0 := by decide +kernel
theorem witness_ScalarFrame : Claim.scalarDest (.jalr 31 5 3) = some 31 ∧
    after (.jalr 31 5 3) (start false (·.setReg 5 1)) (fun t => t.faults == 0 && t.me.pc == 4) := by decide +kernel
/-- DBGCTL at service level and at role level, and a number of no register. -/
theorem witness_SystemRegisterAccess : (start true id).coreSvc 0 = true ∧ (start false id).coreSvc 0 = false ∧
    (1 : Reg).toNat * 64 + (0 : BitVec 6).toNat = 0x40 ∧ (Claim.sysRegs (start false id)).any (fun r => r.1 == 0x40 && r.2.2.2 == 3) ∧
    (encode (.csrr 5 0 3)).length = 1 := by decide +kernel
theorem witness_FaultsTaken :
    let s := (start false fun x => { x with rows := [(63, { valid := true, fault := true })] }).setQueue (faultKey 0) { serviceQueue 5 0 with g := 2, consumers := [0] }
    let q := s.queue (faultKey 0)
    (s.core 0).faultRow = some 63 ∧ 63 ≠ (s.core 0).inst.row.toNat ∧ q.st = .active ∧ q.spilling = false ∧ q.g = 2 ∧ q.consumers = [0] ∧
    q.mcast = false ∧ q.steer = false ∧ q.onchip < q.cap ∧ q.ownedBy (s.core 0).inst.id = [] ∧ s.coreSvc s.cur = false := by decide +kernel

-- 04
/-- A core with rows: 0 valid with 254 and 1 with 255 pending, 2 not valid, 3 the fault row. -/
def rows4 (x : Core) : Core :=
  { x with rows := [(0, { valid := true, en := true, pend := 254 }), (1, { valid := true, pend := 255 }), (2, {}), (3, { valid := true, fault := true })] }
theorem witness_RowInstructions : let x := (start false rows4).me
    ((x.row 0).valid = true ∧ (x.row 0).fault = false ∧ (x.row 0).pend ≠ 255) ∧ ((x.row 1).valid = true ∧ (x.row 1).fault = false ∧ (x.row 1).pend = 255) ∧
    (x.row 2).valid = false ∧ (x.row 3).fault = true ∧ (x.row 3).valid = true := by decide +kernel
/-- 04 R100: the 255th post is taken and the next is not. -/
theorem test_tpost : after (.tpost 5 0) (start false rows4) (fun t => t.me.reg 5 == 0 && (t.me.row 0).pend == 255 &&
    after (.tpost 5 0) t (fun t => t.me.reg 5 == 1 && (t.me.row 0).pend == 255)) = true := by decide +kernel
theorem witness_TaskState : (start false (fun x => { x with vl := 128 })).me.vl ≤ 128 ∧ (start false id).me.cond = .running := by decide +kernel
/-- 04 Table 4.8. -/
theorem test_tstate : after (.tstate 5) (start false (fun x => { x with vl := 128, inst := { x.inst with row := 63, eff := 5, source := 2 } }))
    (fun t => t.me.reg 5 == 63 + 3 * 64 + 5 * 512 + 2 * 4096 + 128 * 65536) = true := by decide +kernel
theorem witness_LaneClaim : let s := start false (·.setReg 5 128); s.me.inst.claimed = false ∧ s.me.inst.id = 9 ∧
    (start false (fun x => { x with inst := { x.inst with claimed := true } })).me.inst.claimed = true := by decide +kernel
theorem test_vclaim : after (.vclaim 5 6) ((start false (·.setReg 6 33)).setEns (ensOf 0) { taken := 1 })
    (fun t => t.me.reg 5 == 48 && t.me.blocks == [1, 2, 3] && (t.ens (ensOf 0)).taken == 15) = true := by decide +kernel
/-- A debug queue of the core's own cluster that takes the notice. -/
def broken : State := ({ start false (fun x => { x with dbgctl := 1, dbgq := 40 }) with happenings := [] } : State).setQueue 40 { serviceQueue 5 0 with consumers := [0] }
theorem witness_Breaks : let s := broken; let x := s.me
    x.dbgctl.getLsbD 0 = true ∧ x.dbgq ≠ 0 ∧ qidReserved (x.dbgq.setWidth 32) = false ∧ s.qidPkg (x.dbgq.setWidth 32) = s.pkg ∧
    qcluster (qkeyOf (x.dbgq.setWidth 32)) = clusterOf s.cur ∧ qkeyOf (x.dbgq.setWidth 32) ≠ 502 ∧ x.outst = [] ∧ s.migrations = [] ∧ x.contribs = [] ∧ x.stbuf = [] ∧
    s.happenings = [] ∧ x.cond = .running ∧ x.held = [] ∧
    ((s.accept (qkeyOf (x.dbgq.setWidth 32)) { tag := 0, data := (x.pc ++ (coordOf s.pkg s.cur ||| word (63 + 14 * 256)) : BitVec 128).setWidth 1024 }
      (s.coreDom s.cur) false).toOption.isSome) ∧
    (start false id).me.dbgctl.getLsbD 0 = false ∧ (start false (fun x => { x with dbgctl := 1 })).me.dbgq = 0 := by decide +kernel
/-- One row with a queue; an armament that has fired. -/
def oneRow (r : Row) (arms : Tbl Arm) : State :=
  ((start false (fun x => { x with rows := [(63, r)], arms := arms, handles := [(3, .queue 40)] })).setQueue 40
    { serviceQueue 5 0 with consumers := [0], items := [⟨0, 0, { tag := 0, data := 1 }, none⟩, ⟨1, 0, { tag := 0, data := 2 }, none⟩] })
theorem witness_InstanceCreation :
    (let s := oneRow { valid := true, en := true } [(7, { row := 63, watches := [], hit := none, fired := some (3, 0) })]
     (s.core 0).held.length < 64 ∧ (s.core 0).role ≠ none ∧ (s.core 0).refused = [] ∧ (s.core 0).closed = [] ∧ (63 : Nat) < 64) ∧
    ((1 : BitVec 8) ≠ 0 ∧ (oneRow { valid := true, en := true, pend := 1 } []).me.arms = []) ∧
    (let s := oneRow { valid := true, en := true, q0v := true, qh0 := 3, trig0 := 2 } []
     let row := s.me.row 63
     s.rowQueues 0 row = [(40, 2)] ∧ (s.queue 40).ownedBy s.nextId = [] ∧ 2 ≤ ((s.queue 40).unowned 0).length ∧
     ((s.queue 40).items.map (fun i => (i.slot, i.core))).Nodup ∧ ∀ i ∈ (s.queue 40).items, i.core = 0 → i.item.tag ≠ 8) := by decide +kernel
theorem test_create : after (.createInstance 0) (oneRow { valid := true, en := true, q0v := true, qh0 := 3, trig0 := 2, arg := 77 } [])
    (fun t => t.me.held.map (fun h => (h.sregs[1].toNat, h.sregs[2].toNat)) == [(77, 2)]) = true := by decide +kernel
theorem witness_Preemption : let s := start false (fun x => { x with held := [waiting7 .ready 7] })
    s.injected = [] ∧ s.dev = [] ∧ (s.core 0).cond = .running ∧ (s.core 0).inst.prio ≠ 7 ∧ (∃ h ∈ (s.core 0).held, h.st = .ready ∧ h.inst.prio = 7) ∧
    (∀ h ∈ (s.core 0).held, h.inst.id ≠ (s.core 0).inst.id) ∧ (∀ h ∈ (s.core 0).held, h.st ≠ .preempted none) ∧
    (∀ h ∈ (start false (fun x => { x with held := [waiting7 .ready 6] })).me.held, h.st = .ready → h.inst.prio ≠ 7) := by decide +kernel
/-- 04 R96: the budget counts 64 cycles a unit. -/
theorem witness_BudgetOverrun :
    let s := fun n => ({ start false (fun x => { x with rows := [(0, { valid := true, budget := 2 })], inst := { x.inst with used := 100 } }) with now := n } : State)
    let d := fun (s : State) => s.me.inst.used + (s.now - s.me.startedAt)
    (s 28).me.cond = .running ∧ ((s 28).me.row 0).budget = 2 ∧ 2 * 64 ≤ d (s 28) ∧ d (s 27) < 2 * 64 ∧ (start false id).me.cond = .running ∧
      ((start false id).me.row 0).budget = 0 := by decide +kernel

-- 05
theorem witness_AddressChecks :
    let s := start false id
    let f := fun (a : Word) => Claim.fullForm s.cur (a.extractLsb' 48 4).toNat (a.extractLsb' 0 48).toNat
    s.coreSvc s.cur = false ∧ (s.core (placeCore (3 * 2 ^ 48 + (f tcm).2))).frames = 4 ∧
    (([0xFFF4000000000000, 0xFFF9000000000000, 0xFFF5000000000000, 0x0010000000000000, 0xFFF1000008000000, 0xFFF2000000400000,
        0xFFF3000000004000, 0xFFF6000000004000, 0xFFF7000000400000, 0xFFF8000008000000, 0xFFF1000007C00000, 0xFFF6000000003A00] : List Word).all
      (fun a => (checkAddress a s).toOption.isNone)) ∧
    (([0xFFF0000000000000, 0x0000000000000000, 0xFFF1800007BFFFFF, 0xFFF2000000000000 + 0x3FFFFF, 0xFFF60000000039FF, 0xFFF7000000000000] : List Word).all
      (fun a => (checkAddress a s).toOption.isSome)) := by decide +kernel
theorem witness_LoadsComplete :
    reached (start false (·.setReg 6 tcm)) .read (tcm + 0x39F0) 16 (fun l pa u => pa / 2 ^ 48 == 3 && quiet u pa && next? u l pa 16) ∧
    reached (paged id) .read 0xFFF0000000020FFF 1 (fun l pa u => l == .virt 0x20FFF && pa == 0x20FFF && quiet u pa && next? u l pa 1) ∧ (30 : Reg).toNat < 31 := by decide +kernel
theorem test_ldq : after (.ldQ 30 6 0) ({ start false (·.setReg 6 (tcm + 16)) with mem := Memory.setBytes [] (3 * 2 ^ 48 + 16) ((List.range 16).map (BitVec.ofNat 8)) })
    (fun t => t.me.reg 30 == 0x0706050403020100 && t.me.reg 31 == 0x0F0E0D0C0B0A0908) = true := by decide +kernel
theorem witness_StoresBuffered :
    reached (paged (fun x => { x with stbuf := full.take 7 })) .write 0xFFF0000000020FF0 16 (fun l pa u => l == .virt 0x20FF0 && pa == 0x20FF0 &&
      next? u l pa 16 && u.me.stbuf.length == 7) ∧
    reached (start false (fun x => { x with stbuf := full })) .write tcm 8 (fun l pa u => next? u l pa 8 && u.me.stbuf.length == 8) := by decide +kernel
theorem witness_AccessFaults :
    trapOf (checkAddress 0xFFF9000000000000 (start false id)) = some (cACCESS, 0xFFF9000000000000) ∧
    okOf (checkAddress (tcm + 1) (start false id)) = some (.place (3 * 2 ^ 48 + 1)) ∧ (tcm + 1).toNat % 2 ≠ 0 ∧
    okOf (checkAddress 0xFFF0000000030000 (paged id)) = some (.virt 0x30000) ∧
    pageOf (translate (.virt 0x30000) .write 0xFFF0000000030000 (paged id)) = some .badRoot := by decide +kernel
theorem witness_BufferForwarding : let x := ((start false (fun x => { x with stbuf := full })).me)
    (∀ e ∈ x.stbuf, e.n ≤ 16) ∧ (∀ e ∈ x.stbuf, ∀ b ∈ List.range 128, e.bits.getLsbD b = true → b < 8 * e.n) ∧
    (full.map (·.bits.getLsbD 63)).all id ∧ 63 < 8 * 8 := by decide +kernel
theorem test_forward : after (.ldW 5 6 4) (start false (fun x => { x.setReg 6 (tcm + 256) with stbuf := full.take 1 ++ [{ full[0] with id := 9, key := 3 * 2 ^ 48 + 258, pa := 3 * 2 ^ 48 + 258, value := 0x8877665544332211 }] }))
    (fun t => t.me.reg 5 == 0x66554433) = true := by decide +kernel
def stored : State := start false (fun x => { x with stbuf := [full[0]] })
theorem witness_StoreApplied :
    let e := full[0]
    let s := stored
    (s.core 0).stbuf = [e] ∧ e.n ≤ 16 ∧ e.bits = BitVec.allOnes 128 >>> (128 - 8 * e.n) ∧ quiet s e.pa ∧ s.inFrameArea e.pa = false ∧
    mirrorOf e.pa = none ∧ (s.core 0).outst = [] ∧ s.redCells = [] ∧ Memory.wf s.mem := by
  decide +kernel
theorem witness_StoreApplied_watches : ∀ k, (stored.core k).arms = [] := all_cores _ (fun x => x.arms = []) (by decide +kernel) rfl

theorem witness_BitAccess :
    let q := fun (l : Loc) (pa : Nat) (u : State) => quiet u pa && u.me.stbuf.length == 0 && next? u l pa 8 && next? u l pa 4 && next? u (Claim.fourOn l) (pa + 4) 4
    (1 % 8 * 8 + 7 + (48 + 1) = 64) ∧ (1 % 8 * 8 + 7 + (49 + 1) = 65) ∧
    reached (start false id) .read tcm 8 q ∧ reached (start false id) .write 0xFFF7000000000008 8 (fun l pa u => q l pa u && pa / 2 ^ 48 == 2) := by
  decide +kernel
/-- 08 R168, R169: the field at bit 39 of 25 bits, the last of its doubleword; one bit more is ALIGN; the offset moves on. -/
theorem test_bits :
    let s := heard { start false (fun x => (x.setReg 6 tcm).setReg 7 39) with mem := Memory.setBytes [] (3 * 2 ^ 48) [1, 2, 3, 4, 0x85, 6, 7, 0xF8] }
    after (.bldp 5 6 7 24) s (fun t => t.me.reg 5 == 0x1F00E0D && t.me.reg 7 == 64) ∧ after (.bld 5 6 7 25) s (fun t => told t cALIGN (tcm + 4)) := by
  decide +kernel

-- 06
/-- A leaf that permits the access, one that does not, a COW page, a bad entry, and what is absent at each level. -/
theorem witness_Translation :
    let s := tables 0x2000F 0x2000003 id
    let w := fun (s : State) va => match Claim.walkOf s (s.devGet (0x20000 + 5)) va with
      | .leaf e l a => (e, l, a)
      | .stopped why l => (0, l, match why with | .absent => 0 | .badEntry => 1 | .badRoot => 2 | .cowStore => 3)
    s.coreDom s.cur = 5 ∧ quiet s 0 ∧ s.redCells = [] ∧ s.me.dtlb = [] ∧ s.l2tlb = [] ∧ Memory.wf s.mem ∧
    w s 0x2FFFF = (0x2000F, 3, 0x6010) ∧ w s 0x3FFFFFF = (0x2000003, 2, 0x10008) ∧ w (tables 0x20107 0 id) 0x20000 = (0x20107, 3, 0x6010) ∧
    w s 0x10000 = (0, 3, 0) ∧ w s 0x4000000 = (0, 2, 0) ∧ w s 0x4000000000 = (0, 1, 0) ∧ w (start false id) 0 = (0, 0, 2) ∧
    w (tables 0x2020F 0 id) 0x20000 = (0, 3, 1) ∧ w (tables 0x20001 0 id) 0x20000 = (0, 3, 1) ∧
    Claim.permits 0x2000F .write = true ∧ Claim.permits 0x2000F .fetch = false ∧ Claim.permits 0x20107 .write = false ∧
    (let e : TlbE := { dom := 5, page := 2, large := false, leaf := 0x200DF, gen := 0 }
     (paged id).me.tlb .write = [e] ∧ e.hits 5 0x20000 0 = true ∧ Claim.permits e.leaf .write = true ∧ e.leaf.getLsbD 7 = true) := by decide +kernel
theorem witness_Translation_watches : ∀ k, ((tables 0x2000F 0x2000003 id).core k).arms = [] :=
  all_cores _ (fun x => x.arms = []) (by decide +kernel) rfl
/-- 08 R173: a store sets A and D in the leaf. -/
theorem test_walk : (match (tables 0x2000F 0 id).walkFor 0 5 0x20008 .write 0 with
    | .ok (pa, u) => pa == 0x20008 && u.peek 0x6010 8 == 0x200CF
    | .error _ => false) = true ∧
    pageOf ((tables 0x20107 0 id).walkFor 0 5 0x20008 .write 0) = some .cowStore ∧
    trapOf ((tables 0x2000F 0 id).walkFor 0 5 0x20008 .fetch 7) = some (cACCESS, 7) := by decide +kernel
theorem witness_PageFaultParks :
    let s := (start false id).setQueue 502 { serviceQueue 0 0 with consumers := [] }
    (s.core 0).cond = .running ∧ (s.core 0).held.length < 64 ∧ 0 < (s.core 0).frames ∧ (s.core 0).held = [] ∧ (s.queue 502).st = .active ∧
    (s.queue 502).spilling = false ∧ (s.queue 502).onchip < (s.queue 502).cap ∧ (s.queue 502).consumers = [] ∧ 2 ≤ (s.queue 502).g ∧
    (s.queue 502).g ≤ 8 ∧ (s.core 0).pagerReqs = [] ∧ s.dev = [] := by decide +kernel

theorem witness_HardwareWaits :
    (let s := about (.ldD 5 6 0) (·.setReg 6 0xFFF2000000000000)
     (s.core 0).held.length < 64 ∧ 0 < (s.core 0).frames ∧ (s.core 0).held = [] ∧ (s.core 0).cond = .running ∧ s.farLoad 0 = true) ∧
    (about (.stD 5 6 0) (·.setReg 6 0xFFF0000000020000)).missing 0 = some (0x20000, .write) ∧
    (about (.fence 2 5) (busy 1)).orderWaits 0 = some (5, false) ∧ (about (.getq 4 6 7 3) (busy 64)).slotWaits 0 = true ∧
    (let s := about (.amoAdd 5 6 7 0 0 1) (fun x => (x.setReg 6 tcm).setReg 7 3)
     Instr.wf (.amoAdd 5 6 7 0 0 1) = true ∧ (s.waitingWord 0).map (fun w => [w]) = some (encode (.amoAdd 5 6 7 0 0 1)) ∧
     after (.amoAdd 5 6 7 0 0 1) s (fun t => t.me.pc == s.me.pc + 4)) := by decide +kernel
/-- The waits that end, of instance 4 in core 0's run queue, while instance 9 runs. -/
theorem witness_HardwareWaits_ends :
    [Wait.hw .load, .hw (.walk 5 0x20000 1), .hw (.order 5 false), .atomic 5 7, .pager].all (fun w =>
      let x := (tables 0x2000F 0 (waits w)).me
      x.inst.id == 9 && x.held.any (fun h => h.inst.id == 4) && x.held.all (fun h => h.inst.id != 4 || h.st == .parked w) && x.contribs.isEmpty && x.outst.isEmpty && x.stbuf.isEmpty) ∧
    (tables 0 0 id).migrations = [] ∧
    (tables 0x2000F 0 (fun x => waits (.hw (.order 5 false)) { x with outst := (busy 1 x).outst.map (fun o => { o with inst := 4 }) })).pending 0 4 5 false none = true ∧
    okOf ((tables 0x2000F 0 id).walkFor 0 5 0x20000 .write 0) = some 0x20000 ∧ (tables 0 0 id).walk 5 0x20000 = .stopped .absent 3 ∧
    (let s := (start false (fun x => { waits .pager x with pagerReqs := [(4, 1)] })).setQueue 502 (serviceQueue 0 0)
     s.me.pagerReqs = [(4, 1)] ∧
     (s.updCore 0 (fun x => { x with pagerReqs := [] }) |>.accept 502 { tag := 0, data := 1 } 0 true).toOption.isSome) := by decide +kernel
/-- A service role's core with a handle on queue 40, and one TLB entry of the domain in each place. -/
def invalidating : State :=
  let e : TlbE := { dom := 5, page := 2, large := false, leaf := 0x200DF, gen := 0 }
  let s := (start true (fun x => { ((x.setReg 6 0xFFF0000000020000).setReg 7 5) with dtlb := [e, { e with page := 3 }, { e with dom := 6 }], itlb := [e], handles := [(4, .queue 40)] }))
  { s.devPut (0x20000 + 5) 0x2001 with happenings := [], l2tlb := [(0, [e])], ingressTlb := [(0, [e])] }
theorem witness_Invalidation : let s := invalidating
    s.coreSvc s.cur = true ∧ s.me.handle 4 = .queue 40 ∧ s.invals = [] ∧ s.me.contribs = [] ∧ s.me.stbuf = [] ∧ s.me.outst = [] ∧ s.migrations = [] ∧ s.happenings = [] ∧
    (s.me.reg 6).extractLsb' 48 4 = 0 ∧ (s.me.reg 6).extractLsb' 52 12 = 0xFFF ∧ tcm.extractLsb' 48 4 ≠ 0 ∧ (s.devGet (0x20000 + 5)).getLsbD 0 = true ∧
    (start true id).devGet (0x20000 + 5) = 0 := by decide +kernel
theorem witness_Invalidation_cores : ∀ k, (invalidating.core k).arms = [] ∧ (invalidating.core k).stbuf = [] :=
  all_cores _ (fun x => x.arms = [] ∧ x.stbuf = []) (by decide +kernel) ⟨rfl, rfl⟩
theorem witness_Invalidation_end :
    let x : Inval := { core := 0, q := 40, dom := 5, addr := 0xFFF0000000020000, gen := 1, what := .page 0x20000 }
    let s : State := { invalidating with invals := [(7, x)] }.setQueue 40 { serviceQueue 5 0 with consumers := [0] }
    Tbl.find? s.invals 7 = some x ∧ s.redirects = [] ∧ s.migrations = [] ∧ s.qidPkg x.q = s.pkg ∧ qkeyOf x.q ≠ 502 ∧
    (({ s with invals := s.invals.erase 7 } : State).accept (qkeyOf x.q) { tag := 0, data := (x.gen ++ 0#16 ++ 0#4 ++ x.dom ++ x.addr : BitVec 128).setWidth 1024 }
      (s.coreDom x.core) true).toOption.isSome := by decide +kernel
/-- 08 R183: both pages of domain 5 at the address go, the others stay. -/
theorem test_tlbiv : after (.tlbiv 4 6 7) invalidating (fun t => t.me.dtlb.map (fun e => (e.dom.toNat, e.page)) == [(5, 3), (6, 2)] && t.me.itlb.isEmpty &&
    t.l2tlb.get [] 0 == [] && t.ingressTlb.get [] 0 == [] && t.gens.get 0 5 == 1) = true := by decide +kernel
theorem witness_ProbeAndPrefetch :
    let s := paged (·.setReg 6 0xFFF0000000020008)
    s.resolve s.cur (s.coreSvc s.cur) true (s.me.reg 6) = some (.virt 0x20008) ∧
    ((s.me.dtlb ++ s.l2tlb.get [] (s.cur / 256)).find? (fun e => e.hits (s.coreDom s.cur) 0x20008 (s.gens.get 0 (s.coreDom s.cur).toNat))).isSome ∧
    okOf (translate (.virt 0x20008) .read (s.me.reg 6) s) = some 0x20008 ∧ s.coreSvc s.cur = false ∧
    s.resolve s.cur (s.coreSvc s.cur) true tcm = some (.place (3 * 2 ^ 48)) := by decide +kernel
/-- 08 Table 8.14. -/
theorem test_tlbprb : after (.tlbprb 5 6 0) (paged (·.setReg 6 0xFFF0000000020008)) (fun t => t.me.reg 5 == 0xB1F0000000020000) = true := by decide +kernel
def move2 : MigCmd := { domain := 5, va := 0x20000, large := false, frame := 0x70000 }
theorem witness_Migration : let s := tables 0x2000F 0 id
    s.walk 5 0x20000 = .leaf 0x2000F 3 0x6010 ∧ s.migrations = [] ∧ s.redirects = [] ∧ Memory.wf s.mem ∧ (0x20000 : Nat) / 2 ^ 16 ≠ 0x70000 / 2 ^ 16 ∧
    ((List.replicate 200 ({ dom := 5, va := 0, large := false, old := 0x30000, new := 0 } : Redirect)).filter (fun r => r.old.toNat / 2 ^ 36 = 0)).length +
      ((List.replicate 56 ({ cmd := move2, old := 0x40000, queued := [] } : Migr)).filter (fun y => y.old.toNat / 2 ^ 36 = 0)).length = 256 := by
  decide +kernel

-- 07
theorem witness_QueueAcceptance :
    let s := queued q40 id
    ((40 : Nat) < 500) ∧ 1 ≤ q40.g ∧ q40.g ≤ 8 ∧ q40.consumers ≠ [] ∧ s.dev = [] ∧
    (s.accept 40 (it 1 1) 5 false).toOption.isSome ∧ q40.onchip < q40.cap ∧
    (match s.accept 40 (it 1 1) 6 false with | .error c => c == cACCESS | .ok _ => false) = true ∧
    (match (queued { q40 with st := .failed } id).accept 40 (it 1 1) 5 true with | .error c => c == cQGONE | .ok _ => false) = true ∧
    (let x := { q40 with items := [cp 0 1 none, cp 1 2 none] }
     ¬ (x.onchip < x.cap) ∧ (match (queued x id).accept 40 (it 1 1) 5 true with | .error c => c == cQFULL | .ok _ => false) = true ∧
     ((queued { x with elastic := true, calItems := 1 } id).accept 40 (it 1 1) 5 true).toOption.isSome ∧
     (match (queued { x with elastic := true, calItems := 1, spill := [it 1 3] } id).accept 40 (it 1 1) 5 true with | .error c => c == cQFULL | .ok _ => false) = true) := by
  decide +kernel
theorem witness_QueuePops :
    let own := queued { q40 with items := [cp 0 1 none, cp 1 2 (some 9)] } (·.setReg 7 (tcm + 0x39E0))
    let no := queued { q40 with items := [⟨0, 1, it 1 1, none⟩] } (·.setReg 7 (tcm + 8))
    own.me.handle 4 = .queue 40 ∧ own.qidPkg 40 = own.pkg ∧ qkeyOf 40 = 40 ∧ (own.queue 40).st = .active ∧
    (own.queue 40).items.Pairwise (fun i j => ¬ (i.slot = j.slot ∧ i.core = j.core)) ∧
    Claim.next own 40 = some (cp 1 2 (some 9)) ∧ Claim.next no 40 = none ∧ Claim.next (queued { q40 with items := [cp 0 1 none] } id) 40 = some (cp 0 1 none) ∧
    (no.me.reg 7).toNat % 16 ≠ 0 ∧ (own.me.reg 7).toNat % 16 = 0 ∧ own.me.stbuf = [] ∧
    (own.coreRole own.cur).recast = none ∧ own.me.closed = [] ∧ (no.coreRole no.cur).recast = none ∧ no.me.closed = [] ∧
    (own.me.reg 7).toNat % 2 ^ 16 + 32 ≤ 2 ^ 16 ∧
    (match mapRange (own.me.reg 7) 32 .write own with
      | .ok (ps, u) => ps.length == 2 && ps.all (fun p => !u.mustWait p.loc p.pa p.n false)
      | .error _ => false) = true := by decide +kernel
/-- 06 R146, R148. -/
theorem test_qpop : after (.qpop 5 4 6) (queued { q40 with items := [⟨0, 0, it 3 (7 + 2 ^ 64 * 9), none⟩] } id)
    (fun t => t.me.reg 5 == 7 && t.me.reg 6 == 9 && (t.queue 40).items.isEmpty) = true := by decide +kernel
theorem test_qcount : after (.qcount 5 4) (queued { q40 with items := [cp 0 1 none, cp 1 2 (some 9), cp 2 3 none] } id) (fun t => t.me.reg 5 == 0x201) = true := by
  decide +kernel
theorem witness_QueuePushes :
    let s := queued q40 (fun x => ((x.setReg 7 0x40).setReg 8 40).setReg 9 tcm)
    let far := (s.me.handle 5, s.me.handle 6)
    idle s ∧ s.me.handle 7 = .unmapped ∧ s.me.handle 3 = .faultQueue ∧ (0x200 : BitVec 32).extractLsb' 9 6 ≠ 0 ∧
    far = (.queue (BitVec.ofNat 32 (88 + 2 ^ 15)), .queue (BitVec.ofNat 32 (40 + 2 ^ 20))) ∧
    (s.qidPkg (BitVec.ofNat 32 (88 + 2 ^ 15)) = s.pkg ∧ qkeyOf (BitVec.ofNat 32 (88 + 2 ^ 15)) / 512 ≠ s.cur / 256 ∧
      s.me.flights.get 0 (qkeyOf (BitVec.ofNat 32 (88 + 2 ^ 15))) < (s.queue (qkeyOf (BitVec.ofNat 32 (88 + 2 ^ 15)))).window) ∧
    (s.qidPkg (BitVec.ofNat 32 (40 + 2 ^ 20)) ≠ s.pkg ∧ s.me.outst = [] ∧
      s.me.flights.get 0 (farFlight (BitVec.ofNat 32 (40 + 2 ^ 20))) < windowFar (BitVec.ofNat 32 (40 + 2 ^ 20))) ∧
    (s.qidPkg 502 = s.pkg ∧ qkeyOf 502 / 512 = s.cur / 256 ∧ qkeyOf 502 = 502 ∧ (502 : BitVec 32).extractLsb' 9 6 = 0 ∧ qkeyOf 40 ≠ 502) ∧
    (s.accept 40 (it 7 0) 5 true).toOption.isSome ∧ (s.qidPkg 40 = s.pkg ∧ (40 : Nat) / 512 = s.cur / 256) ∧
    (match loadRange (s.me.reg 9) 32 16 s with | .ok (bs, u) => bs.length == 32 && idle u | .error _ => false) = true ∧
    pageOf (loadRange 0xFFF0000000020000 32 16 s) = some .badRoot := by decide +kernel
/-- 06 R137: a full window waits; a full queue refuses. -/
theorem witness_QueuePushes_full :
    let q := qkeyOf (BitVec.ofNat 32 (88 + 2 ^ 15))
    let s := queued { q40 with items := [cp 0 1 none, cp 1 2 none] } (fun x => { busy 64 { x with inst := { x.inst with id := 8 } } with flights := [(q, 4), (farFlight (BitVec.ofNat 32 (40 + 2 ^ 20)), 65536)], inst := x.inst })
    (s.queue q).window ≤ s.me.flights.get 0 q ∧ 64 ≤ s.me.outst.length ∧ idle s ∧
    s.me.flights.get 0 (farFlight (BitVec.ofNat 32 (40 + 2 ^ 20))) = 65536 ∧
    (match s.accept 40 (it 1 1) 5 true with | .error c => c == cQFULL | .ok _ => false) = true := by decide +kernel

/-- No far window is wider than 64, so 65536 in flight fill it. -/
theorem witness_QueuePushes_window : ∀ id, windowFar id ≤ 65536 := fun _ =>
  Nat.le_trans (Nat.succ_le_of_lt (Nat.mod_lt _ (by decide : 0 < 64))) (by decide)
theorem witness_QueueLife :
    let x : Queue := { q40 with cap := 256, g := 8 }
    let s := queued x id
    (1 ≤ x.g ∧ x.g ≤ 8 ∧ 1 ≤ x.cap ∧ x.cap ≤ 256 ∧ x.onchip ≤ 256 ∧ x.spill.length < 2 ^ 24) ∧ s.me.handle 4 = .queue 40 ∧ s.me.handle 7 = .unmapped ∧
    s.me.handle 3 = .faultQueue ∧ s.coreSvc s.cur = true ∧ s.qidPkg 40 = s.pkg ∧ (40 : BitVec 32).extractLsb' 9 6 = 0 ∧ (s.queue 40).st = .active ∧
    (s.queue 40).items = [] ∧ (s.queue 40).spill = [] ∧ (s.queue 40).refill = none ∧ (s.cores.all fun c => !s.binds c.1 40) ∧
    (queued { q40 with items := [cp 0 1 none] } id).queue 40 ≠ { q40 with items := [] } ∧ (s.queue 41).st = .free := by decide +kernel
/-- 06 Table 6.10. -/
theorem test_qstat : after (.qstat 5 4) (queued { q40 with items := [cp 0 1 none], spilling := true, elastic := true, spill := [it 1 2], prio := 5 } id)
    (fun t => t.me.reg 5 == 2 ^ 61 + 2 ^ 59 + 5 * 2 ^ 56 + 2 ^ 32 + 2 ^ 16 + 2 ^ 8 + 1) = true := by decide +kernel
theorem witness_QueueHardware :
    let p : Push := { qid := 40, item := it 1 1, domain := 5, checked := false, srcPkg := 0, core := 0, serial := 3, curtain := false, notice := false }
    let s := queued { q40 with consumers := [0], spilling := true, spill := [it 1 1], lowmark := 8 } (fun x => { x with flights := [(40, 4)], rows := [(0, { valid := true, q0v := true, qh0 := 4 })] })
    p.srcPkg = s.pkg ∧ s.happenings = [] ∧ qkeyOf p.qid = 40 ∧ p.core < 8192 ∧ s.dev = [] ∧ p.curtain = false ∧ p.notice = false ∧ ((queued q40 id).accept 40 p.item p.domain p.checked).toOption.isSome ∧
    ((queued { q40 with st := .failed } id).accept 40 p.item p.domain p.checked).toOption = none ∧ s.me.flights.get 0 40 = 4 ∧
    s.queues = [(40, s.queue 40)] ∧ (s.queue 40).st = .active ∧ (s.queue 40).spilling = true ∧ (s.queue 40).onchip ≤ (s.queue 40).lowmark ∧
    (s.queue 40).spill ≠ [] ∧ (s.queue 40).refill = none ∧ (s.queue 40).consumers = [0] ∧ (s.queue 40).mcast = false ∧ (s.queue 40).steer = false ∧
    ((s.queue 40).spill.all fun i => i.tag != 8) ∧ s.binds 0 40 = true := by decide +kernel
/-- 06 R141: with FORCE what is owned stays, and one POISON comes behind. -/
theorem test_force : after (.qdestroyEffect 40 true) (queued { q40 with consumers := [0], items := [cp 0 1 none, cp 1 2 (some 9)], nextSlot := 2 }
      (fun x => { x with rows := [(0, { valid := true, q0v := true, qh0 := 4 })] }))
    (fun t => (t.queue 40).st == .failed && (t.queue 40).items == [cp 1 2 (some 9), ⟨2, 0, { tag := 9, data := 0 }, none⟩]) = true := by decide +kernel
/-- 06 Table 6.11: 4 items of 2 granules of domain 5 and role 0 in cluster 0; the same of another domain is BADDESC. -/
def descriptor (dom : Nat) : State :=
  { start true (·.setReg 6 tcm) with happenings := [], mem := Memory.setBytes [] (3 * 2 ^ 48) (bytesOf (BitVec.ofNat 256 (dom + 2 ^ 53 + 3 * 2 ^ 56)) 32) }
theorem witness_QueueLife_create :
    let e := fun n => (descriptor n).fromDescriptor (BitVec.ofNat 256 (n + 2 ^ 53 + 3 * 2 ^ 56))
    (match loadRange tcm 32 16 (descriptor 5) with | .ok (bs, _) => natOfBytes bs == 5 + 2 ^ 53 + 3 * 2 ^ 56 | .error _ => false) = true ∧
    (e 5).2.2 = true ∧ (e 6).2.2 = false ∧ (e 5).2.1.elastic = false ∧ ((descriptor 5).createQueue (e 5).1 (e 5).2.1).toOption.isSome := by decide +kernel
theorem test_qcreate : after (.qcreate 5 6) (descriptor 5) (fun t => (t.queue (qkeyOf ((t.me.reg 5).setWidth 32))).st == .active &&
      (t.queue (qkeyOf ((t.me.reg 5).setWidth 32))).cap == 4 && (t.queue (qkeyOf ((t.me.reg 5).setWidth 32))).g == 2) ∧
    after (.qcreate 5 6) (descriptor 6) (fun t => t.me.reg 5 == 0x8000000000000003) := by decide +kernel

-- 08
/-- The core with its TCM's first doubleword 0xFFFFFFFF00000005. -/
def tcm5 : State :=
  { start true (fun x => ((x.setReg 6 tcm).setReg 7 3).setReg 5 5) with happenings := [], mem := Memory.setBytes [] (3 * 2 ^ 48) [5, 0, 0, 0, 255, 255, 255, 255] }
theorem witness_Atomics :
    (Claim.amoForms 5 6 7 0 0 0)[9]? = some (.amoCas 5 6 7 0 0 0) ∧
    reached tcm5 .write tcm 4 (fun l pa u => okOf (translate l .read tcm u) == some pa && !u.mustWait l pa 4 true && u.me.stbuf.isEmpty && u.me.outst.isEmpty &&
      quiet u pa && u.redCells.isEmpty && !u.inFrameArea pa && (mirrorOf pa).isNone) ∧
    okOf (waitPerformed 7 tcm5) = some () ∧ okOf (checkAddress (tcm + 4) tcm5) = some (.place (3 * 2 ^ 48 + 4)) ∧ (tcm + 4).toNat % 8 ≠ 0 ∧
    okOf (checkAddress 0xFFF5000000000000 tcm5) = some (.place (5 * 2 ^ 48)) := by decide +kernel
theorem witness_Atomics_plain : (∀ k, (tcm5.core k).arms = []) ∧ Memory.wf tcm5.mem := ⟨all_cores _ (fun x => x.arms = []) (by decide +kernel) rfl, by decide +kernel⟩
/-- Core 0 about to add 3 to the doubleword at `addr`, with a TLB entry that reads and writes page 2, moving where `m` says. -/
noncomputable def adding (addr : Word) (m : List Migr) : State :=
  { about (.amoAdd 5 6 7 0 0 1) (fun x => { (x.setReg 6 addr).setReg 7 3 with
      dtlb := [{ dom := State.reset.coreDom 0, page := 2, large := false, leaf := 0x200DF, gen := 0 }] }) with migrations := m }
def moving2 : List Migr := [{ cmd := { domain := 5, va := 0x20000, large := false, frame := 0x70000 }, old := 0x20000, queued := [] }]
theorem witness_AtomicResultHeld : let s := adding tcm []
    (Claim.amoForms 5 6 7 0 0 1)[0]? = some (.amoAdd 5 6 7 0 0 1) ∧ Instr.wf (.amoAdd 5 6 7 0 0 1) = true ∧ s.cur = 0 ∧
    (s.waitingWord 0).map (fun w => [w]) = some (encode (.amoAdd 5 6 7 0 0 1)) ∧ (s.core 0).held = [] ∧ 0 < (s.core 0).frames ∧
    (s.core 0).cond = .running ∧
    reached s .write tcm 8 (fun l pa u => okOf (translate l .read tcm u) == some pa && !u.mustWait l pa 8 true && u.me.stbuf.isEmpty && u.me.outst.isEmpty &&
      quiet u pa && u.redCells.isEmpty && !u.inFrameArea pa && (mirrorOf pa).isNone) := by decide +kernel
theorem witness_AtomicResultHeld_moving : let s := adding 0xFFF0000000020008 moving2
    (s.waitingWord 0).map (fun w => [w]) = some (encode (.amoAdd 5 6 7 0 0 1)) ∧ (s.core 0).held = [] ∧ (s.core 0).cond = .running ∧
    reached s .write 0xFFF0000000020008 8 (fun l pa u => okOf (translate l .read 0xFFF0000000020008 u) == some pa && !u.mustWait l pa 8 true &&
      u.me.stbuf.isEmpty && u.me.outst.isEmpty && u.redirects.isEmpty && (u.movingAt pa).isSome) := by decide +kernel
/-- 09 R204: an atomic at a page that moves is queued there, and the instance parks past it. -/
theorem test_atomic_moving : after (.atomicResultTimeout 0) (adding 0xFFF0000000020008 moving2)
    (fun t => (t.core 0).held.map (·.st) == [.parked (.atomicOut 5)] && t.migrations.map (fun m => m.queued.length) == [1]) = true := by decide +kernel
/-- 09 R203: CAS that succeeds; MIN signed and MINU on 4 bytes. -/
theorem test_cas : after (.amoCas 5 6 7 0 0 0) tcm5 (fun t => t.me.reg 5 == 5 && t.peek (3 * 2 ^ 48) 8 == 0xFFFFFFFF00000003) = true := by decide +kernel
theorem test_amo_min : after (.amoMin 5 6 7 0 0 0) (tcm5.updCore 0 (·.setReg 6 (tcm + 4))) (fun t => t.me.reg 5 == 0xFFFFFFFFFFFFFFFF && t.peek (3 * 2 ^ 48 + 4) 4 == 0xFFFFFFFF) ∧
    after (.amoMinu 5 6 7 0 0 0) (tcm5.updCore 0 (·.setReg 6 (tcm + 4))) (fun t => t.peek (3 * 2 ^ 48 + 4) 4 == 3) := by decide +kernel
theorem witness_Fences :
    let far := fun (s : State) => (s.me.outst.any (fun o => o.inst == s.me.inst.id && o.store), s.me.outst.any (fun o => o.inst == s.me.inst.id && o.read))
    far tcm5 = (false, false) ∧ far (start true (busy 1)) = (true, true) ∧ tcm5.me.contribs = [] ∧ tcm5.me.stbuf = [] ∧ tcm5.happenings = [] ∧ tcm5.me.outst = [] ∧
    after (.storeApply 0 0) (start true (fun x => { x with stbuf := full.take 1 })) (fun t => t.me.stbuf.isEmpty) ∧
    (start true (fun x => { x with stbuf := full.take 1 })).me.stbuf = [full[0]] ∧ tcm5.migrations = [] ∧
    (let s := start true (fun x => { x with stbuf := full.take 1 })
     s.stuck 0 full[0] = false ∧ full[0].pa / 2 ^ 48 ≠ 5 ∧ s.me.cond = .running ∧ s.me.held = [] ∧ s.migrations = [] ∧ s.cur = 0) ∧ reached tcm5 .write tcm 8 (fun _ _ u => idle u && u.me.outst.isEmpty) := by decide +kernel
/-- A cell of the scratchpad at NEXT = 2 with SUM = 1.0, and a contribution on its way. -/
def cell (fail : Nat) (x : Contribution) : State :=
  { start true (fun c => { ((c.setReg 5 65534).setReg 6 spad).setReg 7 0x3F800000 with contribs := [x] }) with
    happenings := [], mem := Memory.setBytes [] (2 * 2 ^ 48) [0, 0, 0x80, 0x3F, 2, 0, 0, BitVec.ofNat 8 fail] }
def contrib (n : Nat) : Contribution := { core := 0, addr := 2 * 2 ^ 48, index := BitVec.ofNat 16 n, value := 0x40000000, issued := 0xFFF7000000000000, inst := 9, id := 4 }
theorem witness_OrderedReductions :
    let s := cell 0 (contrib 2)
    okOf (checkAddress spad s) = some (.place (2 * 2 ^ 48)) ∧ (spad.extractLsb' 48 4).toNat = 7 ∧ (tcm.extractLsb' 48 4).toNat ∉ [1, 2, 7, 8] ∧
    okOf (checkAddress tcm s) = some (.place (3 * 2 ^ 48)) ∧ okOf (checkAddress (spad + 4) s) = some (.place (2 * 2 ^ 48 + 4)) ∧ (spad + 4).toNat % 8 ≠ 0 ∧
    (s.me.reg 5).toNat < 65535 ∧ s.me.contribs.length < 8 ∧ s.me.stbuf = [] ∧ (List.replicate 8 (contrib 2)).length = 8 ∧ s.redCells = [] ∧
    Memory.wf s.mem ∧ s.inFrameArea (2 * 2 ^ 48) = false ∧ quiet s (2 * 2 ^ 48) ∧ (s.core 0).contribs = [contrib 2] ∧ (s.core 0).outst = [] ∧
    (Claim.cellFail s (2 * 2 ^ 48), Claim.cellNext s (2 * 2 ^ 48), Claim.cellSum s (2 * 2 ^ 48)) = (false, 2, 0x3F800000) ∧
    Claim.cellFail (cell 0x80 (contrib 2)) (2 * 2 ^ 48) = true ∧
    (let t : State := { s with redCells := [(2 * 2 ^ 48, { held := [contrib 3], since := 0 })], now := 65536 }
     t.redCells = [(2 * 2 ^ 48, { held := [contrib 3], since := 0 })] ∧ 0 + 65536 ≤ t.now) := by decide +kernel
theorem witness_OrderedReductions_watches : ∀ k, ((cell 0 (contrib 2)).core k).arms = [] := all_cores _ (fun x => x.arms = []) (by decide +kernel) rfl
/-- 09 R206: 1.0 + 2.0 in order; NEXT goes on. -/
theorem test_redf : after (.redfArrival (contrib 2)) (cell 0 (contrib 2)) (fun t => t.peek (2 * 2 ^ 48) 8 == 0x340400000 && t.me.contribs.isEmpty) = true := by decide +kernel
def armed (w : Watch) (h f : Option (Nat × Nat)) : State :=
  let s := start true (fun x => { x.setReg 6 spad with rows := [(3, { valid := true })], arms := [(0, { row := 3, watches := [w], hit := h, fired := f })] })
  { s with happenings := [], mem := [(2 * 2 ^ 48, 7)] }
def watch (v : Word) : Watch := { dw := 2 * 2 ^ 48, seen := some { dw := 2 * 2 ^ 48, mask := 1, value := v }, page := none, stands := false }
theorem witness_Armaments :
    let s := armed (watch 7) none none
    (s.me.row 3).valid = true ∧ (s.me.row 3).fault = false ∧ (s.me.row 4).valid = false ∧
    (match ((List.range 1).mapM (fun j => do let x ← rd (nextReg 6 j); watchOf x) : Op (List Watch)) s with
      | .ok (ws, u) => ws.length == 1 && idle u && u.me.outst.isEmpty
      | .error _ => false) = true ∧
    (Tbl.find? s.me.arms 0).isSome ∧ Tbl.find? s.me.arms 1 = none ∧
    ((List.range 16).all fun i => (Tbl.find? ((List.range 16).map (fun i => (i, ({ row := 3, watches := [], hit := none, fired := none } : Arm)))) i).isSome) ∧
    ((BitVec.ofNat 64 (Claim.numAt s (2 * 2 ^ 48) 8) ^^^ 7) &&& spread 1 = 0) ∧ ((BitVec.ofNat 64 (Claim.numAt s (2 * 2 ^ 48) 8) ^^^ 6) &&& spread 1 ≠ 0) ∧
    s.cores = [(0, s.me)] ∧ ({ watch 7 with stands := true } : Watch).stands = true ∧ quiet s (watch 7).dw ∧ (2 * 2 ^ 48) % 8 = 0 := by decide +kernel
/-- 09 R211: a write of the watched doubleword hits the armament, which fires with index 0. -/
theorem test_arm : ((armed { watch 7 with stands := true } none none).writeAt (2 * 2 ^ 48) [8]).me.arms.map (fun a => a.2.hit.map (·.1)) = [some 0] ∧
    after (.armamentFire (2 * 2 ^ 48)) (armed (watch 7) (some (0, 5)) none) (fun t => t.me.arms.map (fun a => a.2.fired) == [some (0, 5)]) := by decide +kernel
def group7 (pend : Bool) : State :=
  let s := queued q40 (fun x => { (x.setReg 6 0xFFF00007).setReg 7 6 with members := [{ group := 7, pending := pend, rank := 1 }] })
  { s with groups := [(7, { valid := true, members := 2, arrived := 1, stagger := 3, episode := 4, orv := 1, sum := 1, arrivals := [{ core := 1, group := 7, rank := 0, value := 1, queue := 40 }] })] }
theorem witness_Barriers : let s := group7 false
    let id : BitVec 32 := (s.me.reg 6).setWidth 32
    id.extractLsb' 8 12 = 0 ∧ id.extractLsb' 20 12 = 0xFFF ∧ (id.extractLsb' 0 8).toNat = 7 ∧ s.me.members = [{ group := 7, pending := false, rank := 1 }] ∧
    (s.group 7).valid = true ∧ s.me.handle 4 = .queue 40 ∧ (s.queue 40).st = .active ∧ s.cur ∈ (s.queue 40).consumers ∧ idle s ∧
    (group7 true).me.members = [{ group := 7, pending := true, rank := 1 }] ∧ (s.group 7).arrived + 1 = (s.group 7).members ∧
    ((start true (fun x => x)).group 7).arrived + 1 ≠ ((start true (fun x => x)).group 7).members ∧ (s.queue 40).onchip < (s.queue 40).cap ∧ s.dev = [] := by decide +kernel

-- 09
theorem witness_VectorArithmetic : (laned id id).me.vl ≠ 0 ∧ (start true id).me.vl = 0 ∧ VxFields.short.qd = 0 ∧ VxFields.short.qa = 0 ∧ VxFields.short.qb = 0 := by
  decide +kernel
theorem witness_VectorMasksAndMoves : (laned id id).me.vl ≠ 0 ∧ (7 : Reg).toNat < 8 ∧ 0 < (1 : Reg).toNat := by decide +kernel
theorem witness_VectorSums : (laned id id).me.vl ≠ 0 ∧ (3 : BitVec 2) ≠ 0 ∧ 2 ≤ (2 : BitVec 2).toNat := by decide +kernel
/-- 11 R247: BF16 and FP16 in 16 bits, T8, T6 and INT8 in 8, K4 and INT4 in 4. -/
theorem witness_VectorConversions : (laned id id).me.vl ≠ 0 ∧ [1, 2].all (fun k => (fmtOf k).isSome && Claim.slotSize k == 1) ∧
    [3, 4, 6].all (fun k => (fmtOf k).isSome && Claim.slotSize k == 2) ∧ [5, 7].all (fun k => (fmtOf k).isSome && Claim.slotSize k == 3) := by decide +kernel
/-- 11 Table 11.1 and R227: VADD.I8 wraps in its bytes, and an inactive lane stays. -/
theorem test_vadd : after (.vadd 2 1 1 1 2) (laned (fun _ => 0x80FF7F01) id) (fun t => (t.me.vregs[2]).take 3 == [0, 0x00FEFE02, 0] && t.me.nflags == 0) = true := by
  decide +kernel
/-- 11 R232: VADDS.I16 saturates and raises SAT. -/
theorem test_vadds : after (.vadds 2 1 1 0 1) (laned (fun _ => 0x80007FFF) id) (fun t => (t.me.vregs[2]).take 1 == [0x80007FFF] && t.me.nflags == word flagSAT.toNat) = true := by
  decide +kernel
/-- 11 R253–R256: the inputs that follow no recipe. -/
theorem test_fixed :
    let gives := fun (i : Instr) (v : Nat) (r : Lane) (f : Flags) => after i (laned (fun _ => v) id) (fun t => (t.me.vregs[2]).take 1 == [r] && t.me.nflags == f.setWidth 64)
    gives (.vrcp 2 1 0) 0x80000000 0xFF800000 flagDIVZ ∧ gives (.vlog 2 1 0) 0x3F800000 0 0 ∧ gives (.vexp 2 1 0) 0xFF800000 0 0 ∧
    gives (.vtanh 2 1 0) 0xFF800000 0xBF800000 0 ∧ gives (.vsigm 2 1 0) 0 0x3F000000 0 ∧ gives (.vsin 2 1 0) 0x80000000 0x80000000 0 ∧
    gives (.vcos 2 1 0) 0 0x3F800000 0 ∧ gives (.vrsq 2 1 0) 0xBF800000 0x7FC00000 flagINV := by
  decide +kernel
-- 10
theorem witness_VectorMemory :
    let s := laned id (fun x => (x.setReg 6 (tcm + 1)).setReg 7 tcm)
    s.me.vl ≠ 0 ∧ s.me.outst = [] ∧ s.me.stbuf = [] ∧ s.me.contribs = [] ∧ trapOf (checkAddress 0xFFF9000000000000 s) = some (cACCESS, 0xFFF9000000000000) ∧
    okOf (checkAddress (tcm + 1) s) = some (.place (3 * 2 ^ 48 + 1)) ∧ (s.me.reg 6).toNat % 4 ≠ 0 ∧ (s.me.reg 7).toNat % 4 = 0 ∧
    (List.range 4).all (fun k => okOf (checkAddress (s.me.reg 7 + BitVec.ofNat 64 k) s) == some (.place (3 * 2 ^ 48 + k)) && quiet s (3 * 2 ^ 48 + k)) ∧ Claim.lanesOn 1 s.me = [1] ∧ (Claim.lanesOn 1 s.me).length ≤ 4 := by decide +kernel
theorem test_vld_vst : after (.vst 1 7 1 0) (laned (· + 7) (·.setReg 7 tcm)) (fun s =>
    after (.vld 2 7 0 0) s (fun t => (t.me.vregs[2]).take 3 == [0, 8, 0])) = true := by decide +kernel
/-- 11 R229: a queue source, of an item and of none; a queue destination. -/
theorem witness_VectorQueues :
    let s := { laned id (fun x => { x with handles := [(4, .queue 40)] }) with queues := [(40, { q40 with items := [⟨0, 0, it 0 1, none⟩, ⟨1, 0, it 3 1, none⟩] })] }
    idle s ∧ (s.coreRole s.cur).recast = none ∧ s.me.closed = [] ∧ (40 : Nat) ≠ 502 ∧ s.me.vl ≠ 0 ∧ s.me.handle 4 = .queue 40 ∧ s.qidPkg 40 = s.pkg ∧ qkeyOf 40 = 40 ∧ (s.queue 40).st = .active ∧
    (s.queue 40).items.Pairwise (fun i j => ¬ (i.slot = j.slot ∧ i.core = j.core)) ∧ (Claim.available s 40).map (·.item.tag) = [0, 3] ∧
    (40 : BitVec 32).extractLsb' 9 6 = 0 ∧ (40 : Nat) / 512 = s.cur / 256 ∧ 1 ≤ (s.queue 40).g ∧ (s.queue 40).g ≤ 8 := by decide +kernel
theorem witness_VectorQueues_none :
    let s := fun (st : QState) => { laned id (fun x => { x with handles := [(4, .queue 40)] }) with queues := [(40, { q40 with st := st })] }
    Claim.available (s .active) 40 = [] ∧ Claim.available (s .failed) 40 = [] ∧ ((s .failed).queue 40).st ≠ .active ∧
    ((s .active).accept 40 (it 0 1) 5 true).toOption.isSome ∧ ((s .failed).accept 40 (it 0 1) 5 true).toOption = none := by decide +kernel

-- 11
def tens6 : State := tensored (tens 6 128 spad) (fun x => x)
theorem witness_TensorTable :
    ((0xFFF04005 : BitVec 32).extractLsb' 20 12 = 0xFFF ∧ (0xFFF04005 : BitVec 32).extractLsb' 10 4 = 0 ∧ (0xFFF04005 : BitVec 32).getLsbD 14 = true ∧
      (0xFFF04005 : BitVec 32).extractLsb' 15 5 = 0 ∧ (0xFFF04405 : BitVec 32).extractLsb' 10 4 ≠ 0) ∧ (tens6.me.reg 6).setWidth 32 = 0xFFF04005#32 ∧
    (tens6.tensor 5).taken = true ∧ (tens6.tensor 5).owner = tens6.coreDom tens6.cur ∧ (tens6.tensor 6).taken = true ∧ (tens6.tensor 6).owner ≠ tens6.coreDom tens6.cur ∧
    (tens6.tensor 7).taken = false ∧ tens6.me.stbuf = [] ∧ (tens6.tensor 2).taken = false ∧ (tens6.tensor 0).taken = true ∧ (tens6.tensor 1).taken = true := by
  decide +kernel
theorem witness_TensorTable_entries :
    (tens 6 128 spad).wellFormed true = true ∧ Entry.wellFormed true 0 = false ∧ Entry.valid (tens 6 128 spad) = true ∧ Entry.valid (0 : Entry) = false ∧
    Entry.rdim (tens 6 128 spad ||| BitVec.ofNat 512 (2 ^ 233 + 2 ^ 168)) = 1 ∧ tcm.extractLsb' 0 52 ≠ 0 ∧ tcm.extractLsb' 52 12 = 0xFFF ∧
    (tcm.extractLsb' 48 4).toNat = 6 := by decide +kernel
theorem witness_TensorTable_reads :
    (match loadRange tcm 64 16 tens6 with | .ok (bs, u) => bs.length == 64 && decide (u.tensors = tens6.tensors) && u.coreSvc u.cur == tens6.coreSvc tens6.cur | .error _ => false) = true ∧
    (match mapRange tcm 64 .write tens6 with | .ok (ps, u) => ps.length == 4 && u.me.stbuf.isEmpty && ps.all (fun p => !u.mustWait p.loc p.pa p.n false) && decide (tcm.toNat % 2 ^ 16 + 64 ≤ 2 ^ 16) | .error _ => false) = true := by
  decide +kernel
def taken : Nat → Tbl Tensor
  | 0 => []
  | n + 1 => (n, { taken := true }) :: taken n
theorem taken_all : ∀ n j, j < n → (Tbl.get (taken n) {} j).taken = true
  | n + 1, j, h => by
    by_cases e : n = j
    · simp [taken, Tbl.get, Tbl.find?, e]
    · have := taken_all n j (by omega)
      simpa [taken, Tbl.get, Tbl.find?, e] using this
theorem witness_TensorTable_full : let s : State := { start true (fun x => x) with tensors := taken 1024 }
    ∀ j < 1024, (s.tensor (clusterOf s.cur * 1024 + j)).taken = true := fun j h => by
  have e : clusterOf (start true fun x => x).cur * 1024 + j = j := by
    rw [show clusterOf (start true fun x => x).cur = 0 by decide +kernel]; exact Nat.zero_add j
  exact (congrArg (fun k => (Tbl.get (taken 1024) {} k).taken) e).trans (taken_all _ _ h)
/-- 12 R291: the lowest free INDEX of the cluster, with the real package and the cluster. -/
theorem test_tdalloc : after (.tdalloc 5) (tensored 0 id) (fun t => t.me.reg 5 == 2 && (t.tensor 2).taken && (t.tensor 2).owner == 5 && (t.tensor 2).entry == 0) = true := by
  decide +kernel
theorem witness_MatrixCommands :
    let e := tens 6 128 spad
    let s := tensored e (·.setReg 7 (127 * 2 ^ 20))
    idle s ∧ s.me.outst = [] ∧ Tbl.find? s.me.accs 3 = some 9 ∧ Tbl.find? s.me.accs 4 = none ∧ s.me.handle 4 = .queue 40 ∧ s.me.handle 7 = .unmapped ∧
    (queued { q40 with st := .failed } id).me.handle 4 = .queue 40 ∧ ((queued { q40 with st := .failed } id).queue 40).st ≠ .active ∧
    (s.queue (qkeyOf 40)).st = .active ∧ s.qidPkg 40 = s.pkg ∧ e.wellFormed (s.coreSvc s.cur) = true ∧ Entry.fmt e = 6 ∧ Entry.spn e = 0 ∧
    (Entry.base e |>.extractLsb' 48 4).toNat = 7 ∧ (Entry.base e).extractLsb' 52 12 = 0xFFF ∧
    (s.me.reg 6).toNat < 2 ^ 52 ∧ (s.me.reg 7).toNat < 2 ^ 40 ∧ (2 ^ 52 : Word).toNat = 2 ^ 52 ∧ s.me.mq.length < 16 ∧ Entry.scale e = 0 ∧
    (let c : MCmd := { id := 0, core := 0, q := 0, dom := 5, svc := true, nmode := 0, role := 0, at_ := 0, op := .zero 9 }
     (List.replicate 16 c).length = 16) := by decide +kernel
/-- 12 R266: the captured base is the scratchpad of the core's own cluster, in full form. -/
theorem test_mloadb : after (.mloadb 4 6 7 5) (tensored (tens 6 128 spad) (·.setReg 7 0)) (fun t => t.me.mq.map (·.op) ==
    [.loadb 5 (tens 6 128 0x0002000000000000) 0 0 0]) = true := by decide +kernel

/-- Ensemble 0 with an accepted command of core 0; bank 1 is INT8 with 2 in every place of its first position, and tile 9 holds 1.0. -/
def unit (op : MOp) (f : State → State) : State :=
  let c : MCmd := { id := 77, core := 0, q := 40, dom := 5, svc := true, nmode := 0, role := 0, at_ := 0, op := op }
  f ((queued q40 id).setEns 0 { accepted := [c], banks := [(1, { valid := true, fmt := 6, span := 1, cols := List.replicate 128 [.fin false 2 0] })],
                                tiles := [(9, [List.replicate 128 0x3F800000])] })
def starts (s : State) (op : MOp) : Bool :=
  !(s.devGet (retReg 4 0)).getLsbD 0 && s.transitions.isEmpty && (s.ens 0).accepted.map (·.op) == [op]
theorem reads_outside (a : Actor) (md : Modes) (e : Entry) (i : Idx) (s : State) (h : e.ext 0 ≤ coord i 0) :
    readElem a md e i s = .ok ((Num.zero false, 0), s) := by
  have : outside a e i s = .ok (true, s) := by
    unfold outside
    rw [if_pos (List.any_eq_true.2 ⟨0, by decide, by simpa using h⟩)]
    rfl
  simp only [readElem, bind, Except.bind, StateT.bind, this]
  rfl
theorem witness_MatrixUnit :
    (let s := queued q40 (fun x => { x with mq := [{ id := 77, core := 0, q := 40, dom := 5, svc := true, nmode := 0, role := 0, at_ := 0, op := .zero 9 }] })
     (s.ens 0).arbCore < 8 ∧ (s.core 0).mq ≠ [] ∧ (s.ens 0).arbTaken < max 1 (s.core 0).weight) ∧
    starts (unit (.zero 9) id) (.zero 9) ∧ starts (unit (.inval 33) id) (.inval 33) ∧ starts (unit (.note 5) id) (.note 5) ∧
    (let op : MOp := .loadb 1 (tens 6 1 spad) 0 0 1
     starts (unit op id) op ∧ Entry.spn (tens 6 1 spad) = 0 ∧ Entry.fmt (tens 6 1 spad) = 6 ∧ (tens 6 1 spad).ext 0 = 1) ∧
    (let e := tens 6 128 0x000100000FC00000
     let c : MCmd := { id := 77, core := 0, q := 40, dom := 5, svc := false, nmode := 0, role := 0, at_ := 0, op := .loadb 1 e 0 0 0 }
     trapOf (loadCols c.actor c.modes e (e.withPkg e.sparse) 0 0 0 (unit c.op id)) = some (cACCESS, 0x000100000FC00000)) ∧
    (let op : MOp := .mma 3 9 1 2 (tens 6 128 spad) 0 0 0 1
     starts (unit op id) op ∧ (((unit op id).ens 0).bank 1).valid = true ∧ (((unit op id).ens 0).bank 2).valid = false) ∧
    (let e := tens 6 128 0x0002000000000000
     let op : MOp := .mma 3 9 1 1 e 0 0 0 1
     let s := unit op id
     let c : MCmd := { id := 77, core := 0, q := 40, dom := 5, svc := true, nmode := 0, role := 0, at_ := 0, op := op }
     starts s op ∧ ((s.ens 0).bank 1).bad = false ∧ ((s.ens 0).bank 1).span ≤ 1024 ∧ okOf (outside c.actor e (planeIdx e 0 0 0) s) = some false ∧
     okOf (readElem c.actor c.modes e (planeIdx e 0 0 0) s) = some (.zero false, 0)) ∧
    (let e := tens 0 1 0x0002000000000000
     let op : MOp := .drain 3 9 true e 0 0 1 1 0
     starts (unit op id) op ∧
     ((unit op id).drainAll (drainWrites { core := 0, dom := 5, svc := true } ⟨0, false, false, false⟩ e 0 0 1 1 0 (((unit op id).ens 0).tiles.get [] 9)) 0 0).2.2.1 = none) := by
  decide +kernel
theorem witness_MatrixUnit_reads (a : Actor) (md : Modes) (s : State) (col row : Nat) :
    readElem a md (tens 6 1 spad) (planeIdx (tens 6 1 spad) (1 + col) row 0) s = .ok ((Num.zero false, 0), s) :=
  reads_outside _ _ _ _ _ (by
    have h : (tens 6 1 spad).ext 0 = 1 := by decide +kernel
    have g : (tens 6 1 spad).layout = false := by decide +kernel
    rw [h, planeIdx, if_neg (by rw [g]; decide)]
    exact Nat.le_add_right 1 col)

-- 12
/-- A third, a half way between two BF16 codes, and a value beyond every T8 code; and their flags. -/
theorem witness_Rounding :
    let md : Modes := ⟨0, false, false, false⟩
    Fmt.bf16 ∈ [Fmt.fp32, .bf16, .fp16, .t8, .t6, .k4] ∧ md.flushN = false ∧ md.flush32 = false ∧ (0 : Int) ≤ -200 + 200 ∧
    (encodeNum .bf16 md (.fin false 257 0)).2 &&& flagOVF = 0 ∧ (encodeNum .t8 md (.fin false 1000 0)).2 &&& flagOVF ≠ 0 ∧
    (0x7F < 2 ^ Fmt.bits .bf16 ∧ decodeFloat .bf16 0x3F80 = .fin false 0x80 (-7)) := by decide +kernel
def v32 (l : List Num) : List Num := l ++ List.replicate (32 - l.length) (.fin false 0 0)
/-- One group with exponents, one all zero, and with NaN, an infinity times zero, and infinities of one sign. -/
theorem witness_AlignedSums :
    let A := v32 [.fin false 3 0, .fin true 1 2]
    let top := fun (l : List Num) => (l.filterMap (Claim.exponent 3 (Claim.width 3))).foldl (fun m j => max m j) (-1000)
    A.length = 32 ∧ (A.all fun x => !x.isNan && !x.isInf) ∧ top A = 2 ∧ (A.map (Claim.exponent 3 (Claim.width 3))).contains (some 2) ∧
    ((v32 []).all fun x => x.isZero) ∧ (v32 [.nan false]).any (fun x => x.isNan) ∧
    ((v32 [.inf true]).zip (v32 [])).any (fun p => p.1.isInf && p.2.isZero) ∧
    ((v32 [.inf true]).zip A).all (fun p => !p.1.isInf || (!p.2.isZero && (p.1.isNeg != p.2.isNeg) == true)) := by decide +kernel
def copied (op : XOp) (pos : Nat) (f : State → State) : State :=
  f { tensored (tens 8 1 spad) (fun x => x) with
      engines := [(0, { running := [{ id := 77, core := 0, q := 40, dom := 5, svc := true, nmode := 0, start := 0, pos := pos, flags := 0, op := op, sent := [], stop := none, saved := [], written := [], inbox := [],
                                      fetched := 0, row := [], tail := [], tailFlags := 0 }] })] }
theorem witness_EngineCommands :
    let e := tens 8 16 spad
    let s := tensored e (fun x => ((x.setReg 6 0xFFF04005FFF04005).setReg 7 0x40).setReg 8 (tcm + 64))
    idle s ∧ s.me.outst = [] ∧ s.cur < 8192 ∧ s.me.handle 4 = .queue 40 ∧ (s.queue (qkeyOf 40)).st = .active ∧ s.me.handle 7 = .unmapped ∧
    (s.me.reg 6).extractLsb' 0 32 = 0xFFF04005#32 ∧ (s.me.reg 6).extractLsb' 32 32 = 0xFFF04005#32 ∧ e.wellFormed true = true ∧ Entry.spn e = 0 ∧
    Claim.total e = 256 ∧ (s.me.reg 7).extractLsb' 7 9 = 0 ∧ (s.me.reg 7).extractLsb' 56 8 = 0 ∧ (s.me.reg 7).extractLsb' 16 40 = 0 ∧ (s.me.reg 7).getLsbD 6 = true ∧
    (Entry.base e).extractLsb' 52 12 = 0xFFF ∧ (s.engine 3).queue = [] ∧ (s.engine 3).running.length < 4 := by decide +kernel
/-- 13 R298: with load on engine 0, ANY takes engine 1; the start index is captured. -/
theorem test_xfill : after (.xfill 4 6 7 0) ({ tensored (tens 8 16 spad) (fun x => (x.setReg 6 0x00000007FFF04005).setReg 7 0x40) with
      engines := (copied (.fill 0 0) 0 id).engines }) (fun t => (t.engine 1).running.map (fun c => (c.pos, c.op)) == [(0, .fill (tens 8 16 0x0002000000000000) 7)]) = true := by
  decide +kernel
theorem witness_EngineRuns :
    let S := tens 8 1 0x0002000000000000
    let D := tens 8 1 0x0001000000000000
    let s := copied (.copy S D) 0 id
    let B := tens 8 1 0x000300000000FC00
    ((s.engine 0).queue = [] ∧ (s.engine 0).running.length = 1 ∧ (s.engine 0).running.all (fun c => c.sent.isEmpty && c.stop.isNone && c.saved.isEmpty && c.written.isEmpty && c.tail.isEmpty && c.tailFlags == 0) ∧ Claim.total D = 1 ∧ Claim.total S = 1 ∧
    Entry.fmt S = 8 ∧ Entry.scale S = 0 ∧ Entry.rdim S = 0 ∧ Entry.rdim D = 0 ∧ (S.place (S.idx 0)).1.toNat % 4 = 0 ∧ (D.place (D.idx 0)).1.toNat % 4 = 0 ∧
     (S.place (S.idx 0)).1.extractLsb' 48 16 = (Entry.base S).extractLsb' 48 16 ∧ (D.place (D.idx 0)).1.extractLsb' 48 16 = (Entry.base D).extractLsb' 48 16 ∧ mirrorOf (2 ^ 48) = none) ∧
    okOf (unitPlace { core := 0, dom := 5, svc := true } (S.place (S.idx 0)).1 .read s) = some (2 * 2 ^ 48) ∧
    okOf (unitPlace { core := 0, dom := 5, svc := true } (D.place (D.idx 0)).1 .write s) = some (2 ^ 48) ∧ quiet s (2 * 2 ^ 48) ∧ quiet s (2 ^ 48) ∧
    s.inFrameArea (2 ^ 48) = false ∧ s.redCells = [] ∧ Memory.wf s.mem ∧ (Entry.base S).extractLsb' 48 4 ≠ (Entry.base D).extractLsb' 48 4 ∧
    trapOf (unitPlace { core := 0, dom := 5, svc := true } (B.place (B.idx 0)).1 .read s) = some (cACCESS, 0x000300000000FC00) := by decide +kernel
/-- 13 R302, R307: the copy moves the four bytes and its completion item is in the queue. -/
theorem test_xcopy : after (.xcopyExecute 0 77 5) { copied (.copy (tens 8 1 0x0002000000000000) (tens 8 1 0x0001000000000000)) 0 id with mem := Memory.setBytes [] (2 * 2 ^ 48) [1, 2, 3, 4] }
    (fun t => t.peek (2 ^ 48) 8 == 0x04030201 && (t.engine 0).running.isEmpty) = true := by decide +kernel
/-- A rank of another package; a collective that waits for it, one that it disagrees with, one that has passed its deadline. -/
def rank (n count : Nat) : RankArrival :=
  { pkg := 1, eng := 2, id := 5, key := 0xABC, rank := n, ranks := 2, start := 0, count := count, fmt := 0, dst := some 0, dcount := count, nmode := 0, tmo := 0 }
def held (key : BitVec 32) (l : List RankArrival) (t : Nat) : Coll :=
  { key := key, arrived := l, pos := 0, deadline := t, st := .idle, rows := [], emax := [], heard := [] }
def rooted (l : List Coll) : State := { start true (fun x => x) with happenings := [], engines := [(0, { roots := l })], now := 100 }
theorem witness_EngineRuns_roots :
    let e := fun (l : List Coll) => (rooted l).engine 0
    ((rank 0 32).pkg ≠ (rooted []).pkg ∧ (rank 0 32).dcount = (rank 0 32).count ∧ (rank 0 32).fmt.toNat ≤ 5 ∧ (rank 0 32).ranks ≠ 1 ∧ (rooted []).happenings = []) ∧
    (e []).roots.length < 8 ∧ (e ((List.range 8).map (fun k => held (BitVec.ofNat 32 k) [] 0))).roots.length = 8 ∧
    (e [held 0xABC [rank 0 32] 200]).roots.map (fun c => (c.key, c.arrived.length + 1)) = [((rank 1 32).key, (rank 1 32).ranks)] ∧
    ([rank 0 32].all fun y => y.rank != (rank 1 32).rank && y.ranks == (rank 1 32).ranks && y.start == (rank 1 32).start && y.count == (rank 1 32).count) ∧
    ({ rank 1 32 with dcount := 33 }.dcount ≠ (rank 1 32).count) ∧ (e []).waiting = [] ∧ (e [held 0xABC [rank 0 32] 200]).waiting = [] ∧ (held 0xABC [rank 0 32] 200).heard = [] ∧ (rooted []).now < 200 ∧ 100 ≤ (rooted []).now := by decide +kernel
theorem witness_EngineRuns_single :
    let r := { rank 0 32 with ranks := 1, pkg := 0, eng := 0, id := 77, dst := none }
    let S := tens 0 32 0x0002000000000000
    let op : XOp := .red S none r 0 0
    let s := copied op 0 (fun s => { s with engines := s.engines.map (fun e => (e.1, { e.2 with roots := [held 0xABC [r] 200] })) })
    (s.engine 0).roots.map (fun k => (k.key, k.arrived, k.pos, k.st, k.heard)) = [(0xABC, [r], 0, .idle, [])] ∧ (s.engine 0).waiting = [] ∧ r.pkg = s.pkg ∧ r.count = 0 + 32 ∧
    (s.engine 0).running.map (fun c => (c.op, c.id)) = [(op, r.id)] ∧
    (List.range 32).all (fun j => okOf (readElem { core := 0, dom := 5, svc := true } (modesOf 0) S (S.idx (0 + j)) s) == some (.fin false 0 (-149), 0)) := by decide +kernel

-- 13
def remote : Word := 0x0012000000000008
theorem witness_RemoteInstructions_fields :
    ((remote.extractLsb' 48 4).toNat = 2 ∧ (remote.extractLsb' 0 48).toNat / 2 ^ 22 % 2 ^ 21 = 0 ∧ remote.extractLsb' 52 12 = 1 ∧ remote.toNat % 8 = 0 ∧ (remote + 4).toNat % 8 ≠ 0) ∧
    (tcm.extractLsb' 48 4).toNat = 6 ∧ ¬ (6 ≤ 3) := by decide +kernel
/-- A core whose `s6` is a remote address and `s7` a cue; cue 1 of this package is PENDING with generation 9, cue 2 FAILED. -/
def cued (f : Core → Core) : State :=
  { (queued q40 (fun x => f ((x.setReg 6 remote).setReg 7 0x109))).devPut (lifeReg 5) 3 with
    cues := [(1, { st := .pending, gen := 9, dom := 5, dest := [4] }), (2, { st := .failed, gen := 9, dom := 5 }), (3, { st := .landed, gen := 9, dom := 5 })] }
theorem witness_RemoteInstructions :
    let s := cued id
    let c := fun (n : Nat) => BitVec.ofNat 32 (n * 256 + 9)
    s.me.stbuf = [] ∧ s.me.contribs = [] ∧ s.me.outst = [] ∧ (s.dev.get 0 (injReg 5 0)).getLsbD 63 = false ∧
    (let t := cued (fun x => { busy 64 { x with inst := { x.inst with id := 8 } } with inst := x.inst })
     t.me.outst.length = 64 ∧ t.me.outst.all (fun o => o.inst != t.me.inst.id)) ∧ (cued (busy 64)).me.outst.length = 64 ∧ s.me.handle 4 = .queue 40 ∧ (s.queue (qkeyOf 40)).st = .active ∧
    s.qidPkg 40 = s.pkg ∧ s.me.handle 7 = .unmapped ∧ (c 1).extractLsb' 20 12 = s.pkg ∧
    ((Claim.entryOf s (c 1)).st ≠ .free ∧ (Claim.entryOf s (c 1)).gen = (c 1).extractLsb' 0 8 ∧
      s.now < (Claim.entryOf s (c 1)).issuedAt + (s.devGet (lifeReg 5)).toNat * 2000) ∧ (Claim.entryOf s (c 1)).st ≠ .failed ∧ (Claim.entryOf s (c 2)).st = .failed ∧
    (s.cue 0).st = .free ∧ (4 : Nat) ≤ 9 ∧ (30 : Reg).toNat < 31 := by decide +kernel
/-- 15 R328: a store that returns a cue takes entry 0 with generation 1. -/
theorem test_stx : after (.stx 5 6 7 3) (cued id) (fun t => t.me.reg 5 == 1 && (t.cue 0).st == .pending && (t.cue 0).gen == 1 && t.me.outst.length == 1 &&
    t.happenings.any (fun h => h.1 == 6000)) = true := by decide +kernel
theorem witness_RemoteAnswers :
    let s := queued q40 (fun x => x)
    let r := request (.store 8 77 0 .plain 0)
    (s.hold = [] ∧ s.misses = [] ∧ s.happenings = [] ∧ s.landed = [] ∧ s.redCells = [] ∧ s.failedCues = [] ∧ s.brokenCopies = [] ∧ s.dev = [] ∧
      r.origin ≠ s.pkg ∧ s.egress = [] ∧ s.trunks = [] ∧ qkeyOf 40 ≠ 502) ∧
    (match s.requestPlace r with | .ok (p, t) => p == 2 * 2 ^ 48 + 8 && quiet t p && !t.inFrameArea p && t.redCells.isEmpty && (mirrorOf p).isNone | .error _ => false) = true ∧
    trapOf (s.requestPlace { r with addr := 0x0003000000008008 }) = some (cACCESS, 0x0003000000008008) ∧
    pageOf (s.requestPlace { r with addr := 0x0000000000020008 }) = some .badRoot ∧ requestBytes r = 8 ∧ (77 : Word).toNat < 2 ^ (8 * 8) ∧
    (let w : PacketWrite := { addr := 0x0002000000000008, n := 4, value := 5, bits := 0xFFFFFFFF, index := 3 }
     let y : RemoteReq := { r with core := 8192, kind := .packet 3 4 [w] }
     8192 ≤ y.core ∧ w.addr.toNat % 16 + w.n ≤ 16 ∧ w.bits = 2 ^ (8 * w.n) - 1 ∧
     (match s.placeFor y .write w.addr with | .ok (p, t) => quiet t p && !t.inFrameArea p && t.redCells.isEmpty && (mirrorOf p).isNone | .error _ => false) = true ∧
     (match s.placeFor y .read w.addr with | .ok (p, t) => quiet t p | .error _ => false) = true ∧
     trapOf (s.placeFor y .write 0x0003000000008008) = some (cACCESS, 0x0003000000008008)) ∧
    (s.core 0).held = [] ∧ (s.core 0).cond = .running ∧ (busy 1 s.me).outst.map (·.serial) = [0] ∧
    (s.accept 40 (it 0 1) (s.coreDom 0) true).toOption.isSome := by decide +kernel
/-- 15 R326, R335: the store's bytes, and its acknowledgement sent. -/
theorem test_remote_store : after (.remoteRequestArrival (request (.store 4 0x1122334455 0 .plain 0))) (queued q40 (fun x => x))
    (fun t => t.peek (2 * 2 ^ 48 + 8) 8 == 0x22334455) = true := by decide +kernel
def heldAt (n : Nat) (k : RemoteKind) : State := { cued id with hold := [{ id := 3, req := request k, cue := 0x109, at_ := n }], now := 6000, pkg := 0 }
theorem witness_Cues :
    let k : RemoteKind := .store 8 77 0x109 .plain 0
    (Claim.entryOf (cued id) 0x109).st = .pending ∧ (Claim.entryOf (cued id) 0x109).gen = 9 ∧ (Claim.entryOf (cued id) 0x109).queries = [] ∧
    (Claim.entryOf (cued id) 0x109).dest = [4] ∧ (Claim.entryOf (cued id) 0x209).st = .failed ∧ (Claim.entryOf (cued id) 0x309).st = .landed ∧
    (cued id).happenings = [] ∧ (cued id).hold = [] ∧ (cued id).trunks = [] ∧ ((cued id).dev.all fun r => !r.2.getLsbD 63) ∧ (cued id).egress = [] ∧ (cued id).now < 0 + ((cued id).devGet (lifeReg 5)).toNat * 2000 ∧
    (heldAt 1 k).hold.map (fun h => (h.cue, h.req.kind, h.at_)) = [(0x109, k, 1)] ∧ (heldAt 1 k).now < 1 + ((heldAt 1 k).devGet (lifeReg 5)).toNat * 2000 ∧
    0 + ((heldAt 0 k).devGet (lifeReg 5)).toNat * 2000 ≤ (heldAt 0 k).now ∧ (heldAt 0 k).devGet (cueFaultReg 5) = 0 ∧
    (((cued id).setQueue 503 (serviceQueue 3 0)).accept (qkeyOf ((cued id).qidOf 503)) (it 0 1) 5 true).toOption.isSome ∧
    (((cued id).setQueue 503 (serviceQueue 3 0)).acceptNote (qkeyOf ((cued id).qidOf 503)) (it 0 1) 5).toOption.isSome := by decide +kernel
theorem witness_Cues_queries :
    let w : Watcher := .core 1 0 7 40
    let s := { cued id with cues := [(1, { st := .pending, gen := 9, dom := 5, queries := [w] })] }
    (Claim.entryOf s 0x109).queries = [w] ∧ w ∉ (Claim.entryOf (cued id) 0x109).queries ∧ s.cores.length = 1 ∧ (s.core 0).held = [] ∧ (s.core 0).cond = .running := by
  decide +kernel

-- 14
/-- Trunk 3 of two ports with lanes 0 to 7, at service level. -/
def trunked (f : Trunk → Trunk) (g : Core → Core) : State :=
  { start true g with happenings := [], trunks := [(3, f { ports := 2, inuse := 0xFF })] }
def flit (seq : Nat) (ps : List (BitVec 12 × Msg)) : Flit :=
  { seq := BitVec.ofNat 24 seq, ack := 0, ackv := false, nak := false, cls := 0, cred := 1, ccls := 0, used := 0, dpkg := 0, spkg := 1, payload := [7], crc := 0,
    packets := ps }
/-- The flit with its own CRC, changed by k. -/
def sealed (f : Flit) (k : BitVec 64) : Flit := { f with crc := flitCode f + k }
theorem witness_Links :
    let s := trunked (fun t => t) (fun x => (x.setReg 6 3).setReg 7 7)
    (s.coreSvc s.cur = true ∧ s.egress = [] ∧ s.happenings = [] ∧ s.hold = [] ∧ s.misses = [] ∧
      (s.trunks.all fun t => t.2.stream.isEmpty && t.2.ending.isEmpty && t.2.owed.isEmpty && t.2.replay.isEmpty) ∧ ((s.me.reg 6).extractLsb' 0 6).toNat = 3 ∧ (s.trunk 3).ports = 2 ∧ (s.trunk 4).ports = 0 ∧
      (s.trunk 3).step ≤ 2 ∧ (s.trunk 3).st = .up ∧ (s.me.reg 6).extractLsb' 10 54 = 0 ∧ (s.me.reg 6).extractLsb' 6 2 = 0 ∧ (s.me.reg 7).extractLsb' 40 24 = 0 ∧
      (s.me.reg 7).extractLsb' 4 12 = 0 ∧ (s.trunk 3).inuse.getLsbD 7 = true ∧ 7 < 4 * 2 ∧ ((s.trunk 3).failed ||| (s.trunk 3).injected).getLsbD 7 = false) ∧
    (0x400 : Word).extractLsb' 10 54 ≠ 0 ∧ ((trunked (fun t => { t with st := .retraining, target := (1, 0xF) }) id).trunk 3).st = .retraining ∧
    ((trunked (fun t => { t with st := .down }) id).trunk 3).st = .down ∧ ((trunked (fun t => { t with replay := [flit 1 []] }) id).trunk 3).replay ≠ [] ∧
    ((trunked (fun t => { t with armed := some (0, 1) }) id).trunk 3).armed ≠ none ∧
    ((flit 1 []).seq = (s.trunk 3).rxSeq + 1 ∧ (flit 2 []).seq ≠ (s.trunk 3).rxSeq + 1 ∧ (flit 1 []).cls ≠ 3 ∧
      (flit 1 [(0, .request (request (.read 8 40 0)))]).packets = [(s.pkg, .request (request (.read 8 40 0)))]) := by decide +kernel
theorem sealed_body (f : Flit) (k : BitVec 64) : flitBody (sealed f k) = flitBody f := rfl
/-- A flit is intact with its own CRC, and is not with another. -/
theorem witness_Links_flits (n : Nat) (ps : List (BitVec 12 × Msg)) :
    flitIntact (sealed (flit n ps) 0) = true ∧ flitIntact (sealed (flit n ps) 1) = false := by
  have h : ∀ k, flitCode (sealed (flit n ps) k) = flitCode (flit n ps) := fun k =>
    congrArg crc64 (sealed_body (flit n ps) k)
  have c : ∀ f k, (sealed f k).crc = flitCode f + k ∧ (sealed f k).payload = f.payload := fun _ _ => ⟨rfl, rfl⟩
  have l : (flit n ps).payload.length = 1 := rfl
  simp [flitIntact, h, (c _ _).1, (c _ _).2, l]
/-- 15 R341: the check value of the ECMA-182 CRC-64, of the bytes of "123456789". -/
theorem test_crc : crc64 ((List.range 9).map (fun k => BitVec.ofNat 8 (0x31 + k))) = 0x6C40DF5F0B497347 := by decide +kernel
/-- 15 R344: a fault of lane 7 halves the width, to the lower half. -/
theorem test_lane : after (.laneFault 3 7) (trunked (fun t => t) id) (fun t => (t.trunk 3).st == .retraining && (t.trunk 3).target == (1, 0xF) &&
    after (.retrainComplete 3) t (fun u => (u.trunk 3).st == .up && (u.trunk 3).inuse == 0xF && (u.trunk 3).step == 1)) = true := by decide +kernel
-- 15
theorem witness_Requests :
    let s := recorded 3 (2 ^ 52) (fun x => x)
    let f := Claim.bitsOfRecord (s.record 5)
    (idle s ∧ s.me.outst = [] ∧ s.redCells = [] ∧ Memory.wf s.mem ∧ s.injected = [] ∧ s.tests = []) ∧
    ((s.me.reg 6).toNat < 2 ^ 32 ∧ (s.me.reg 6).extractLsb' 14 10 = 0 ∧ ((s.me.reg 6).extractLsb' 0 14).toNat = 5 ∧ (s.record 5).extractLsb' 53 3 = 3 ∧
      (s.record 5).extractLsb' 56 8 = (s.me.reg 6).extractLsb' 24 8 ∧ (s.record 5).extractLsb' 16 12 = s.coreDom s.cur) ∧
    [f 53 3, f 52 1, f 64 32, f 176 4, f 448 64, f 288 16, f 16 12, f 404 12, f 652 4, f 36 1, f 656 16] = [3, 1, 7, 1, 0, 0, 5, 0, 0, 0, 0] ∧ f 128 64 ≠ 0 ∧
    (s.devGet (formerReg 0 7)).getLsbD 63 = true ∧ ((s.devGet (formerReg 0 7)).extractLsb' 0 12).toNat = 5 ∧
    Claim.bitsOfRecord (s.record 0) 53 3 = 0 ∧ Claim.bitsOfRecord ((recorded 1 0 id).record 5) 53 3 = 1 ∧ Claim.bitsOfRecord ((recorded 4 (2 ^ 36) id).record 5) 36 1 = 1 ∧
    Claim.SetBit 64 = true ∧ (0x4009000005 : Word).toNat ≥ 2 ^ 32 := by decide +kernel
theorem witness_Requests_watches : ∀ k, ((recorded 3 (2 ^ 52) (fun x => x)).core k).arms = [] := all_cores _ (fun x => x.arms = []) (by decide +kernel) rfl
/-- 18 R372: of three provisional tokens the second is the end token; the record is done with two. -/
theorem test_rqcommit : after (.rqcommit 5 6 7) (recorded 2 (99 * 2 ^ 192 + 3 * 2 ^ 652 + 11 * 2 ^ 768 + 99 * 2 ^ 800 + 12 * 2 ^ 832 + 7 * 2 ^ 96) (·.setReg 7 3))
    (fun t => t.me.reg 5 == 2 && ((t.record 5).extractLsb' 53 3).toNat == 4 && ((t.record 5).extractLsb' 28 8).toNat == 1 && ((t.record 5).extractLsb' 96 32).toNat == 9) = true := by
  decide +kernel
theorem witness_Requests_commit :
    let s := recorded 2 (99 * 2 ^ 192 + 3 * 2 ^ 652 + 11 * 2 ^ 768 + 99 * 2 ^ 800 + 12 * 2 ^ 832 + 7 * 2 ^ 96) (·.setReg 7 3)
    let f := Claim.bitsOfRecord (s.record 5)
    f 53 3 = 2 ∧ f 652 4 = 3 ∧ f 448 64 = 0 ∧ f 404 12 = 0 ∧ f 96 32 = 7 ∧ Claim.stopCode (s.record 5) 0 8 = 0 ∧ Claim.stopCode (s.record 5) 1 9 = 1 := by decide +kernel

-- 16
/-- Former 0 enabled for domain 5, its registers as given, with a command of core 0 and the rest of its state. -/
def forming (regs : List (Nat × Word)) (g : Former) (r : Nat × Nat) : State :=
  let s := recorded r.1 r.2 (fun x => x)
  { regs.foldl (fun s p => s.devPut (formerReg 0 p.1) p.2) s with
    formers := [(0, g)], tensors := [(5, { taken := true, owner := 5, entry := tens 0 1 spad })] }
def fcmd (op : FOp) : FCmd := { core := 0, q := 40, dom := 5, svc := true, op := op }
theorem witness_FormerCommands :
    let s := { forming [(4, 2 ^ 32)] {} (2, 0) with happenings := [] }
    (idle s ∧ s.me.outst = [] ∧ s.me.handle 7 = .unmapped ∧ s.me.handle 4 = .queue 40 ∧ (s.queue (qkeyOf 40)).st = .active ∧ s.qidPkg 40 = s.pkg) ∧
    ((s.devGet (formerReg 0 7)).getLsbD 63 = true ∧ (s.devGet (formerReg 0 7)).extractLsb' 0 12 = s.coreDom s.cur ∧ (s.devGet (formerReg 1 7)).getLsbD 63 = false) ∧
    (s.former 0).queue.length < 64 ∧ (List.replicate 64 (fcmd .step)).length = 64 ∧ Entry.fmt (tens 0 1 spad) = 0 ∧ Entry.rank (tens 0 1 spad) = 2 ∧
    ((Entry.base (s.captured s.cur (tens 0 1 spad))).extractLsb' 48 4).toNat = 2 ∧ ((s.devGet (formerReg 0 3)).extractLsb' 31 9).toNat + 1 ≤ Entry.ext (tens 0 1 spad) 1 ∧
    Entry.ext (tens 0 1 spad) 0 = ((s.devGet (formerReg 0 4)).extractLsb' 32 32).toNat ∧
    (match loadRange tcm 16 16 s with | .ok (bs, _) => bs.length == 16 | .error _ => false) = true := by decide +kernel
theorem test_bfstep : after (.bfstep 4 6) { forming [] {} (0, 0) with cores := ((queued q40 (fun x => x.setReg 6 0)).cores), happenings := [] }
    (fun t => (t.former 0).queue == [fcmd .step] && t.happenings == [(1, .bfstepExecute 0)]) = true := by decide +kernel
theorem witness_FormerWork_step :
    let s := forming [(0, 0x0001000000200000), (5, 0x0000FFFFFFFFFFFF)] { queue := [fcmd .step] } (0, 0)
    (s.redCells = [] ∧ Memory.wf s.mem ∧ s.migrations = [] ∧ s.happenings = [] ∧ s.injected = [] ∧ s.tests = []) ∧ (s.former 0).queue = [fcmd .step] ∧ (s.former 0).merge = none ∧
    (s.former 0).slots = [] ∧ s.candidates 0 = [] ∧ (s.devGet (formerReg 0 0)).extractLsb' 48 4 = 1 ∧ s.devGet (formerReg 0 5) % 2 ^ 48 = 0xFFFFFFFFFFFF := by decide +kernel
/-- 18 R366: the first manifest is of step 1, in the second half of the area. -/
theorem test_step1 : after (.bfstepExecute 0) (forming [(0, 0x0001000000200000), (5, 0x0000FFFFFFFFFFFF)] { queue := [fcmd .step] } (0, 0))
    (fun t => t.devGet (formerReg 0 6) == 1 && (t.former 0).published && (t.former 0).queue.isEmpty) = true := by decide +kernel
theorem witness_FormerWork_fork :
    let s := forming [] { queue := [fcmd (.fork (9 * 2 ^ 24 + 5) 1 0x1000 0)] } (2, 0)
    (s.validRecord (9 * 2 ^ 24 + 5) 5 true).map (·.1) = some 5 ∧ Claim.bitsOfRecord (s.record 5) 672 32 = 0 ∧ Claim.bitsOfRecord (s.record 5) 448 64 = 0 ∧
    Claim.bitsOfRecord (s.record 0) 53 3 = 0 ∧ ((s.devGet (formerReg 0 2)).extractLsb' 32 32).toNat = 0 ∧
    (let t := forming [(2, 8 * 2 ^ 32)] { queue := [fcmd (.fork (9 * 2 ^ 24 + 5) 1 0x1000 0)] } (2, 0)
     0 < ((t.devGet (formerReg 0 2)).extractLsb' 32 32).toNat ∧ (t.former 0).holders.get 0 0 = 0 ∧ Claim.bitsOfRecord (t.record 5) 672 32 = 0) := by decide +kernel
theorem witness_FormerWork_merge :
    let w4 : Word := 1024 * 2 ^ 32
    let s := forming [(4, w4)] { queue := [fcmd (.smpl (tens 0 1024 spad) 1 0 0 0)], published := true } (2, 0)
    let sh := fun (k v n fault : Nat) => ({ cmd := fcmd .step, v0 := v, count := 512, shards := n, shard := k, spec := 0, code := 0
                                            slots := [{ slot := 3, blocks := [], best := [(BitVec.ofNat 32 (0x3F800000 + k), v + 7)], fault := BitVec.ofNat 8 fault }] } : Shard)
    let t := fun (l : List Shard) (d : Nat) => forming [(4, w4)] { slots := [(3, 5)], sample := [(3, 5)], published := true, merge := some { step := 0, shards := l, deadline := d } } (2, 0)
    ((s.former 0).published = true ∧ (s.former 0).merged = none ∧ (s.former 0).expired = none ∧ (s.former 0).merge = none ∧ (s.former 0).sample = [] ∧
      Entry.ext (tens 0 1024 spad) 0 = ((s.devGet (formerReg 0 4)).extractLsb' 32 32).toNat) ∧
    (((t [sh 0 0 2 0, sh 1 512 2 0] 5).former 0).queue = [] ∧ Claim.bitsOfRecord ((t [] 5).record 5) 53 3 = 2 ∧ Claim.bitsOfRecord ((t [] 5).record 5) 304 15 = 0 ∧
      Tbl.find? ((t [] 5).former 0).slots 3 = some 5 ∧ (0x3F800001 : BitVec 32).toNat < 0x7F800000 ∧ (0 + 7 ≠ 512 + 7) ∧ (sh 0 0 2 4).slots.map (·.fault) = [4]) ∧
    (t [sh 0 0 2 0] 5).now < 5 ∧ 0 ≤ (t [sh 0 0 2 0] 0).now ∧ (forming [] { queue := [fcmd (.smpl (tens 0 1 spad) 2 0 0 0)] } (2, 0)).now = 0 ∧
    ((forming [] { queue := [fcmd (.smpl (tens 0 1 spad) 2 0 0 0)] } (2, 0)).former 0).published = false := by decide +kernel
theorem witness_FormerWork_beam :
    let e := tens 0 1 0x0002000000000000
    let s := forming [(4, 2 ^ 32)] { queue := [fcmd (.beam e 77)], slots := [(3, 5)] } (2, 77 * 2 ^ 512)
    s.beamMembers 0 5 77 = [5] ∧ s.beamMembers 0 5 78 = [] ∧ Claim.bitsOfRecord (s.record 5) 448 64 = 0 ∧
    okOf (beamCands { core := 0, dom := 5, svc := true } e [Claim.bitsOfRecord (s.record 5) 736 32] 1 s) = some [(0, 0, 0)] ∧
    beamBest 1 [(0, 0, 0)] = [(0, 0, 0)] ∧ (codeNum 0).isInf = false := by decide +kernel
/-- Pool role 1 with core 2 and two items, pool role 2 with cores 3 and 4 and none: core 4 is to move. -/
def pools (g : Former) : State :=
  { forming [(5, 0x000100020001FFFF)] g (0, 0) with
    roles := [(1, { cores := [2] }), (2, { cores := [3, 4] })]
    cores := [(2, { role := some 1 }), (3, { role := some 2 }), (4, { role := some 2, index := 1 })]
    queues := [(41, { st := .active, role := 1, items := [⟨0, 2, it 0 0, none⟩, ⟨1, 2, it 0 0, none⟩] })] }
theorem witness_FormerWork_pools :
    (pools {}).poolChoice 0 = some (4, 2, 1) ∧ ((pools {}).former 0).moving = none ∧ ((pools { moving := some (4, 2, 1) }).former 0).moving = some (4, 2, 1) ∧
    (pools { moving := some (4, 2, 1) }).coreClear 4 2 = true ∧ (forming [] {} (0, 0)).poolChoice 0 = none ∧
    ({ pools {} with queues := [(42, { st := .active, role := 2, items := [⟨0, 4, it 0 0, none⟩] })] } : State).coreClear 4 2 = false := by decide +kernel

-- 17
theorem witness_ServiceControl :
    let s := two id (fun x => { x with role := some 0, rows := [(0, { pend := 3 })], held := [{ waiting7 (.parked .pager) 3 with frame := some 2 }] })
    (s.coreSvc s.cur = true ∧ s.me.outst = [] ∧ s.me.stbuf = [] ∧ s.me.contribs = [] ∧ s.trunks = [] ∧ (word1.extractLsb' 52 12 = 0xFFF ∧ word1.extractLsb' 48 4 = 0 ∧ word1.extractLsb' 6 29 = 0) ∧
      (word1.extractLsb' 47 1).toNat * 4096 + (word1.extractLsb' 43 4).toNat * 256 + (word1.extractLsb' 35 8).toNat = 1 ∧ (1 : Nat) ≠ s.cur) ∧
    tcm.extractLsb' 48 4 ≠ 0 ∧ tcm.toNat % 8 = 0 ∧
    (List.range 24).all (fun k => okOf (checkAddress (tcm + BitVec.ofNat 64 k) s) == some (.place (3 * 2 ^ 48 + k))) ∧
    (let row := Claim.rowGiven 0 0 3 3
     s.rowsOk 1 [] (s.coreRole 1).codeVa (s.coreRole 1).codeLen ([(0, { row with entry := 0xFFF0000000010000 })]) = true ∧
     s.rowsOk 1 [] (s.coreRole 1).codeVa (s.coreRole 1).codeLen ([(0, row)]) = false) ∧ (s.core 1).role ≠ none ∧ ((two id id).core 1).role = none ∧
    (s.core 1).held.map (fun h => (h.frame, h.st)) = [(some 2, .parked .pager)] ∧ s.me.handle 4 = .queue 40 ∧ s.me.handle 7 = .unmapped := by decide +kernel
theorem witness_ServiceControl_map :
    let s := two id id
    s.qidPkg 40 = s.pkg ∧ (40 : BitVec 32).extractLsb' 9 6 = 0 ∧ (s.queue 40).st ≠ .free ∧ (s.queue 41).st = .free ∧
    (two id (fun x => { x with role := some 1 })).coreDom 1 ≠ 5 ∧ (s.queue 40).openAll = false := by decide +kernel
theorem witness_ServiceControl_misses :
    let m : Miss := { die := 0, dom := 5, page := 2, req := request (.read 8 40 0) }
    (m.dom = (0x0000000500000000 : Word).extractLsb' 32 12 ∧ m.page = ((0xFFF0000000020000 : Word).extractLsb' 16 32).toNat) ∧
    (0x0000000500000000 : Word).extractLsb' 44 20 = 0 ∧ (0x0000000500000000 : Word).extractLsb' 8 24 = 0 := by decide +kernel
/-- 20 R425: the row is bound, and the posts that stand stay. -/
theorem test_svbind : after (.svbind 5 6 7) (two (·.setReg 7 tcm) (fun x => { x with role := some 0, rows := [(0, { pend := 3 })] }) |> fun s =>
      { s with mem := Memory.setBytes s.mem (3 * 2 ^ 48) (bytesOf (0xFFF0000000010000 : Word) 8) })
    (fun t => t.me.reg 5 == 0 && ((t.core 1).row 0).valid && ((t.core 1).row 0).pend == 3) = true := by decide +kernel
def halts (w : Word) : SvcEvent := { target := 1, word := word1, by_ := 0, queue := 40, addr := w }
theorem witness_Halts :
    let s := fun (g : Core → Core) => two (fun x => x) g
    ((s id).core 1).cond = .idle ∧ ((s (fun x => { x with cond := .running })).core 1).cond = .running ∧ ((s id).core 1).held = [] ∧
    ((s (fun x => { x with cond := .parked .pager })).core 1).cond = .parked .pager ∧ ((s id).coreRole 1).recast = none ∧ (halts spad).addr.toNat % 256 = 0 ∧
    (List.range 32).all (fun k => okOf (unitPlace { core := 0, dom := (s id).coreDom 0, svc := true } (spad + BitVec.ofNat 64 (16 * k)) .write (s id)) == some (2 * 2 ^ 48 + 16 * k)) ∧
    ((2 * 2 ^ 48) / 2 ^ 48 = 2) ∧ ((List.range 512).all fun k => quiet (s id) (2 * 2 ^ 48 + k) && !(s id).inFrameArea (2 * 2 ^ 48 + k) && (mirrorOf (2 * 2 ^ 48 + k)).isNone) ∧
    (s id).redCells = [] ∧ Memory.wf (s id).mem := by decide +kernel
theorem witness_Halts_recast :
    let r : Recast := { serial := 1, image := [], version := 2, call := 0, deadline := 9, inputs := [], outputs := [], forwarded := false, forced := false, killed := 0, installing := false, frames := [], queues := [], tensors := [] }
    let s := { two (fun x => x) (fun x => { x with role := some 7 }) with roles := [(7, { recast := some r })] }
    (s.coreRole 1).recast.isSome = true := by decide +kernel
-- 18
/-- What the package itself answers to a LOAD. Whether an image can be placed depends on the keys (log 20), so that one is placed has
no witness; one that nothing signed is refused. -/
theorem witness_LoadCalls :
    asked (called 0 5 0 id) 0 5 (fun _ _ => true) ∧ asked (called 0 1 (65 * 2 ^ 112) id) 0 1 (fun _ call => 64 < Claim.arg call 14 2) ∧
    asked (called 0 1 (2 ^ 112) id) 0 1 (fun t call => Claim.arg call 14 2 == 1 && trapOf (t.peersOf 5 1 0x0009000000000000) == some (cACCESS, 0x0009000000000000)) ∧
    asked (called 0 1 0 id) 0 1 (fun t call => Claim.arg call 14 2 == 0 && okOf (t.peersOf 5 0 0) == some [] && pageOf (t.readFor 5 0x20000 8) == some .badRoot &&
      (match t.readFor 5 0 0 with
      | .ok (bs, u) => bs.isEmpty && (match u.placeLoad [] 5 0 [u.pkg] none with
        | .error st => st == 1
        | .ok _ => false)
      | .error _ => false)) ∧
    signedClass [] = none ∧ ((two (fun x => x) id).accept 40 { tag := 0, data := (0 : BitVec 1024) } 0 true).toOption.isSome := by decide +kernel
/-- Load 7 of packages 0 and 1 comes from package `p`; `w` are still to answer here. -/
def ordered (p : BitVec 12) (w : List (BitVec 12)) : State :=
  let o : Pending := Claim.standing p 7 7 [40] 0 0 w
  { called 0 5 0 id with orders := [o], loads := [(7, { origin := p, serial := 7, packages := [0, 1], roles := [3] })], roles := [(3, { cores := [1] })] }
theorem witness_LoadCalls_peers :
    (ordered 0 [1, 2]).orders.map (fun o => (o.origin, o.serial, o.refused, o.waiting.filter (fun p => p ≠ 1))) = [(0, 7, false, [2])] ∧
    (ordered 0 [1]).orders.map (fun o => (o.origin, o.waiting.filter (fun p => p ≠ 1))) = [(0, [])] ∧ (ordered 0 [1]).pkg = 0 ∧
    ((ordered 0 [1]).loadFrom 0 7).map (·.1) = some 7 ∧ ((ordered 0 [1]).tryRemove 7).isSome ∧ ((ordered 1 []).loadFrom 1 7).map (·.1) = some 7 ∧
    ((ordered 1 []).tryRemove 7).isSome ∧ ((ordered 1 []).orders.all fun o => !(o.origin == 1 && o.serial == 8)) := by decide +kernel
/-- 20 R410: the word to remove takes the load away. -/
theorem test_finish : after (.load (.finish 1 7 false)) (ordered 1 []) (fun t => t.orders.isEmpty && t.loads.isEmpty && t.roles.isEmpty) = true := by decide +kernel
theorem witness_ServiceCalls_loader :
    asked (called 0 2 7 id) 0 2 (fun t call => Claim.arg call 0 2 == 7 && (Tbl.find? t.loads 7).isNone) ∧
    asked (called 0 2 7 (fun s => { s with loads := [(7, { roles := [3], packages := [0] })], roles := [(3, { cores := [1] })] })) 0 2 (fun t _ =>
      ((t.loads.get {} 7).roles == [3]) && (t.role 3).recast.isNone && (t.role 3).cores == [1] && (t.role 3).pages.isEmpty && (t.loads.get {} 7).packages == [t.pkg] &&
      (t.core 1).cond == .idle && (t.core 1).held.isEmpty && decide (t.settledDomain (t.loads.get {} 7).dom = some t)) ∧
    asked (called 0 4 0 id) 0 4 (fun t _ => (Tbl.find? t.roles 0).isSome && (Tbl.find? t.roles 9).isNone) ∧
    (40 : BitVec 32) ≠ 0 ∧ (40 : BitVec 32).extractLsb' 9 6 = 0 ∧ (two (fun x => x) id).qidPkg 40 = (two (fun x => x) id).pkg ∧
    ((two (fun x => x) id).acceptPush 40 (it 0 1) 0 true).toOption.isSome := by decide +kernel
/-- The rest. Whether MAP finds a range depends on the free choices of log 9, so both answers are left open here. -/
theorem witness_ServiceCalls_others :
    asked (called 1 1 65536 id) 1 1 (fun _ call => Claim.arg call 0 8 == 65536) ∧ asked (called 1 3 0 id) 1 3 (fun _ _ => true) ∧
    asked (called 1 2 (0x30000 + 2 ^ 64) (fun s => { s with mapped := [(5, (3, 1))] })) 1 2 (fun t call => Claim.arg call 8 8 == 1 &&
      (match t.settledDomain 5 with
      | some w => (w.dropRange 5 3 1).isSome && (w.dropRange 5 4 1).isNone
      | none => false)) ∧
    asked (called 1 2 (0x30000 + 2 ^ 64) (unsettled 5)) 1 2 (fun t _ => (t.settledDomain 5).isNone) ∧
    asked (called 3 1 (5 + 10 * 2 ^ 16) id) 3 1 (fun t call => Claim.arg call 2 4 == 10 && t.peerWords.isEmpty) ∧
    asked (called 3 1 (5 + 1001 * 2 ^ 16) id) 3 1 (fun _ call => 1000 < Claim.arg call 2 4) ∧
    ({ two id id with peerWords := [.lifetime 5 20] } : State).peerWords = [.lifetime 5 20] ∧
    asked (called 5 1 0 id) 5 1 (fun _ _ => true) ∧ asked (called 5 2 0 id) 5 2 (fun _ _ => true) := by decide +kernel
/-- 15 R328's lifetimes: 10 µs is the least. -/
theorem test_lifetime : after .lifetime (called 3 1 (5 + 10 * 2 ^ 16) id) (fun t => t.devGet (lifeReg 5) == 10) ∧
    after .append (called 5 1 0 id) (fun t => t.fumaroleSeq == 1 && t.fumarole.length == 1) := by decide +kernel

-- 18, epochs and recasts
/-- A call of the checkpoint service on load 7, of role 3 on core 1, with a store that takes. -/
def saving (fn arg : Nat) (x : Saved) (f : State → State) : State :=
  called 4 fn (7 + arg) (fun s => f (({ s with loads := [(7, { dom := 5, roles := [3], packages := [0] })], roles := [(3, { cores := [1] })], store := [(7, x)] } : State).devPut (storeReg 2) 1))
def epoch (n : Nat) : Epoch := { number := n, pages := [], ranges := [], kv := [], records := [], formers := [], ckpt := [], accepted := [] }
/-- R454: with the bit of the store's control there is a store, whatever the package has. -/
theorem store_on (s : State) (h : (s.devGet (storeReg 2)).getLsbD 0 = true) : s.storeOn = true := by simp only [State.storeOn, h, Bool.or_true]
theorem savable_on (s : State) (n : Nat) (h : (s.devGet (storeReg 2)).getLsbD 0 = true) : s.savable n = Tbl.find? s.loads n := by
  rw [State.savable, store_on s h, if_pos rfl]
def recasts (r : Recast) : State → State := fun s => s.setRole 3 { cores := [1], recast := some r }
def casting : Recast :=
  { serial := 1, image := [], version := 2, call := 0, deadline := 9, inputs := [40], outputs := [], forwarded := false, forced := false, killed := 0,
    installing := false, frames := [], queues := [], tensors := [] }
/-- Whether the package has a store of its own depends on the product: without the bit of the store's control it has one, or
none, and nothing is asked for. -/
theorem witness_EpochCalls_store (s : State) (h : (s.devGet (storeReg 2)).getLsbD 0 = false) : Config.hostStore = false ∨ s.storeOn = false := by
  cases e : Config.hostStore with
  | false => exact .inl rfl
  | true => exact .inr (by rw [State.storeOn, e, h]; rfl)
/-- That there is a store, with the bit, is `store_on`. -/
theorem witness_EpochCalls :
    asked (saving 1 0 {} id) 4 1 (fun t call => Claim.arg call 0 2 == 7 && (t.devGet (storeReg 2)).getLsbD 0 &&
      (match Tbl.find? t.loads 7 with | some l => t.canTake l && l.roles.all (fun r => (t.role r).recast.isNone) && (t.tryEpoch 7 l).isSome | none => false) && t.peerWords.isEmpty) ∧
    asked (saving 1 0 {} (unsettled 5)) 4 1 (fun t _ => match Tbl.find? t.loads 7 with | some l => (t.tryEpoch 7 l).isNone | none => false) ∧
    asked (saving 5 0 {} id) 4 5 (fun _ _ => true) ∧
    asked (saving 1 1 {} id) 4 1 (fun t call => Claim.arg call 0 2 == 8 && (Tbl.find? t.loads 8).isNone) ∧
    asked (saving 1 0 {} (recasts casting)) 4 1 (fun t _ => (t.devGet (storeReg 2)).getLsbD 0 && ((Tbl.find? t.loads 7).getD {}).roles.any (fun r => (t.role r).recast.isSome)) ∧
    asked (saving 1 0 {} (fun s => (s.devPut (formerReg 1 7) (2 ^ 63 + 5)).setFormer 1 { merge := some { step := 0, shards := [], deadline := 9 } })) 4 1 (fun t _ =>
      (t.devGet (storeReg 2)).getLsbD 0 && (match Tbl.find? t.loads 7 with | some l => !t.canTake l && l.roles.all (fun r => (t.role r).recast.isNone) | none => false)) ∧
    asked (saving 2 0 {} id) 4 2 (fun t _ => (t.devGet (storeReg 2)).getLsbD 0 && (Tbl.find? t.store 7).isSome) ∧
    asked (saving 2 1 {} id) 4 2 (fun t _ => (t.devGet (storeReg 2)).getLsbD 0 && (Tbl.find? t.store 8).isNone) ∧
    asked (saving 3 (2 * 2 ^ 64) { epochs := [epoch 1] } id) 4 3 (fun t call =>
      (t.devGet (storeReg 2)).getLsbD 0 && Claim.arg call 8 8 == 2 && (t.store.get {} 7).epochs.all (fun e => e.number != 2)) := by decide +kernel
theorem witness_EpochCalls_period :
    [100, 60000].all (fun ms => asked (saving 4 (ms * 2 ^ 16) {} id) 4 4 (fun t call => Claim.arg call 2 4 == ms && (t.devGet (storeReg 2)).getLsbD 0 && (Tbl.find? t.loads 7).isSome)) ∧
    [99, 60001].all (fun ms => asked (saving 4 (ms * 2 ^ 16) {} id) 4 4 (fun t call => Claim.arg call 2 4 == ms && (ms < 100 || 60000 < ms) && (t.devGet (storeReg 2)).getLsbD 0)) ∧
    (saving 1 0 {} id).devGet (storeReg 2) = 1 ∧ (Tbl.find? (saving 1 0 {} id).loads 7).map (saving 1 0 {} id).canTake = some true ∧
    Tbl.find? (saving 1 0 {} id).loads 8 = none := by decide +kernel
/-- RESUME of an epoch whose image nothing signed ends with a status; that one is resumed whole depends on the keys (log 20). -/
def resumed : State := saving 3 (2 ^ 64) { epochs := [epoch 1], origin := 2, serial := 3 } id
theorem witness_EpochCalls_resume : (match resumed.resumeLoad 7 1 with | .error st => st != 0 | .ok _ => false) = true := by
  unfold State.resumeLoad State.epochsOf
  generalize Config.hostStore = b
  cases b <;> decide +kernel
theorem witness_EpochCalls_request : resumed.fetchRequest.resumeReq = [] ∧ resumed.fetchRequest.queues = resumed.queues ∧ resumed.peerWords = [] ∧
    resumed.fetchRequest.storeOn = true := by
  refine ⟨?_, ?_, by decide +kernel, ?_⟩
  · unfold State.fetchRequest State.storeOn
    generalize Config.hostStore = b
    cases b <;> decide +kernel
  · unfold State.fetchRequest State.storeOn
    generalize Config.hostStore = b
    cases b <;> decide +kernel
  · unfold State.fetchRequest State.storeOn
    generalize Config.hostStore = b
    cases b <;> decide +kernel
/-- What another package says of the load that came from package 2 with serial 3. -/
def heardOf (m : SvcMsg) (f : State → State) : State :=
  f { saving 1 0 { epochs := [epoch 1], origin := 2, serial := 3 } id with
      peerWords := [m], loads := [(7, { dom := 5, roles := [3], packages := [0, 2], origin := 2, serial := 3 })] }
theorem witness_EpochCalls_peers :
    let t := fun (f : State → State) => ({ heardOf (.take 2 3) f with peerWords := [] } : State)
    (heardOf (.take 2 3) id).peerWords = [.take 2 3] ∧ (heardOf (.resume 2 3 1) id).peerWords = [.resume 2 3 1] ∧
    ((t id).loadFrom 2 3).map (·.1) = some 7 ∧ (t id).loadFrom 2 4 = none ∧ ((t id).devGet (storeReg 2)).getLsbD 0 = true ∧
    ((t id).tryEpoch 7 { dom := 5, roles := [3], packages := [0, 2], origin := 2, serial := 3 }).isSome ∧
    ((t (unsettled 5)).tryEpoch 7 { dom := 5, roles := [3], packages := [0, 2], origin := 2, serial := 3 }).isNone ∧
    (List.find? (fun (x : Nat × Saved) => x.2.origin == 2 && x.2.serial == 3) (t id).store).map (·.1) = some 7 ∧
    List.find? (fun (x : Nat × Saved) => x.2.origin == 2 && x.2.serial == 4) (t id).store = none := by decide +kernel
/-- 22 R453: an epoch takes the number after the last. -/
theorem test_epoch_number : ((((saving 1 0 { epochs := [epoch 4] } id).takeEpoch 7 { dom := 5, roles := [3], packages := [0] }).2.store.get {} 7).epochs.map (·.number)) = [4, 5] := by
  unfold State.takeEpoch State.keepEpoch
  generalize Config.hostStore = b
  cases b <;> decide +kernel
def recasting (arg : Nat) (f : State → State) : State := called 0 3 (3 + arg) (fun s => f { s with roles := [(3, { cores := [1] })] })
/-- That a signed image passes every check depends on the keys (log 20). -/
theorem witness_Recasts_calls :
    asked (recasting 1 id) 0 3 (fun t call => Claim.arg call 0 2 == 4 && (Tbl.find? t.roles 4).isNone) ∧
    asked (recasting 0 (recasts casting)) 0 3 (fun t call => Claim.arg call 0 2 == 3 && (t.role 3).recast.isSome && (Tbl.find? t.roles 3).isSome) ∧
    asked (recasting (0x20000 * 2 ^ 64 + 8 * 2 ^ 128) id) 0 3 (fun t call => Claim.arg call 16 4 == 8 && Claim.arg call 20 4 == 0 && (t.role 3).recast.isNone &&
      pageOf (t.readFor 5 0x20000 8) == some .badRoot) ∧
    asked (recasting 0 id) 0 3 (fun t call => Claim.arg call 16 4 == 0 && (t.role 3).recast.isNone && (t.readFor 5 0 0).toOption.isSome) ∧
    signedClass [] = none := by decide +kernel
/-- Role 3 recasting, its core 1 as `g` makes it, and input queue 40 as it is given. -/
def inCast (r : Recast) (x : Queue) (g : Core → Core) : State := { (two (fun x => x) (fun x => { g x with role := some 3 })).setQueue 40 x with roles := [(3, { cores := [1], recast := some r })] }
def cast40 (n : Nat) : Queue := { q40 with consumers := [1], items := [⟨1, 1, { tag := 8, data := BitVec.ofNat 1024 n }, none⟩] }
theorem witness_Recasts_inputs :
    (let s := inCast casting { q40 with consumers := [1] } id
     (s.role 3).recast = some casting ∧ s.qidPkg 40 = s.pkg ∧ (s.accept 40 { tag := 8, data := BitVec.ofNat 1024 (3 * 2 ^ 48 + 2 * 2 ^ 32 + 1) } 0 true).toOption.isSome ∧
     s.quiet 3 1 false = false ∧ (s.core 1).held = [] ∧ s.now < 9 ∧ (s.core 1).cond = .idle) ∧
    (let s := inCast casting { q40 with consumers := [1], cap := 1, elastic := false, items := [⟨1, 0, it 1 5, none⟩] } id
     trapOf (match s.accept 40 { tag := 8, data := BitVec.ofNat 1024 (3 * 2 ^ 48 + 2 * 2 ^ 32 + 1) } 0 true with
       | .ok t => (.ok ((), t) : Except Stop (Unit × State)) | .error c => .error (.trap c 0)) = some (cQFULL, 0)) ∧
    (let r := { casting with inputs := [] }
     let q := cast40 (3 * 2 ^ 48 + 2 * 2 ^ 32 + 1)
     (q.items.filter (fun i => i.core = 1 ∧ i.owner = none)).map (fun i => (i.item.tag, (i.item.data.extractLsb' 0 64).toNat)) = [(8, 3 * 2 ^ 48 + 2 * 2 ^ 32 + 1)] ∧
     ((inCast r q id).core 1).role = some 3 ∧ 40 ∉ ((inCast r q id).core 1).closed ∧ r.inputs = []) ∧
    (cast40 7).items.map (fun i => (i.item.data.extractLsb' 0 64).toNat) = [7] := by decide +kernel
theorem witness_Recasts_quiet :
    (let s := { inCast { casting with inputs := [], deadline := 0, installing := true } q40 id with queues := [], happenings := [] }
     s.holdsNothing 1 = true ∧ s.inputsOf 3 = [] ∧ (s.core 1).contribs = [] ∧ (s.core 1).outst = [] ∧ (s.core 1).stbuf = [] ∧ (s.core 1).handles = [] ∧
     (s.role 3).cores = [1] ∧ (0 : Nat) ≤ s.now ∧ (s.core 1).held = []) ∧
    ((inCast { casting with forwarded := true, deadline := 0 } q40 (fun x => { x with cond := .running })).core 1).cond = .running ∧
    (inCast casting q40 (fun x => { x with cond := .running })).holdsNothing 1 = false ∧ casting.installing = false := by decide +kernel
/-- An image of one role, with one word of code at 0x10000 (20 R398–R400). -/
def image1 : List Word := [0x5354564E00010001, 8 * 2 ^ 32, 0x0100000000000005, 0x01000000, 2 ^ 32 + 3, 0x10000, 2 ^ 63, 0]
theorem witness_Recasts_settled : let s := inCast { casting with installing := true, image := image1 } q40 id
    s.settledDomain (s.role 3).dom = some s ∧ (unsettled 0 s).settledDomain ((unsettled 0 s).role 3).dom = none := by decide +kernel
theorem witness_Recasts_install : (readImage image1).map (fun i => i.roles.map (fun r => (r.codeVa, r.banks, r.code.length))) = some [(0x10000, 3, 2)] ∧
    (inCast { casting with installing := true, image := image1 } q40 id).role 3 = { cores := [1], recast := some { casting with installing := true, image := image1 } } := by decide +kernel
/-- 20 R416: the new version stands, and its code is at its address. -/
theorem test_install : after (.recastInstall 3) (inCast { casting with installing := true, image := image1 } q40 id) (fun t =>
    (t.role 3).version == 2 && (t.role 3).recast.isNone && (t.role 3).codeVa == 0x10000 && (t.role 3).banks == 3) = true := by decide +kernel

-- 19, host port and storage errors
/-- A host page 0 of domain 5, enabled or not, and a submission's bytes with more bits. -/
def hosted (f : State → State) : State := f ((called 0 1 0 id).devPut (pageReg 0 0) (2 ^ 63 + 5))
def sub (n : Nat) : List Byte := (List.range 128).map (fun i => BitVec.ofNat 8 (n / 2 ^ (8 * i)))
/-- Is a submission of these bytes to page 0 admitted, and taken by its service's queue? -/
def admits (s : State) (n : Nat) : Bool × Bool :=
  let w := s.devGet (pageReg 0 0)
  let r : BitVec 1024 := BitVec.ofNat 1024 (natOfBytes (sub n))
  let svc := (r.extractLsb' 96 16).toNat
  let out := s.accepted.get 0 0 - s.completed.get 0 0
  (w.getLsbD 63 && out < 32 && svc ≤ 5 && svc != 2 && r.extractLsb' 112 16 == 0 && r.extractLsb' 80 16 == 0,
   (s.accept (500 + svc) { tag := 0, data := r.extractLsb' 128 896 ++ BitVec.ofNat 32 0x7E00 ++ 0#4 ++ w.extractLsb' 0 12 ++ r.extractLsb' 0 80 }
     (w.extractLsb' 0 12) true).toOption.isSome)
theorem witness_HostPort : admits (hosted id) 7 = (true, true) ∧ admits (hosted id) (1 * 2 ^ 96) = (true, false) ∧
    admits (hosted (fun s => { s with accepted := [(0, 31)] })) 0 = (true, true) ∧ (admits (hosted (fun s => { s with accepted := [(0, 32)] })) 0).1 = false ∧
    (admits (hosted id) (5 * 2 ^ 96)).1 ∧ (admits (hosted id) (6 * 2 ^ 96)).1 = false ∧ (admits (hosted id) (2 * 2 ^ 96)).1 = false ∧
    (admits (hosted id) (2 ^ 80)).1 = false ∧ (admits (hosted id) (2 ^ 127)).1 = false ∧ (sub 7).length = 128 := by decide +kernel
theorem witness_HostPort_windows : (0 % 128 = 0 ∧ 0xF00 % 128 = 0 ∧ 0xF00 ≤ 0xF7F ∧ ¬ 0xF80 ≤ 0xF7F ∧ ¬ 1 % 128 = 0 ∧ (sub 7).drop 1 ≠ []) ∧ (1023 < 1024 ∧ ¬ 1024 < 1024) ∧
    ((hosted id).devGet (pageReg 0 0)).getLsbD 63 = true ∧ ((hosted id).devGet (pageReg 1 0)).getLsbD 63 = false := by decide +kernel
/-- 20 R422: OUTST counts the accepted submission. -/
theorem test_outst : after (.hostSubmission 0 0 (sub 7)) (hosted id) (fun t => (t.devGet (pageReg 0 0)).extractLsb' 40 8 == 1) = true := by decide +kernel
def err (kind : BitVec 3) (n : Nat) (site : EccSite) : EccErr :=
  { kind := kind, n := n, fatal := true, addr := tcm, synd := 3, domain := 5, inj := true, site := site }
theorem witness_StorageErrors :
    ((two (fun x => x) id).core 0).cond = .running ∧ (16383 < arrayCount 0 ∧ ¬ 16384 < arrayCount 0 ∧ 15 < arrayCount 7) ∧
    (err 1 31 (.item 499 0 false)).site = .item 499 0 false ∧
    (let b : Bank := { valid := true }
     Tbl.find? ((start true id).setEns 2 { banks := [(3, b)] }).ensembles 2 = some { banks := [(3, b)] } ∧
     Tbl.find? (((start true id).setEns 2 { banks := [(3, b)] }).ens 2).banks 3 = some b) ∧
    (((two (fun x => x) (fun x => { x with held := [{ waiting7 .ready 3 with frame := some 2 }] })).core 1).held.map (·.frame) = [some 2]) ∧
    (let h : HoldE := { id := 4, req := request (.read 8 40 0), cue := 0, at_ := 0 }
     ({ start true id with hold := [h] } : State).hold = [h]) ∧
    ((start true id).setCue 4095 { st := .pending }).cue 4095 = { st := .pending } := by decide +kernel
def tested (t : Test) (f : State → State) : State := f { two (fun x => x) id with tests := [t], happenings := [] }
def test1 : Test := { id := 6, kind := 1, n := 3, core := none, frame := none, lost := [], again := false, row := 5, count := 3, ended := false }
theorem witness_StorageErrors_tests :
    (let x := { err 1 3 .scrub with inj := false }
     x.fatal = true ∧ x.site = .scrub ∧ x.kind ≠ 0 ∧ (tested test1 id).tests.any (fun t => t.kind == x.kind && t.n == x.n) ∧ (two (fun x => x) id).tests = []) ∧
    (tested { test1 with id := 5 } id).tests.all (fun t => t.id ≠ 6) ∧ (tested test1 id).tests = [test1] ∧ test1.ended = false ∧
    (let s := tested test1 (fun s => (s.devPut (logReg 1 3 0 + 1) 0x0003005000000004).devPut (logReg 1 3 1 + 1) 0x0003005000000003)
     ((s.devGet (logReg 1 3 0 + 1)).extractLsb' 0 32).toNat ≠ test1.count ∧ ((s.devGet (logReg 1 3 1 + 1)).extractLsb' 0 32).toNat = test1.count ∧
       test1.count ≠ 0) := by decide +kernel
/-- The row and the bank of an error are open (log 71), so a test of that row, and its bank's spares, are named by them. -/
theorem witness_StorageErrors_rows (u : State) (x : EccErr) :
    (let t : Test := { test1 with kind := x.kind, n := x.n, row := u.errorRow x.kind.toNat x.n x.addr x.domain }
     t.core = none ∧ t.kind = x.kind ∧ t.n = x.n ∧ t.row = u.errorRow x.kind.toNat x.n x.addr x.domain) ∧
    (let spare := (test1.kind.toNat * 2 ^ 24 + test1.n) * 2 ^ 40 + Config.bankOf test1.kind.toNat test1.n test1.row
     ∀ n, ({ u with spares := [(spare, n)] } : State).spares.get 0 spare = n) :=
  ⟨⟨rfl, rfl, rfl, rfl⟩, fun n => by simp [Tbl.get, Tbl.find?]⟩
def loggedOnce : State := ((two (fun x => x) id).devPut (logReg 1 3 1 + 3) tcm).devPut (logReg 1 3 1 + 1) 0x0003005000000001
theorem witness_StorageErrors_again :
    Claim.Again loggedOnce { err 1 3 .scrub with fatal := false } ∧ ¬ Claim.Again (two (fun x => x) id) { err 1 3 .scrub with fatal := false } := by
  refine ⟨⟨1, Nat.le_refl 1, by decide, by decide +kernel, by decide +kernel, by decide +kernel,
    congr (congrArg (State.errorRow loggedOnce 1 3) (by decide +kernel)) (by decide +kernel)⟩, ?_⟩
  rintro ⟨i, h, k, g, -⟩
  have : i = 1 ∨ i = 2 ∨ i = 3 := by omega
  rcases this with rfl | rfl | rfl <;> exact g (by decide +kernel)
theorem witness_StorageErrors_retire :
    (let s := { two (fun x => x) id with understudies := [(0, 7), (1, 8)] }
     s.understudies.get 0 0 = 7 ∧ s.understudies.get 0 1 = 8 ∧ (s.core 1).cond = .idle ∧ (s.core 0).cond = .running ∧ (s.core 0).held = [] ∧
     (s.core 256).role = none ∧ (s.core 256).held = [] ∧ 256 / 256 = 1 ∧ s.tests = [] ∧ s.injected = [] ∧ s.dev = []) ∧
    (let t : Test := { test1 with kind := 0, n := 1, core := some 1, frame := some 14, ended := true }
     let s := { two (fun x => x) (fun x => { x with held := [{ waiting7 .stopped 3 with frame := some 14 }] }) with tests := [t] }
     s.tests = [t] ∧ s.understudies.get 0 0 < 8 ∧ (s.core 1).cond = .idle ∧ (s.core 1).held.map (fun h => (h.frame, h.st)) = [(some 14, .stopped)] ∧
     s.injected = [] ∧ s.dev = []) ∧
    (3 < 4 ∧ ¬ 4 < 4) ∧ (arrayCount 5 = 1 ∧ arrayCount 6 = 2) := by decide +kernel
/-- 22 R456, Table 22.12: an injected error and a real one at one word make one entry with INJ = 1, and no test. -/
theorem test_injectedWord :
    let x := { err 5 0 .scrub with fatal := false, inj := false, addr := 77 }
    let e : Bad := { kind := 5, n := 0, word := 77, fatal := false, inj := true }
    (State.injectedWith { two (fun x => x) id with injected := [e] } x e = true) ∧
    after (.eccError x) { two (fun x => x) id with injected := [e] } (fun t =>
      t.devGet (logReg 5 0 0) == 2 ^ 61 && t.injected.isEmpty && t.tests.isEmpty) = true := by decide +kernel
/-- 22 R443: an error is logged with its array's count, and the earlier entry is one place down. -/
theorem test_logged : after (.eccError { err 1 3 .scrub with fatal := false }) ((two (fun x => x) id).devPut (logReg 1 3 0) 7) (fun t =>
    t.devGet (logReg 1 3 0) == 2 ^ 61 && t.devGet (logReg 1 3 0 + 1) == 0x0003005000000001 && t.devGet (logReg 1 3 0 + 3) == tcm &&
    t.devGet (logReg 1 3 1) == 7) = true := by decide +kernel

-- 19, upkeep and start-up
theorem witness_Upkeep_retention :
    (([1, 2, 4] : List Nat).all (fun k => 0 < arrayCount k && ((two (fun x => x) id).devGet (retReg k (arrayCount k - 1))).getLsbD 0 == false)) ∧
    (((two (fun x => x) id).devPut (retReg 2 255) 1).devGet (retReg 2 255)).getLsbD 0 = true ∧ (two (fun x => x) id).transitions = [] ∧
    (let s := { two (fun x => x) id with transitions := [(4, 1023, false)], happenings := [(8192, .retentionTransitionEnd 4 1023)] }
     s.transitions = [(4, 1023, false)] ∧ 1023 < arrayCount 4 ∧ s.happenings.any (fun h => h.2 == .retentionTransitionEnd 4 1023)) := by decide +kernel
/-- Monitor 5 of cluster 0 is enabled, of source k and argument a. -/
def monitored (k a : Nat) : State := (two (fun x => x) id).devPut (monReg 5 0) (BitVec.ofNat 64 (2 ^ 63 + k * 2 ^ 48 + a))
theorem witness_Upkeep_monitors : (2047 < 2048 ∧ ¬ 2048 ≤ 2047) ∧ (0x4000000000000000 : Word).getLsbD 62 = true ∧ (0x8009000000000000 : Word).getLsbD 62 = false ∧
    ((two (fun x => x) id).devGet (monReg 2047 0)).getLsbD 62 = false ∧
    ([(2, 40), (8, 3), (9, 63)] : List (Nat × Nat)).all (fun k => let s := monitored k.1 k.2
      (s.devGet (monReg 5 0)).getLsbD 63 && ((s.devGet (monReg 5 0)).extractLsb' 48 8).toNat == k.1 && ((s.devGet (monReg 5 0)).extractLsb' 0 48).toNat == k.2 &&
      s.monitors k.1 k.2 (if k.1 = 2 then some 0 else none) == [5] && s.happenings.isEmpty) ∧
    ([(1, 0), (9, 64)] : List (Nat × Nat)).all (fun k => let s := monitored k.1 k.2
      (s.devGet (monReg 5 0)).getLsbD 63 && ((s.devGet (monReg 5 0)).extractLsb' 48 8).toNat == k.1 && ((s.devGet (monReg 5 0)).extractLsb' 0 48).toNat == k.2) ∧
    (Claim.InBin 0 0 ∧ Claim.InBin 1 0 ∧ Claim.InBin 2 1 ∧ Claim.InBin 3 1 ∧ Claim.InBin 4 2 ∧ Claim.InBin 32767 14 ∧ Claim.InBin 32768 15 ∧ ¬ Claim.InBin 32768 14) := by
  refine ⟨by decide, by decide, by decide, by decide +kernel, by decide +kernel, by decide +kernel, ?_⟩
  simp [Claim.InBin]
theorem witness_Upkeep_power :
    (let s := { two (fun x => x) id with powerLimit := 600, powerClear := 99, throttle := 3 }
     s.powerLimit < 601 ∧ ¬ s.powerLimit < 600 ∧ s.powerClear + 1 = 100) ∧ ((421 : Nat) > 420 ∧ ¬ (420 : Nat) < 420) ∧ (([459] : List Nat).all (· < 460)) ∧
    (let s := { start true id with cores := [(0, { cond := .running, role := some 0 })] }
     s.cores = [(0, { cond := .running, role := some 0 })] ∧ (460 : Nat) ≤ 460) := by decide +kernel
def push1 : Push := { qid := 40, item := it 1 5, domain := 5, checked := true, srcPkg := 0, core := 0, serial := 3, curtain := false, notice := false }
/-- That a pending resume request is resumed whole depends on the keys (log 20), and has no witness. -/
theorem witness_Upkeep_failure :
    (let s := { two (fun x => x) (fun x => x) with egress := [{ dst := 6, msg := .push push1, waiting := false, transit := false }] }
     (6 : BitVec 12) ≠ s.pkg ∧ push1.srcPkg = s.pkg ∧ (s.core 0).outst = [] ∧ s.orders = [] ∧ s.trunks = [] ∧ push1.core < 8192) ∧
    (let s : State := { two (fun x => x) id with orders := [Claim.standing 0 7 7 [40] 0 0 [6]] }
     s.egress = [] ∧ s.orders = [Claim.standing 0 7 7 [40] 0 0 [6]] ∧ (Claim.standing 0 7 7 [40] 0 0 [6]).origin = s.pkg ∧ s.store = [] ∧ s.resumeReq = []) ∧
    ((two (busy 4) id).core push1.core).outst.any (fun y => y.serial = push1.serial) ∧ (two (fun x => x) id).egress = [] ∧ (two (fun x => x) id).store = [] ∧
    (let e : Epoch := { number := 1, pages := [], ranges := [], kv := [], records := [], formers := [], ckpt := [], accepted := [] }
     let s : State := ({ two (fun x => x) id with store := [(7, { packages := [0, 6], epochs := [e] })] } : State).devPut (storeReg 2) 1
     s.store = [(7, { packages := [0, 6], epochs := [e] })] ∧ (6 : BitVec 12) ∈ ([0, 6] : List (BitVec 12)) ∧ s.egress = [] ∧ s.orders = [] ∧
     s.happenings = [] ∧ s.resumeReq = [] ∧ s.peerWords = [] ∧ (s.devGet (storeReg 2)).getLsbD 0 = true) := by decide +kernel
/-- 22 R449: 5 is of bin 2. -/
theorem test_sample : after (.monitorSample 5 5) (monitored 9 0) (fun t =>
    t.devGet (monReg 5 1) == 1 && t.devGet (monReg 5 2) == 0x0000000500000005 && Claim.binAt t 5 2 == 1 && Claim.binAt t 5 3 == 0) = true := by decide +kernel
/-- That an image's signature verifies depends on the keys (log 20). -/
theorem witness_StartUp : State.reset.boot = .rom ∧ State.reset.resumeReq = [] ∧ State.reset.redCells = [] ∧ State.reset.flashA = [] ∧ State.reset.flashB = [] ∧
    signedClass [] = none ∧ ({ State.reset with boot := .waitHost } : State).boot = .waitHost ∧ (two (fun x => x) id).egress = [] := by decide +kernel
theorem witness_StartUp_registers :
    (devRegOf (rootReg 4095) = .root 4095 ∧ devRegOf (lifeReg 0) = .life 0 ∧ devRegOf (0x1C7FF8 / 8) = .cueFault 4095 ∧ devRegOf (0x1E0000 / 8) = .stopBase 0 ∧
      devRegOf (storeReg 2) = .store 2) ∧
    (devRegOf (pageReg 1023 3) = .page 1023 3 ∧ devRegOf (injReg 7 15) = .inject 7 15 ∧ devRegOf (formerReg 3 6) = .former 3 6 ∧
      devRegOf (formerReg 3 7) = .former 3 7 ∧ devRegOf (monReg 2047 10) = .monitor 2047 10 ∧ devRegOf (monReg 0 0) = .monitor 0 0) ∧
    (devRegOf (retReg 4 1023) = .retain 4 1023 ∧ devRegOf (logReg 7 15 3) = .log 7 15 3 0 ∧ devRegOf (logReg 0 16383 0 + 1) = .log 0 16383 0 1 ∧
      devRegOf (0x500000 / 8) = .key 0 0 ∧ devRegOf 0 = .unassigned) := by decide +kernel
theorem witness_StartUp_trunks :
    (([(4, 60), (2, 62), (1, 63)] : List (Nat × Nat)).all (fun x => (x.1 == 1 || x.1 == 2 || x.1 == 4) && x.2 % x.1 == 0 && x.2 + x.1 ≤ 64)) ∧
    (([(4, 62), (3, 0), (0, 0), (2, 1)] : List (Nat × Nat)).all (fun x => !((x.1 == 1 || x.1 == 2 || x.1 == 4) && x.2 % x.1 == 0 && x.2 + x.1 ≤ 64))) := by decide +kernel
/-- 22 R450: at most 4600 W; 14: a trunk of four ports has 16 lane groups in use. -/
theorem test_register_writes : after (.registerWrite .powerLimit 5000) State.reset (fun t => t.powerLimit == 4600) = true ∧
    after (.registerWrite (.trunk 4) 4) State.reset (fun t => (t.trunk 4).inuse == 0xFFFF && (t.trunk 4).ports == 4) = true := by decide +kernel

end Sys2Proof.Tests
end

/-!
The words of the spec's examples (02 to 20): an instruction's words are computed from the tables of its encoding, and
that they decode to it then follows from the round trip of that instruction.
-/
namespace Sys2Proof
open Laws

/-- An instruction's words decode to it, with nothing left over. -/
theorem decode_of_encode {i : Instr} {w : IWord} {ws : List IWord} (trip : RoundTrip.Statement i)
    (h : i.wf = true ∧ encode i = w :: ws) :
    decode ((w :: ws).flatMap wordBytes) = .ok i (4 * (w :: ws).length) [] ∧ encode i = w :: ws := by
  obtain ⟨hwf, henc⟩ := h
  have hdec := trip hwf (by simp [henc]) []
  rw [encodeBytes, henc, List.append_nil] at hdec
  exact ⟨hdec, henc⟩

/-- Settles O1: each row's words are computed to be its instruction's encoding, and decode by that instruction's round
trip. -/
theorem decodeKnownWords : Obligations.DecodeKnownWords := by
  unfold Obligations.DecodeKnownWords
  simp only [List.forall_mem_cons]
  exact ⟨
    decode_of_encode (RoundTrip.add _ _ _ _) (by decide),
    decode_of_encode (RoundTrip.div _ _ _ _) (by decide),
    decode_of_encode (RoundTrip.selnz _ _ _ _) (by decide),
    decode_of_encode (RoundTrip.bfxs _ _ _ _) (by decide),
    decode_of_encode (RoundTrip.bne _ _ _) (by decide),
    decode_of_encode (RoundTrip.csrr _ _ _) (by decide),
    decode_of_encode (RoundTrip.qpop _ _ _) (by decide),
    decode_of_encode (RoundTrip.ldD _ _ _) (by decide),
    decode_of_encode (RoundTrip.amoCas _ _ _ _ _ _) (by decide),
    decode_of_encode (RoundTrip.vdot _ _ _ _ _ _ _) (by decide),
    decode_of_encode (RoundTrip.mloadb _ _ _ _) (by decide),
    decode_of_encode (RoundTrip.xcopy _ _ _ _) (by decide),
    decode_of_encode (RoundTrip.amoq _ _ _ _ _) (by decide),
    decode_of_encode (RoundTrip.rqfork _ _ _) (by decide),
    decode_of_encode (RoundTrip.svresume _ _ _) (by decide),
    decode_of_encode (RoundTrip.ixLongForm _ _ _ _) (by decide),
    decode_of_encode (RoundTrip.vxLongForm _ _ _) (by decide),
    decode_of_encode (RoundTrip.stxCue _ _ _ _ _) (by decide),
    List.forall_mem_nil _⟩

end Sys2Proof

/-!
Table 5.1 (05 R105): each function that the model computes on words of n bits is the table's arithmetic on R105's views
of its sources, taken back to n bits. Where the table speaks of a width, the lemma is for every width.
-/
namespace Sys2Proof.Scalar
open Sys2Proof.Machine Sys2Proof.Claim

/-! ## R105's views -/

/-- The views of R105 of two words of n bits. -/
def viewOf {n : Nat} (x y : BitVec n) : View :=
  { w := n, x := x.toNat, y := y.toNat, xs := x.toInt, ys := y.toInt, sh := y.toNat % n }

theorem sext_toNat {n : Nat} (hn : 0 < n) (x : BitVec n) : sext n x.toNat = x.toInt := by
  obtain ⟨k, rfl⟩ : ∃ k, n = k + 1 := ⟨n - 1, by omega⟩
  have h : 2 ^ (k + 1) = 2 * 2 ^ k := Nat.pow_succ'
  rw [sext, BitVec.toInt_eq_toNat_cond, Nat.add_sub_cancel]
  push_cast
  split <;> split <;> omega

/-- R105 at width 32 looks at the low halves. -/
theorem view_one (a b : Word) : view 1 a b = viewOf (a.setWidth 32) (b.setWidth 32) := by
  simp [view, viewOf, ← sext_toNat]

theorem view_zero (a b : Word) : view 0 a b = viewOf a b := by
  have ha := Nat.mod_eq_of_lt a.isLt
  have hb := Nat.mod_eq_of_lt b.isLt
  simp [view, viewOf, ← sext_toNat, ha, hb]

/-- A function that is the same at both widths gives R105's result of what it is at every width. -/
theorem atWidth_eq_result {res : View → Int} {f : ∀ n, BitVec n → BitVec n → BitVec n}
    (hf : ∀ n, 0 < n → ∀ x y : BitVec n, f n x y = BitVec.ofInt n (res (viewOf x y))) (m : BitVec 1) (x y : Word) :
    atWidth m (f 32) (f 64) x y = result m (res (view m x y)) := by
  obtain rfl | rfl : m = 0 ∨ m = 1 := BitVec.eq_zero_or_eq_one m
  · rw [atWidth, if_neg (by decide), result, if_neg (by decide), view_zero, hf 64 (by decide)]
  · rw [atWidth, if_pos rfl, result, if_pos rfl, view_one, hf 32 (by decide)]

section Rows
variable {i : Instr} {d a b : Reg} {m : BitVec 1} {res : View → Int}

/-- A row of Table 5.1 with a width. -/
theorem table51_of_width (f : ∀ n, BitVec n → BitVec n → BitVec n)
    (hi : ∀ s, exec i s = run (alu d a b (atWidth m (f 32) (f 64))) s)
    (hf : ∀ n, 0 < n → ∀ x y : BitVec n, f n x y = BitVec.ofInt n (res (viewOf x y))) : Table51 i d a b m res := by
  intro s
  simp only [hi, alu_next, atWidth_eq_result hf]

/-- A row of Table 5.1 without a width: a function on words of 64 bits. -/
theorem table51_of_word (f : Word → Word → Word) (hi : ∀ s, exec i s = run (alu d a b f) s)
    (hf : ∀ x y, f x y = BitVec.ofInt 64 (res (viewOf x y))) : Table51 i d a b 0 res := by
  intro s
  simp only [hi, alu_next, hf, ← view_zero]
  rfl

end Rows

/-! ## Sums, products and shifts -/

section
variable {n : Nat} (x y : BitVec n)

theorem ofInt_toNat : BitVec.ofInt n x.toNat = x := by simp [BitVec.ofInt_natCast]

theorem add_eq : x + y = BitVec.ofInt n (x.toNat + y.toNat) := by
  rw [BitVec.ofInt_add, ofInt_toNat, ofInt_toNat]

theorem sub_eq : x - y = BitVec.ofInt n (x.toNat - y.toNat) := by
  rw [Int.sub_eq_add_neg, BitVec.ofInt_add, BitVec.ofInt_neg, ofInt_toNat, ofInt_toNat, BitVec.sub_eq_add_neg]

theorem mul_eq : x * y = BitVec.ofInt n (x.toNat * y.toNat) := by
  rw [BitVec.ofInt_mul, ofInt_toNat, ofInt_toNat]

theorem shiftLeft_eq (k : Nat) : x <<< k = BitVec.ofInt n (x.toNat * 2 ^ k) := by
  have h : (x.toNat * 2 ^ k : Int) = (x.toNat * 2 ^ k : Nat) := by rw [Int.natCast_mul, Int.natCast_pow]; rfl
  apply BitVec.eq_of_toNat_eq
  rw [h, BitVec.ofInt_natCast, BitVec.toNat_ofNat, BitVec.toNat_shiftLeft, Nat.shiftLeft_eq]

theorem ushiftRight_eq (k : Nat) : x >>> k = BitVec.ofInt n (x.toNat / 2 ^ k) := by
  have h : ((x.toNat / 2 ^ k : Int)) = (x >>> k).toNat := by
    rw [BitVec.toNat_ushiftRight, Nat.shiftRight_eq_div_pow, Int.natCast_ediv, Int.natCast_pow]
    rfl
  rw [h, ofInt_toNat]

theorem sshiftRight_eq (k : Nat) : x.sshiftRight k = BitVec.ofInt n (x.toInt.fdiv (2 ^ k)) := by
  have h : x.toInt.fdiv (2 ^ k) = (x.sshiftRight k).toInt := by
    rw [BitVec.toInt_sshiftRight, Int.shiftRight_eq_div_pow, Int.natCast_pow]
    exact Int.fdiv_eq_ediv_of_nonneg _ (Int.pow_nonneg (by decide))
  rw [h, BitVec.ofInt_toInt]

/-- The two parts of a rotation by r share no bit. -/
theorem shiftLeft_or_ushiftRight {r : Nat} (hr : r ≤ n) :
    x <<< r ||| x >>> (n - r) = x <<< r + x >>> (n - r) := by
  refine (BitVec.add_eq_or_of_and_eq_zero _ _ ?_).symm
  ext i hi
  simp only [BitVec.getElem_and, BitVec.getElem_shiftLeft, BitVec.getElem_ushiftRight, BitVec.getElem_zero]
  by_cases h : i < r
  · simp [h]
  · simp [BitVec.getLsbD_of_ge x (n - r + i) (by omega)]

theorem rotl_eq (hn : 0 < n) (k : Nat) :
    rotl x k = BitVec.ofInt n (x.toNat * 2 ^ (k % n) + x.toNat / 2 ^ (n - k % n)) := by
  rw [rotl, shiftLeft_or_ushiftRight x (Nat.le_of_lt (Nat.mod_lt k hn)), BitVec.ofInt_add, ← shiftLeft_eq, ← ushiftRight_eq]

theorem rotr_eq (hn : 0 < n) (k : Nat) :
    rotr x k = BitVec.ofInt n (x.toNat / 2 ^ (k % n) + x.toNat * 2 ^ (n - k % n)) := by
  have hk := Nat.mod_lt k hn
  have h := shiftLeft_or_ushiftRight x (Nat.sub_le n (k % n))
  rw [Nat.sub_sub_self (Nat.le_of_lt hk)] at h
  rw [rotr, BitVec.or_comm, h, BitVec.add_comm, BitVec.ofInt_add, ← shiftLeft_eq, ← ushiftRight_eq]

/-! ## Quotients and remainders -/

theorem eq_zero_iff_toNat : y = 0 ↔ y.toNat = 0 := by rw [BitVec.toNat_eq]; rfl

theorem eq_zero_iff_toInt : y = 0 ↔ y.toInt = 0 := by rw [← BitVec.toInt_inj]; simp

theorem udivR_eq : udivR x y = BitVec.ofInt n (if y.toNat = 0 then 2 ^ n - 1 else x.toNat / y.toNat) := by
  rw [udivR]
  by_cases h : y = 0
  · have e : (2 ^ n - 1 : Int) = (BitVec.allOnes n).toNat := by
      rw [BitVec.toNat_allOnes, Int.natCast_sub Nat.one_le_two_pow, Int.natCast_pow]
      rfl
    rw [if_pos h, if_pos ((eq_zero_iff_toNat y).1 h), e, ofInt_toNat]
  · rw [if_neg h, if_neg (mt (eq_zero_iff_toNat y).2 h)]
    have e : (x.toNat / y.toNat : Int) = (x / y).toNat := by rw [BitVec.toNat_udiv, Int.natCast_ediv]
    rw [e, ofInt_toNat]

theorem uremR_eq : uremR x y = BitVec.ofInt n (if y.toNat = 0 then (x.toNat : Int) else x.toNat % y.toNat) := by
  rw [uremR]
  by_cases h : y = 0
  · rw [if_pos h, if_pos ((eq_zero_iff_toNat y).1 h), ofInt_toNat]
  · rw [if_neg h, if_neg (mt (eq_zero_iff_toNat y).2 h)]
    have e : (x.toNat % y.toNat : Int) = (x % y).toNat := by rw [BitVec.toNat_umod, Int.natCast_emod]
    rw [e, ofInt_toNat]

theorem ofInt_bmod (z : Int) : BitVec.ofInt n (z.bmod (2 ^ n)) = BitVec.ofInt n z := by
  rw [← BitVec.toInt_ofInt, BitVec.ofInt_toInt]

theorem sdiv_eq_tdiv : x.sdiv y = BitVec.ofInt n (x.toInt.tdiv y.toInt) := by
  rw [← ofInt_bmod, ← BitVec.toInt_sdiv, BitVec.ofInt_toInt]

theorem sdivR_eq : sdivR x y = BitVec.ofInt n (if y.toInt = 0 then -1
    else if x.toInt = -2 ^ (n - 1) ∧ y.toInt = -1 then x.toInt else x.toInt.tdiv y.toInt) := by
  rw [sdivR]
  split
  next h =>
    rw [if_pos ((eq_zero_iff_toInt y).1 h), BitVec.ofInt_neg]; exact BitVec.neg_one_eq_allOnes.symm
  next h =>
    rw [if_neg (mt (eq_zero_iff_toInt y).2 h), sdiv_eq_tdiv]
    split
    next hmin =>
      obtain ⟨hx, hm⟩ := hmin
      rw [hx, hm, Int.tdiv_neg, Int.tdiv_one, BitVec.ofInt_neg, ← BitVec.intMin_eq_neg_two_pow, BitVec.neg_intMin]
    next => rfl

theorem sremR_eq : sremR x y = BitVec.ofInt n (if y.toInt = 0 then x.toInt
    else if x.toInt = -2 ^ (n - 1) ∧ y.toInt = -1 then 0 else x.toInt - y.toInt * x.toInt.tdiv y.toInt) := by
  rw [sremR]
  split
  next h => rw [if_pos ((eq_zero_iff_toInt y).1 h), BitVec.ofInt_toInt]
  next h =>
    have e : x.srem y = BitVec.ofInt n (x.toInt.tmod y.toInt) := by rw [← BitVec.toInt_srem, BitVec.ofInt_toInt]
    rw [if_neg (mt (eq_zero_iff_toInt y).2 h), e]
    split
    next hmin => simp [hmin.2]
    next => rw [Int.tmod_def]

end

/-! ## Counts of bits -/

theorem bitsOf_succ (n x : Nat) : bitsOf (n + 1) x = bitsOf n x ++ [x.testBit n] := by
  simp [bitsOf, List.range_succ]

theorem length_bitsOf (n x : Nat) : (bitsOf n x).length = n := by simp [bitsOf]

/-- The zeros above the highest one of a number below 2ⁿ. -/
theorem leadingZeros_eq (n x : Nat) (hx : x < 2 ^ n) :
    ((bitsOf n x).reverse.takeWhile (!·)).length = if x = 0 then n else n - 1 - x.log2 := by
  induction n with
  | zero => simp [bitsOf]
  | succ n ih =>
    rw [bitsOf_succ, List.reverse_concat, List.takeWhile_cons]
    by_cases h : x < 2 ^ n
    · simp only [Nat.testBit_lt_two_pow h, Bool.not_false, if_true, List.length_cons, ih h]
      by_cases h0 : x = 0
      · simp [h0]
      · have := (Nat.log2_lt h0).2 h
        simp only [h0, if_false]; omega
    · have h0 : x ≠ 0 := by have := Nat.two_pow_pos n; omega
      have hl : x.log2 = n := (Nat.log2_eq_iff h0).2 ⟨by omega, hx⟩
      have ht : x.testBit n = true := by
        rw [← hl]; exact Nat.testBit_log2 h0
      simp [ht, h0, hl]

/-- The zeros below the lowest one are counted by its place. -/
theorem trailingZeros_eq (n x : Nat) :
    ((bitsOf n x).takeWhile (!·)).length = (((List.range n).find? (x.testBit ·)).getD n) := by
  induction n with
  | zero => rfl
  | succ n ih =>
    rw [bitsOf_succ, List.range_succ, List.find?_append, List.takeWhile_append, length_bitsOf, ih]
    cases hfind : (List.range n).find? (x.testBit ·) with
    | none => cases ht : x.testBit n <;> simp [ht, length_bitsOf]
    | some i =>
      have hi : i < n := List.mem_range.1 (List.mem_of_find?_eq_some hfind)
      simp [Nat.ne_of_lt hi, ih, hfind]

theorem clzR_eq {n : Nat} (x : BitVec n) :
    clzR x = BitVec.ofInt n ((bitsOf n x.toNat).reverse.takeWhile (!·)).length := by
  rw [leadingZeros_eq n x.toNat x.isLt, BitVec.ofInt_natCast, clzR]
  simp [BitVec.toNat_eq]

theorem ctzR_eq {n : Nat} (x : BitVec n) : ctzR x = BitVec.ofInt n ((bitsOf n x.toNat).takeWhile (!·)).length := by
  rw [trailingZeros_eq, BitVec.ofInt_natCast]; rfl

theorem popR_eq {n : Nat} (x : BitVec n) : popR x = BitVec.ofInt n ((bitsOf n x.toNat).count true) := by
  rw [BitVec.ofInt_natCast, popR, bitsOf, List.count, List.countP_map]
  simp [Function.comp_def, BitVec.getLsbD]

/-! ## The order of bits and bytes -/

theorem testBit_ofBits (l : List Bool) (i : Nat) : (ofBits l).testBit i = l.getD i false := by
  induction l generalizing i with
  | nil => simp [ofBits]
  | cons b l ih =>
    cases i with
    | zero => cases b <;> simp [ofBits, Nat.testBit_zero]
    | succ i =>
      have h : ofBits (b :: l) / 2 = ofBits l := by
        rw [ofBits, List.foldr_cons, ← ofBits]
        split <;> omega
      rw [Nat.testBit_succ, h, ih, List.getD_cons_succ]

theorem brevR_eq (x : Word) : brevR x = BitVec.ofInt 64 (ofBits (bitsOf 64 x.toNat).reverse) := by
  rw [BitVec.ofInt_natCast]
  refine BitVec.eq_of_getLsbD_eq fun i hi => ?_
  rw [brevR, BitVec.getLsbD_reverse, BitVec.getLsbD_ofNat, testBit_ofBits]
  simp [BitVec.getMsbD, BitVec.getLsbD, bitsOf, hi]

/-- The byte i of a number, moved to the place of byte 7 − i. -/
def movedByte (x i : Nat) : Nat := x / 256 ^ i % 256 * 256 ^ (7 - i)

theorem toNat_movedByte (x : Word) {i : Nat} (hi : i < 8) :
    (((x >>> (8 * i)) &&& 0xFF) <<< (56 - 8 * i)).toNat = movedByte x.toNat i := by
  have hp : 256 ^ i = 2 ^ (8 * i) := (Nat.pow_mul 2 8 i).symm
  have hq : 256 ^ (7 - i) = 2 ^ (56 - 8 * i) := by
    rw [show 56 - 8 * i = 8 * (7 - i) by omega]
    exact (Nat.pow_mul 2 8 (7 - i)).symm
  have hb : x.toNat / 2 ^ (8 * i) % 256 * 2 ^ (56 - 8 * i) < 2 ^ 64 :=
    calc _ < 2 ^ 8 * 2 ^ (56 - 8 * i) := Nat.mul_lt_mul_of_pos_right (Nat.mod_lt _ (by decide)) (Nat.two_pow_pos _)
      _ = 2 ^ (8 + (56 - 8 * i)) := (Nat.pow_add ..).symm
      _ ≤ 2 ^ 64 := Nat.pow_le_pow_right (by decide) (by omega)
  have hm : ((x >>> (8 * i)) &&& 0xFF).toNat = x.toNat / 2 ^ (8 * i) % 256 := by
    rw [BitVec.toNat_and, BitVec.toNat_ushiftRight, Nat.shiftRight_eq_div_pow]
    exact Nat.and_two_pow_sub_one_eq_mod _ 8
  rw [BitVec.toNat_shiftLeft, hm, Nat.shiftLeft_eq, movedByte, hp, hq, Nat.mod_eq_of_lt hb]

/-- Bytes put into place from the highest down: what k of them make has its low 8 − k bytes zero, so that the next one
only adds to it. -/
theorem toNat_swapBytes (x : Word) {k : Nat} (hk : k ≤ 8) :
    ((List.range k).foldl (fun r i => r ||| ((x >>> (8 * i)) &&& 0xFF) <<< (56 - 8 * i)) (0 : Word)).toNat =
      ((List.range k).map (movedByte x.toNat)).sum ∧
    256 ^ (8 - k) ∣ ((List.range k).map (movedByte x.toNat)).sum := by
  induction k with
  | zero => simp
  | succ k ih =>
    obtain ⟨hval, c, hc⟩ := ih (by omega)
    have hpow : 256 ^ (8 - k) = 256 * 256 ^ (7 - k) := by rw [show 8 - k = 7 - k + 1 by omega, Nat.pow_succ']
    have hlt : movedByte x.toNat k < 256 ^ (8 - k) := by
      rw [hpow, movedByte]
      exact Nat.mul_lt_mul_of_pos_right (Nat.mod_lt _ (by decide)) (Nat.pow_pos (by decide))
    have hor : 256 ^ (8 - k) * c + movedByte x.toNat k = 256 ^ (8 - k) * c ||| movedByte x.toNat k := by
      have htwo : 256 ^ (8 - k) = 2 ^ (8 * (8 - k)) := (Nat.pow_mul 2 8 (8 - k)).symm
      rw [htwo] at hlt ⊢
      exact Nat.two_pow_add_eq_or_of_lt hlt c
    simp only [List.range_succ, List.foldl_append, List.foldl_cons, List.foldl_nil, List.map_append, List.map_cons,
      List.map_nil, List.sum_append, List.sum_singleton]
    refine ⟨?_, ?_⟩
    · rw [BitVec.toNat_or, hval, toNat_movedByte x (by omega), hc]
      exact hor.symm
    · rw [hc, hpow, show 8 - (k + 1) = 7 - k by omega]
      exact Nat.dvd_add (Nat.dvd_mul_right_of_dvd (Nat.dvd_mul_left _ _) _) (Nat.dvd_mul_left _ _)

theorem bswapR_eq (x : Word) : bswapR x =
    BitVec.ofInt 64 (((List.range 8).map (fun i => x.toNat / 256 ^ i % 256 * 256 ^ (7 - i))).sum : Nat) := by
  obtain ⟨h, -⟩ := toNat_swapBytes x (k := 8) (Nat.le_refl 8)
  exact (ofInt_toNat (bswapR x)).symm.trans (congrArg (fun n : Nat => BitVec.ofInt 64 n) h)

/-! ## The functions on words of 64 bits alone -/
section
variable (x y : Word)

theorem and_eq : x &&& y = BitVec.ofInt 64 ((x.toNat &&& y.toNat : Nat)) := by
  rw [← BitVec.toNat_and, ofInt_toNat]
theorem or_eq : x ||| y = BitVec.ofInt 64 ((x.toNat ||| y.toNat : Nat)) := by
  rw [← BitVec.toNat_or, ofInt_toNat]
theorem xor_eq : x ^^^ y = BitVec.ofInt 64 ((x.toNat ^^^ y.toNat : Nat)) := by
  rw [← BitVec.toNat_xor, ofInt_toNat]

/-- The high half of a product of 128 bits is the quotient, rounded down. -/
theorem highHalf_ofInt (z : Int) : (BitVec.ofInt 128 z).extractLsb' 64 64 = BitVec.ofInt 64 (z / 2 ^ 64) := by
  apply BitVec.eq_of_toNat_eq
  rw [BitVec.extractLsb'_toNat, Nat.shiftRight_eq_div_pow, BitVec.toNat_ofInt, BitVec.toNat_ofInt]
  omega

theorem mulHigh_signed : mulHigh true x y = BitVec.ofInt 64 ((x.toInt * y.toInt).fdiv (2 ^ 64)) := by
  rw [Int.fdiv_eq_ediv_of_nonneg _ (by decide), ← highHalf_ofInt, BitVec.ofInt_mul]
  rfl

theorem mulHigh_unsigned : mulHigh false x y = BitVec.ofInt 64 (x.toNat * y.toNat / 2 ^ 64) := by
  rw [← highHalf_ofInt, BitVec.ofInt_mul, BitVec.ofInt_natCast, BitVec.ofInt_natCast, BitVec.ofNat_toNat,
    BitVec.ofNat_toNat]
  rfl

theorem truth_eq {b : Bool} {p : Prop} [Decidable p] (h : b = true ↔ p) :
    truth b = BitVec.ofInt 64 (if p then 1 else 0) := by
  simp [truth, h, apply_ite]

theorem slt_eq : truth (x.slt y) = BitVec.ofInt 64 (if x.toInt < y.toInt then 1 else 0) :=
  truth_eq BitVec.slt_iff_toInt_lt
theorem ult_eq : truth (x.ult y) = BitVec.ofInt 64 (if x.toNat < y.toNat then 1 else 0) :=
  truth_eq BitVec.ult_iff_lt
theorem beq_eq : truth (x == y) = BitVec.ofInt 64 (if x.toNat = y.toNat then 1 else 0) :=
  truth_eq (by rw [beq_iff_eq, BitVec.toNat_eq])

/-- The lesser of two words under a reading of words as numbers. -/
theorem select_eq_min {g : Word → Int} (hg : ∀ w, BitVec.ofInt 64 (g w) = w) {b : Bool} (h : b = true ↔ g x < g y) :
    (if b then x else y) = BitVec.ofInt 64 (min (g x) (g y)) := by
  by_cases hb : g x < g y
  · rw [if_pos (h.2 hb), Int.min_eq_left (Int.le_of_lt hb), hg]
  · rw [if_neg (mt h.1 hb), Int.min_eq_right (Int.not_lt.1 hb), hg]

/-- The greater of two words under a reading of words as numbers. -/
theorem select_eq_max {g : Word → Int} (hg : ∀ w, BitVec.ofInt 64 (g w) = w) {b : Bool} (h : b = true ↔ g x < g y) :
    (if b then y else x) = BitVec.ofInt 64 (max (g x) (g y)) := by
  by_cases hb : g x < g y
  · rw [if_pos (h.2 hb), Int.max_eq_right (Int.le_of_lt hb), hg]
  · rw [if_neg (mt h.1 hb), Int.max_eq_left (Int.not_lt.1 hb), hg]

theorem ult_iff_intLt : x.ult y = true ↔ (x.toNat : Int) < y.toNat := by
  rw [BitVec.ult_iff_lt, BitVec.lt_def, Int.ofNat_lt]

theorem addsh_eq (k : Nat) : x + y <<< k = BitVec.ofInt 64 (x.toNat + y.toNat * 2 ^ k) := by
  rw [BitVec.ofInt_add, ofInt_toNat, ← shiftLeft_eq]

end

/-- An instruction of three sources that writes `s[d]`. -/
theorem threeSource_next (d a b c : Reg) (f : Word → Word → Word → Word) (s : State) :
    run (straight 4 (do let x ← rd a; let y ← rd b; let z ← rd c; wr d (f x y z))) s =
      .next (s.after 4 (fun x => x.setReg d (f (x.reg a) (x.reg b) (x.reg c)))) := by
  refine run_straight_core (f := fun x => x.setReg d (f (x.reg a) (x.reg b) (x.reg c))) ?_ (by simp) (by simp)
  simp [State.updCore_def, State.me]

/-! ## The table -/

/-- Settles O9: each row of Table 5.1 by the lemma above that says what its function computes. -/
theorem scalarRegister : Obligations.ScalarRegister := by
  unfold Obligations.ScalarRegister
  refine ⟨fun d a b m => ⟨?add, ?sub, ?sll, ?srl, ?sra, ?mul, ?div, ?divu, ?rem, ?remu, ?rol, ?ror, ?clz, ?ctz, ?popc⟩,
    fun d a b c k => ⟨?and, ?or, ?xor, ?mulh, ?mulhu, ?slt, ?sltu, ?seq, ?min, ?max, ?minu, ?maxu, ?brev, ?bswap, ?addsh,
      ?selz, ?selnz⟩⟩
  case add => exact table51_of_width (fun _ x y => x + y) (fun _ => rfl) (fun _ _ x y => add_eq x y)
  case sub => exact table51_of_width (fun _ x y => x - y) (fun _ => rfl) (fun _ _ x y => sub_eq x y)
  case sll => exact table51_of_width (fun _ x y => shl x y.toNat) (fun _ => rfl) (fun _ _ x y => shiftLeft_eq x _)
  case srl => exact table51_of_width (fun _ x y => shr x y.toNat) (fun _ => rfl) (fun _ _ x y => ushiftRight_eq x _)
  case sra => exact table51_of_width (fun _ x y => sar x y.toNat) (fun _ => rfl) (fun _ _ x y => sshiftRight_eq x _)
  case mul => exact table51_of_width (fun _ x y => x * y) (fun _ => rfl) (fun _ _ x y => mul_eq x y)
  case div => exact table51_of_width (fun _ => sdivR) (fun _ => rfl) (fun _ _ x y => sdivR_eq x y)
  case divu => exact table51_of_width (fun _ => udivR) (fun _ => rfl) (fun _ _ x y => udivR_eq x y)
  case rem => exact table51_of_width (fun _ => sremR) (fun _ => rfl) (fun _ _ x y => sremR_eq x y)
  case remu => exact table51_of_width (fun _ => uremR) (fun _ => rfl) (fun _ _ x y => uremR_eq x y)
  case rol => exact table51_of_width (fun _ x y => rotl x y.toNat) (fun _ => rfl) (fun _ hn x y => rotl_eq x hn _)
  case ror => exact table51_of_width (fun _ x y => rotr x y.toNat) (fun _ => rfl) (fun _ hn x y => rotr_eq x hn _)
  case clz => exact table51_of_width (fun _ x _ => clzR x) (fun _ => rfl) (fun _ _ x _ => clzR_eq x)
  case ctz => exact table51_of_width (fun _ x _ => ctzR x) (fun _ => rfl) (fun _ _ x _ => ctzR_eq x)
  case popc => exact table51_of_width (fun _ x _ => popR x) (fun _ => rfl) (fun _ _ x _ => popR_eq x)
  case and => exact table51_of_word (· &&& ·) (fun _ => rfl) and_eq
  case or => exact table51_of_word (· ||| ·) (fun _ => rfl) or_eq
  case xor => exact table51_of_word (· ^^^ ·) (fun _ => rfl) xor_eq
  case mulh => exact table51_of_word (mulHigh true) (fun _ => rfl) mulHigh_signed
  case mulhu => exact table51_of_word (mulHigh false) (fun _ => rfl) mulHigh_unsigned
  case slt => exact table51_of_word (fun x y => truth (x.slt y)) (fun _ => rfl) slt_eq
  case sltu => exact table51_of_word (fun x y => truth (x.ult y)) (fun _ => rfl) ult_eq
  case seq => exact table51_of_word (fun x y => truth (x == y)) (fun _ => rfl) beq_eq
  case min =>
    exact table51_of_word (fun x y => if x.slt y then x else y) (fun _ => rfl)
      (fun x y => select_eq_min x y (fun _ => BitVec.ofInt_toInt) BitVec.slt_iff_toInt_lt)
  case max =>
    exact table51_of_word (fun x y => if x.slt y then y else x) (fun _ => rfl)
      (fun x y => select_eq_max x y (fun _ => BitVec.ofInt_toInt) BitVec.slt_iff_toInt_lt)
  case minu =>
    exact table51_of_word (fun x y => if x.ult y then x else y) (fun _ => rfl)
      (fun x y => select_eq_min x y (g := fun w => (w.toNat : Int)) ofInt_toNat (ult_iff_intLt x y))
  case maxu =>
    exact table51_of_word (fun x y => if x.ult y then y else x) (fun _ => rfl)
      (fun x y => select_eq_max x y (g := fun w => (w.toNat : Int)) ofInt_toNat (ult_iff_intLt x y))
  case brev => exact table51_of_word (fun x _ => brevR x) (fun _ => rfl) (fun x _ => brevR_eq x)
  case bswap => exact table51_of_word (fun x _ => bswapR x) (fun _ => rfl) (fun x _ => bswapR_eq x)
  case addsh => exact table51_of_word (fun x y => x + y <<< k.toNat) (fun _ => rfl) (fun x y => addsh_eq x y _)
  case selz => exact threeSource_next d a b c (fun x y z => if z = 0 then x else y)
  case selnz => exact threeSource_next d a b c (fun x y z => if z ≠ 0 then x else y)

end Sys2Proof.Scalar

/-!
The system registers (05 R116–R118): what a CSR instruction does with an assigned number and with one of Table 5.9's gaps,
and what the register that it writes holds after it.
-/
namespace Sys2Proof.SystemRegister
open Sys2Proof.Machine Sys2Proof.Claim

/-! ## Writing a system register -/

section
variable (x : Core) (num : Nat) (v : Word)

@[simp] theorem setCsr_regs : (x.setCsr num v).regs = x.regs := by unfold Core.setCsr; split <;> rfl
@[simp] theorem setCsr_pc : (x.setCsr num v).pc = x.pc := by unfold Core.setCsr; split <;> rfl
@[simp] theorem setCsr_retired : (x.setCsr num v).retired = x.retired := by unfold Core.setCsr; split <;> rfl
@[simp] theorem setCsr_vregs : (x.setCsr num v).vregs = x.vregs := by unfold Core.setCsr; split <;> rfl
@[simp] theorem setCsr_masks : (x.setCsr num v).masks = x.masks := by unfold Core.setCsr; split <;> rfl
@[simp] theorem setCsr_rows : (x.setCsr num v).rows = x.rows := by unfold Core.setCsr; split <;> rfl
theorem setCsr_nflags : (x.setCsr num v).nflags = if num = 0x001 then v else x.nflags := by
  unfold Core.setCsr; split <;> simp_all
theorem setCsr_nmode : (x.setCsr num v).nmode = if num = 0x002 then v else x.nmode := by
  unfold Core.setCsr; split <;> simp_all
theorem setCsr_dbgctl : (x.setCsr num v).dbgctl = if num = 0x040 then v else x.dbgctl := by
  unfold Core.setCsr; split <;> simp_all
theorem setCsr_dbgq : (x.setCsr num v).dbgq = if num = 0x041 then v else x.dbgq := by
  unfold Core.setCsr; split <;> simp_all

end

/-- Reading any register after any write; register 0 reads zero (02 R22). -/
theorem reg_setReg (x : Core) (d k : Reg) (v : Word) :
    (x.setReg d v).reg k = if k = 0 then 0 else if k = d then v else x.reg k := by
  split
  next h0 => rw [h0]; rfl
  next h0 =>
    split
    next hd => rw [hd] at h0 ⊢; exact Core.reg_setReg_self x d v h0
    next hd => exact Core.reg_setReg_ne x d k v hd

/-! ## The bits that a write takes (R118) -/

/-- The bits of a register that an instruction at this level may write. -/
def writable (svc : Bool) (rw svcBits : Word) : Word := rw ||| if svc = true then svcBits else 0

/-- What a register holds after a write of `given`: its writable bits are taken, the others stay. -/
def written (may old given : Word) : Word := (old &&& ~~~may) ||| (given &&& may)

theorem getLsbD_written (may old given : Word) {k : Nat} (hk : k < 64) :
    (written may old given).getLsbD k = if may.getLsbD k then given.getLsbD k else old.getLsbD k := by
  rw [written, BitVec.getLsbD_or, BitVec.getLsbD_and, BitVec.getLsbD_and, BitVec.getLsbD_not]
  cases may.getLsbD k <;> simp [hk]

theorem getLsbD_writable (svc : Bool) (rw svcBits : Word) (k : Nat) :
    (writable svc rw svcBits).getLsbD k = true ↔ rw.getLsbD k = true ∨ (svc = true ∧ svcBits.getLsbD k = true) := by
  cases svc <;> simp [writable]

/-! ## The CSR instructions -/

/-- The mask that an instruction names: none, all, or the bits of its source. -/
def named (op : CsrOp) (x : Word) : Word :=
  match op with
  | .read => 0
  | .write => 0xFFFFFFFFFFFFFFFF
  | _ => x

/-- What an instruction would leave. -/
def left (op : CsrOp) (old x : Word) : Word :=
  match op with
  | .read => old
  | .write => x
  | .set => old ||| x
  | .clear => old &&& ~~~x

/-- What a CSR instruction computes, in these words. -/
theorem csrOp_apply (op : CsrOp) (w : IWord) (d a : Reg) (num : Nat) (s : State) {old : Word} (h : s.csr num = some old) :
    csrOp op w d a num s =
      (do
        check (s.coreSvc s.cur || named op (s.me.reg a) &&& csrSVC num == 0) cPRIV (word num)
        modMe (·.setCsr num (written (writable (s.coreSvc s.cur) (csrRW num) (csrSVC num)) old (left op old (s.me.reg a))))
        wr d old : Op Unit) s := by
  cases op <;> simp [csrOp, h, named, left, written, writable]

theorem csr_next {op : CsrOp} {d a : Reg} {num : Nat} {s : State} {old : Word} (w : IWord) (h : s.csr num = some old)
    (hp : s.coreSvc s.cur = true ∨ named op (s.me.reg a) &&& csrSVC num = 0) :
    run (straight 4 (csrOp op w d a num)) s = .next (s.after 4 (fun x =>
      (x.setCsr num (written (writable (s.coreSvc s.cur) (csrRW num) (csrSVC num)) old (left op old (s.me.reg a)))).setReg d
        old)) := by
  refine run_straight_core ?_ (by simp) (by simp)
  rw [csrOp_apply _ _ _ _ _ _ h, Op.bind_apply, check_of (by simpa using hp)]
  simp

theorem csr_priv {op : CsrOp} {d a : Reg} {num : Nat} {s : State} {old : Word} (w : IWord) (h : s.csr num = some old)
    (hs : s.coreSvc s.cur = false) (hp : named op (s.me.reg a) &&& csrSVC num ≠ 0) :
    run (straight 4 (csrOp op w d a num)) s = .next (s.takeFault s.cur cPRIV (word num)) := by
  refine run_trap (straight_error ?_)
  rw [csrOp_apply _ _ _ _ _ _ h, Op.bind_apply, check_fails (by simpa [hs] using hp)]

theorem csr_ill {op : CsrOp} {d a : Reg} {num : Nat} {s : State} (w : IWord) (h : s.csr num = none) :
    run (straight 4 (csrOp op w d a num)) s = .next (s.takeFault s.cur cILL (w.setWidth 64)) := by
  refine run_trap (straight_error ?_)
  simp [csrOp, h]

/-! ## Table 5.9 -/

/-- A row of Table 5.9 has the value that the model reads, and the RW and SVC fields that it goes by. -/
theorem csr_of_mem_sysRegs {s : State} {r : Nat × Word × Word × Word} (h : r ∈ sysRegs s) :
    s.csr r.1 = some r.2.1 ∧ csrRW r.1 = r.2.2.1 ∧ csrSVC r.1 = r.2.2.2 := by
  revert r
  simp only [sysRegs, List.forall_mem_cons]
  exact ⟨⟨rfl, rfl, rfl⟩, ⟨rfl, rfl, rfl⟩, ⟨rfl, rfl, rfl⟩, ⟨rfl, rfl, rfl⟩, ⟨rfl, rfl, rfl⟩, ⟨rfl, rfl, rfl⟩,
    ⟨rfl, rfl, rfl⟩, ⟨rfl, rfl, rfl⟩, ⟨rfl, rfl, rfl⟩, ⟨rfl, rfl, rfl⟩, List.forall_mem_nil _⟩

theorem csr_eq_none {s : State} {num : Nat}
    (h : num ∉ [0x001, 0x002, 0x010, 0x011, 0x012, 0x020, 0x021, 0x022, 0x040, 0x041]) : s.csr num = none := by
  unfold State.csr
  split <;> simp_all

/-! ## The four instructions as one -/

/-- The instruction of each operation. -/
def form (op : CsrOp) (d a u : Reg) (v : BitVec 6) : Instr :=
  match op with
  | .read => .csrr d u v
  | .write => .csrw d a u v
  | .set => .csrs d a u v
  | .clear => .csrc d a u v

theorem exists_form_of_mem_csrForms {d a u : Reg} {v : BitVec 6} {old x : Word} {f : Instr × Word × Word}
    (h : f ∈ csrForms d a u v old x) : ∃ op, f = (form op d a u v, named op x, left op old x) := by
  simp only [csrForms, List.mem_cons, List.not_mem_nil, or_false] at h
  obtain rfl | rfl | rfl | rfl := h
  · exact ⟨.read, rfl⟩
  · exact ⟨.write, rfl⟩
  · exact ⟨.set, rfl⟩
  · exact ⟨.clear, rfl⟩

/-- The state that an instruction leaves which completes on a row of Table 5.9. -/
def completed (s : State) (d : Reg) (r : Nat × Word × Word × Word) (given : Word) : State :=
  s.after 4 (fun x => (x.setCsr r.1 (written (writable (s.coreSvc s.cur) r.2.2.1 r.2.2.2) r.2.1 given)).setReg d r.2.1)

section
variable {s : State} {r : Nat × Word × Word × Word} (op : CsrOp) (d a : Reg) {u : Reg} {v : BitVec 6}

/-- A CSR instruction that names no SVC bit, or runs at service level, completes. -/
theorem form_next (hr : r ∈ sysRegs s) (hn : u.toNat * 64 + v.toNat = r.1)
    (hp : s.coreSvc s.cur = true ∨ named op (s.me.reg a) &&& r.2.2.2 = 0) :
    exec (form op d a u v) s = .next (completed s d r (left op r.2.1 (s.me.reg a))) := by
  obtain ⟨hold, hrw, hsvc⟩ := csr_of_mem_sysRegs hr
  rw [completed, ← hrw, ← hsvc]
  rw [← hsvc] at hp
  rw [← hn] at hold hp ⊢
  cases op
  case read => exact csr_next (a := 0) _ hold hp
  all_goals exact csr_next _ hold hp

/-- At role level one that names an SVC bit takes PRIV. -/
theorem form_priv (hr : r ∈ sysRegs s) (hn : u.toNat * 64 + v.toNat = r.1) (hs : s.coreSvc s.cur = false)
    (hp : named op (s.me.reg a) &&& r.2.2.2 ≠ 0) :
    exec (form op d a u v) s = .next (s.takeFault s.cur cPRIV (word r.1)) := by
  obtain ⟨hold, -, hsvc⟩ := csr_of_mem_sysRegs hr
  rw [← hsvc] at hp
  rw [← hn] at hold hp ⊢
  cases op
  case read => exact csr_priv (a := 0) _ hold hs hp
  all_goals exact csr_priv _ hold hs hp

end

/-! ## The statements -/

theorem systemRegisters : SystemRegisters := by
  intro s d a u v r hr hn f hf svc
  obtain ⟨op, rfl⟩ := exists_form_of_mem_csrForms hf
  refine ⟨fun hp => ⟨_, form_next op d a hr hn hp, fun k hk => ?_⟩, fun hs hp => form_priv op d a hr hn hs hp⟩
  rw [getLsbD_written _ _ _ hk]
  exact ite_congr (propext (getLsbD_writable ..)) (fun _ => rfl) (fun _ => rfl)

/-- What a completed CSR instruction shows of the machine, in the words of the claim. -/
def Leaves (s : State) (d : Reg) (r : Nat × Word × Word × Word) (given : Word) (t : State) : Prop :=
  t.me.pc = s.me.pc + 4 ∧ (∀ k : Reg, t.me.reg k = if k = 0 then 0 else if k = d then r.2.1 else s.me.reg k) ∧
  (let now := written (writable (s.coreSvc s.cur) r.2.2.1 r.2.2.2) r.2.1 given
   t.me.nflags = (if r.1 = 0x001 then now else s.me.nflags) ∧ t.me.nmode = (if r.1 = 0x002 then now else s.me.nmode) ∧
   t.me.dbgctl = (if r.1 = 0x040 then now else s.me.dbgctl) ∧ t.me.dbgq = (if r.1 = 0x041 then now else s.me.dbgq)) ∧
  t.me.retired = s.me.retired + 1 ∧ t.me.vregs = s.me.vregs ∧ t.me.masks = s.me.masks ∧ t.me.rows = s.me.rows ∧
  (∀ c, c ≠ s.cur → t.core c = s.core c) ∧ t.queues = s.queues ∧ t.dev = s.dev ∧ SameMem s t

theorem me_after (s : State) (len : Word) (f : Core → Core) :
    (s.after len f).me = { f s.me with pc := s.me.pc + len, retired := s.me.retired + 1 } := State.me_updCore s _

theorem leaves_completed (s : State) (d : Reg) (r : Nat × Word × Word × Word) (given : Word) :
    Leaves s d r given (completed s d r given) := by
  refine ⟨?_, fun k => ?_, ⟨?_, ?_, ?_, ?_⟩, ?_, ?_, ?_, ?_, fun c hc => State.core_updCore_ne s _ c _ hc, rfl, rfl,
    fun _ => rfl⟩
  all_goals rw [completed, me_after]
  · exact (reg_setReg _ d k _).trans (by rw [Core.reg_eq_of_regs _ s.me (setCsr_regs _ _ _)])
  all_goals simp [setCsr_nflags, setCsr_nmode, setCsr_dbgctl, setCsr_dbgq]

theorem systemRegistersComplete : SystemRegistersComplete := by
  intro s d a u v r hr hn x leaves
  have complete (op : CsrOp) (hp : s.coreSvc s.cur = true ∨ named op x &&& r.2.2.2 = 0) :
      leaves (form op d a u v) (left op r.2.1 x) := ⟨_, form_next op d a hr hn hp, leaves_completed ..⟩
  refine ⟨complete .read (.inr BitVec.zero_and), fun hp => complete .write (hp.imp_right fun h => ?_),
    fun hp => ⟨complete .set hp, complete .clear hp⟩⟩
  rw [h]
  exact BitVec.and_zero

theorem systemRegisterUnassigned : SystemRegisterUnassigned := by
  intro s d a u v hn i hi w hw
  have ill := csr_eq_none (s := s) hn
  simp only [List.mem_cons, List.not_mem_nil, or_false] at hi
  obtain rfl | rfl | rfl | rfl := hi
  all_goals
    obtain rfl := List.singleton_inj.1 hw
    exact csr_ill _ ill

/-- Settles O13: an assigned number is a row of Table 5.9 and a CSR instruction completes on it or takes PRIV; on any
other number it takes ILL. -/
theorem systemRegisterAccess : Obligations.SystemRegisterAccess := by
  unfold Obligations.SystemRegisterAccess
  exact ⟨systemRegisters, systemRegistersComplete, systemRegisterUnassigned⟩

end Sys2Proof.SystemRegister

/-!
VCLAIM (11 R225): the first of a program takes free lane blocks of its ensemble, a later one reads the grant.
-/
namespace Sys2Proof.LaneClaim
open Sys2Proof.Machine

/-- The core of a program to which the blocks `bs` are granted. -/
def granted (bs : List Nat) (x : Core) : Core :=
  { x with vl := 16 * bs.length, blocks := bs, vregs := Vector.replicate 32 (List.replicate (16 * bs.length) 0),
           masks := Vector.replicate 8 0, inst := { x.inst with claimed := true } }

/-- The pool of an ensemble without the blocks `bs`. -/
def taking (bs : List Nat) (e : Ens) : Ens := { e with taken := bs.foldl (fun t b => t ||| 1#16 <<< b) e.taken }

/-- Blocks marked in a pool one by one are those marked before and those of the list. -/
theorem getLsbD_taking (bs : List Nat) (e : Ens) {k : Nat} (hk : k < 16) :
    (taking bs e).taken.getLsbD k = (e.taken.getLsbD k || bs.contains k) := by
  rw [taking]
  generalize e.taken = t
  induction bs generalizing t with
  | nil => simp
  | cons b bs ih =>
    have hb : (1#16 <<< b).getLsbD k = (k == b) := by
      rw [BitVec.getLsbD_shiftLeft, BitVec.getLsbD_one, Bool.eq_iff_iff]
      simp
      omega
    rw [List.foldl_cons, ih, BitVec.getLsbD_or, hb, List.contains_cons, Bool.or_assoc]

/-- R225: blocks of 16 lanes, at most 8. -/
theorem wantBlocks_eq_min (n : Word) : wantBlocks n = min 8 ((n.toNat + 15) / 16) := by
  simp only [wantBlocks]
  split <;> omega

/-- The grant of a request: as many free blocks, lowest first, as it wants, or all. -/
theorem take_wantBlocks (e : Ens) (n : Word) :
    e.freeBlocks.take (wantBlocks n) = e.freeBlocks.take (min (min 8 ((n.toNat + 15) / 16)) e.freeBlocks.length) := by
  rw [wantBlocks_eq_min, List.take_eq_take_min]

/-- The state after a first VCLAIM that is granted the blocks `bs`. -/
def granting (s : State) (d : Reg) (bs : List Nat) : State :=
  (s.updEns (ensOf s.cur) (taking bs)).after 4 (fun x => (granted bs x).setReg d (BitVec.ofNat 64 (16 * bs.length)))

section
variable (s : State) (d a : Reg)

/-- A later VCLAIM of a program reads the grant. -/
theorem vclaim_of_claimed (h : s.me.inst.claimed = true) :
    exec (.vclaim d a) s = .next (s.after 4 (fun x => x.setReg d (BitVec.ofNat 64 x.vl))) := by
  refine run_straight_core (f := fun x => x.setReg d (BitVec.ofNat 64 x.vl)) ?_ (by simp) (by simp)
  simp only [Op.bind_apply, rd_apply, getMe_apply, h, if_true, wr_apply]
  rfl

/-- The first VCLAIM of a program takes its blocks from the pool and reads the grant. -/
theorem vclaim_of_not_claimed (h : s.me.inst.claimed = false) {bs : List Nat}
    (hbs : (s.ens (ensOf s.cur)).freeBlocks.take (wantBlocks (s.me.reg a)) = bs) :
    exec (.vclaim d a) s = .next (granting s d bs) := by
  let u := s.updEns (ensOf s.cur) (taking bs)
  have hclaim : s.claim (s.me.reg a) = u.updCore u.cur (granted bs) := by
    simp only [u, ← hbs]
    rfl
  have hme : (u.updCore u.cur (granted bs)).me = granted bs u.me := State.me_updCore u _
  let v := u.updCore u.cur (fun x => (granted bs x).setReg d (BitVec.ofNat 64 (16 * bs.length)))
  refine (run_straight (s := s) (t := v) ?_ rfl).trans (congrArg Host.Outcome.next ?_)
  · simp only [Op.bind_apply, rd_apply, getMe_apply, h, Bool.false_eq_true, if_false, modState_apply, wr_apply, hclaim, hme,
      State.updCore_cur, State.updCore_updCore]
    rfl
  · refine (State.updCore_updCore u u.cur _ _).trans ?_
    simp only [Core.setReg_pc, Core.setReg_retired]
    rfl

/-- The acting core after it. -/
theorem me_granting (bs : List Nat) : (granting s d bs).me =
    { (granted bs s.me).setReg d (BitVec.ofNat 64 (16 * bs.length)) with pc := s.me.pc + 4, retired := s.me.retired + 1 } :=
  SystemRegister.me_after _ 4 _

theorem ens_granting (bs : List Nat) : (granting s d bs).ens (ensOf s.cur) = taking bs (s.ens (ensOf s.cur)) :=
  State.ens_setEns_self s _ _

theorem reg_granting (bs : List Nat) (r : Reg) : (granting s d bs).me.reg r =
    if r = 0 then 0 else if r = d then BitVec.ofNat 64 (16 * bs.length) else s.me.reg r := by
  rw [me_granting]
  exact SystemRegister.reg_setReg (granted bs s.me) d r _

/-- What a claim shows of the machine, in the words of R225. -/
theorem leaves_granting {bs : List Nat} {n : Nat} (hn : bs.length = n) :
    let t := granting s d bs
    t.me.blocks = bs ∧ t.me.vl = 16 * n ∧ (d ≠ 0 → t.me.reg d = BitVec.ofNat 64 (16 * n)) ∧ t.me.inst.claimed = true ∧
      (∀ r : Fin 32, t.me.vregs[r] = List.replicate (16 * n) 0) ∧ (∀ m : Fin 8, t.me.masks[m] = 0) ∧
      (∀ b < 16, (t.ens (ensOf s.cur)).taken.getLsbD b = ((s.ens (ensOf s.cur)).taken.getLsbD b || bs.contains b)) ∧
      (∀ r : Reg, r ≠ d → t.me.reg r = s.me.reg r) ∧ t.me.pc = s.me.pc + 4 ∧ SameMem s t := by
  subst hn
  refine ⟨?blocks, ?vl, fun hd => ?given, ?claimed, fun r => ?lanes, fun m => ?masks, fun b hb => ?pool, fun r hr => ?others,
    ?pc, fun _ => rfl⟩
  case given => rw [reg_granting, if_neg hd, if_pos rfl]
  case others =>
    rw [reg_granting, if_neg hr]
    split
    next h => rw [h]; rfl
    next => rfl
  case pool => rw [ens_granting, getLsbD_taking bs _ hb]
  all_goals simp [me_granting, granted]

end

/-- Settles O16: what the grant leaves, with its blocks as R225 counts them. -/
theorem laneClaim : Obligations.LaneClaim := by
  unfold Obligations.LaneClaim
  intro s d a
  refine ⟨vclaim_of_claimed s d a, fun h => ⟨_, vclaim_of_not_claimed s d a h (take_wantBlocks _ _), ?_⟩⟩
  exact leaves_granting s d (List.length_take_of_le (Nat.min_le_right _ _))

end Sys2Proof.LaneClaim

/-!
What the vector functions share (11 R226–R232): elements and lanes, sources and results, and how the shapes of a vector
function act with register operands.
-/
namespace Sys2Proof.VectorUnit
open Sys2Proof.Machine Sys2Proof.Claim

/-! ## Elements of a lane (R226) -/

theorem elem_lt (w l j : Nat) : elem w l j < 2 ^ w := Nat.mod_lt _ (Nat.two_pow_pos w)

theorem sum_map_zero (l : List Nat) : (l.map (fun _ => 0)).sum = 0 := by
  induction l with
  | nil => rfl
  | cons x l ih => rw [List.map_cons, List.sum_cons, ih]

theorem mul_sum_map (c : Nat) (f : Nat → Nat) (l : List Nat) : c * (l.map f).sum = (l.map (fun j => c * f j)).sum := by
  induction l with
  | nil => rfl
  | cons x l ih => rw [List.map_cons, List.sum_cons, Nat.mul_add, ih, List.map_cons, List.sum_cons]

/-- The elements of a list, each kept to w bits and at its place, with zeros above the last. -/
theorem foldr_elems_eq_sum (w : Nat) {xs : List Nat} {n : Nat} (h : xs.length ≤ n) :
    xs.foldr (fun x acc => x % 2 ^ w + 2 ^ w * acc) 0 =
      ((List.range n).map (fun j => xs.getD j 0 % 2 ^ w * 2 ^ (w * j))).sum := by
  induction xs generalizing n with
  | nil =>
    simp only [List.foldr_nil, List.getD_nil, Nat.zero_mod, Nat.zero_mul]
    exact (sum_map_zero _).symm
  | cons x xs ih =>
    obtain ⟨n, rfl⟩ : ∃ m, n = m + 1 := ⟨n - 1, by rw [List.length_cons] at h; omega⟩
    rw [List.foldr_cons, ih (Nat.le_of_succ_le_succ h), List.range_succ_eq_map, List.map_cons, List.sum_cons, List.map_map,
      mul_sum_map]
    congr 1
    · rw [List.getD_cons_zero, Nat.mul_zero, Nat.pow_zero, Nat.mul_one]
    · refine congrArg List.sum (List.map_congr_left fun j _ => ?_)
      simp only [Function.comp_apply, Nat.succ_eq_add_one, List.getD_cons_succ, Nat.mul_add, Nat.mul_one, Nat.pow_add]
      ac_rfl

theorem toNat_natCast_emod (x w : Nat) : ((x : Int) % 2 ^ w).toNat = x % 2 ^ w := by
  have h : (x : Int) % 2 ^ w = (x % 2 ^ w : Nat) := by push_cast; rfl
  rw [h, Int.toNat_natCast]

theorem packElems_eq_join {w : Nat} {xs : List Nat} (h : xs.length ≤ 32 / w) :
    packElems w xs = join w (fun j => (xs.getD j 0 : Nat)) := by
  simp only [packElems, join, foldr_elems_eq_sum w h, toNat_natCast_emod]

/-- A lane is its elements kept to w bits. -/
theorem join_congr {w : Nat} {f g : Nat → Int} (h : ∀ j < 32 / w, f j % 2 ^ w = g j % 2 ^ w) : join w f = join w g := by
  rw [join, join, List.map_congr_left fun j hj => by rw [h j (List.mem_range.1 hj)]]

/-- The elements of a list by their number, with zeros above the last, make its lane. -/
theorem packElems_map_range {w n : Nat} (hn : n ≤ 32 / w) {f : Nat → Nat} {g : Nat → Int}
    (h : ∀ j < n, (f j : Int) % 2 ^ w = g j % 2 ^ w) (hz : ∀ j < 32 / w, n ≤ j → g j = 0) :
    packElems w ((List.range n).map f) = join w g := by
  rw [packElems_eq_join (by simpa using hn)]
  refine join_congr fun j hj => ?_
  by_cases hjn : j < n
  · simp [hjn, h j hjn]
  · simp [hjn, hz j hj (Nat.not_lt.1 hjn)]

/-! ## Swizzles (02 R32) -/

theorem toNat_append_eq {m n : Nat} (x : BitVec m) (y : BitVec n) : (x ++ y).toNat = x.toNat * 2 ^ n + y.toNat := by
  rw [BitVec.toNat_append, ← Nat.shiftLeft_add_eq_or_of_lt y.isLt, Nat.shiftLeft_eq]

theorem toNat_byte (l : Lane) (k : Nat) : (l.extractLsb' (8 * k) 8).toNat = l.toNat / 256 ^ k % 256 := by
  rw [BitVec.extractLsb'_toNat, Nat.shiftRight_eq_div_pow, Nat.pow_mul]

theorem swizzleField (z : BitVec 8) (j : Nat) : fieldOf z (2 * j + 1) (2 * j) = z.toNat / 4 ^ j % 4 := by
  rw [fieldOf, BitVec.extractLsb'_toNat, Nat.shiftRight_eq_div_pow, Nat.pow_mul, show 2 * j + 1 + 1 - 2 * j = 2 by omega]

theorem toNat_swizzle (z : BitVec 8) (l : Lane) : (swizzle z l).toNat = swz z l := by
  simp only [swizzle, toNat_append_eq, toNat_byte, swizzleField, swz, List.range_succ, List.range_zero, List.map_append,
    List.map_cons, List.map_nil, List.sum_append, List.sum_cons, List.sum_nil]
  omega

theorem swizzle_zero (z : BitVec 8) : swizzle z 0 = 0 := by
  apply BitVec.eq_of_toNat_eq
  have h0 : (0 : Lane).toNat = 0 := rfl
  rw [toNat_swizzle, swz, h0]
  simp only [Nat.zero_div, Nat.zero_mod, Nat.zero_mul]
  exact sum_map_zero _

/-! ## Sources and results with register operands (R227–R229, R232) -/

@[simp] theorem length_vreg (x : Core) (r : Reg) : (x.vreg r).length = x.vl := by simp [Core.vreg]

theorem getD_vreg (x : Core) (r : Reg) (k : Nat) : (x.vreg r).getD k 0 = lane x r k := by
  rw [Core.vreg, lane]
  split
  next h => simp [h]
  next h => simp [h]

/-- The lanes that a field of an instruction names: a vector register's, swizzled, or none. -/
def source (k : SKind) (z : BitVec 8) (r : Reg) (x : Core) : List Lane := if k = .vec then (x.vreg r).map (swizzle z) else []

theorem getD_source {k : SKind} (hk : k = .vec) (z : BitVec 8) (r : Reg) (x : Core) (i : Nat) :
    (source k z r x).getD i 0 = swizzle z (lane x r i) := by
  rw [source, if_pos hk, ← getD_vreg, List.getD_eq_getElem?_getD, List.getD_eq_getElem?_getD, List.getElem?_map]
  cases (x.vreg r)[i]? with
  | none => exact (swizzle_zero z).symm
  | some l => rfl

theorem getD_source_of_ne {k : SKind} (hk : k ≠ .vec) (z : BitVec 8) (r : Reg) (x : Core) (i : Nat) :
    (source k z r x).getD i 0 = 0 := by
  rw [source, if_neg hk]
  rfl

/-- The core with the lanes of a vector register and flags written. -/
def writing (d : Reg) (ls : List Lane) (f : Flags) (x : Core) : Core :=
  { x.setVreg d ls with nflags := x.nflags ||| f.setWidth 64 }

theorem intoVector_eq_writing (d : Reg) (m : BitVec 3) (x : VxFields) (res : Core → Nat → Lane) (fl : Core → Nat → Flags)
    (c : Core) : intoVector d m x res fl c = writing d
      ((List.range c.vl).map (fun i => if on c m.toNat i then res c i else if x.zero = 1 then 0 else lane c d i))
      (orAll (((List.range c.vl).filter (on c m.toNat)).map (fl c))) c := rfl

theorem mergeLanes_vreg (active : Nat → Bool) (zero : BitVec 1) (x : Core) (d : Reg) (res : List Lane) :
    mergeLanes active zero (x.vreg d) res =
      (List.range x.vl).map (fun i => if active i then res.getD i 0 else if zero = 1 then 0 else lane x d i) := by
  simp only [mergeLanes, length_vreg, getD_vreg]

section
variable {v : VIns} {s : State}

theorem vecSources_apply (ha : v.x.qa = 0) (hb : v.x.qb = 0) :
    vecSources v s = .ok ((source (vspec v.op).a v.x.swza v.f.a s.me, source (vspec v.op).b v.x.swzb v.f.b s.me, []), s) := by
  have hs (z : BitVec 8) (r : Reg) (took : List (QKey × Copy)) :
      vecSource 0 z r took s = .ok (((s.me.vreg r).map (swizzle z), took), s) := by simp [vecSource]
  simp only [vecSources, ha, hb, source]
  by_cases h : (vspec v.op).a = .vec
  · by_cases h' : (vspec v.op).b = .vec
    · simp only [h, h', if_true, Op.bind_apply, hs, Op.pure_apply]
    · simp only [h, h', if_true, if_false, Op.bind_apply, hs, Op.pure_apply]
  · by_cases h' : (vspec v.op).b = .vec
    · simp only [h, h', if_true, if_false, Op.bind_apply, hs, Op.pure_apply]
    · simp only [h, h', if_false, Op.bind_apply, Op.pure_apply]

theorem removeNone (s : State) : [].forM removeItem s = .ok ((), s) := rfl

theorem vecOut_apply (hd : v.x.qd = 0) (active : Nat → Bool) (res : List Lane) (f : Flags) :
    vecOut v active res [] f s = .ok ((), s.setCore s.cur
      (writing v.f.d (mergeLanes active v.x.zero (s.me.vreg v.f.d) res) f s.me)) := by
  simp only [vecOut, hd, Op.bind_apply, getMe_apply, if_neg (by decide : ¬(0 : BitVec 1) = 1), modMe_apply, removeNone,
    raise_apply, State.updCore_cur, State.updCore_updCore]
  rfl

theorem needLanes_of_zero (h : s.me.vl = 0) : needLanes s = .error (.trap cLANES s.openDetail) := by
  simp [needLanes, h]

theorem needLanes_of_ne (h : s.me.vl ≠ 0) : needLanes s = .ok ((), s) := by
  simp [needLanes, check_of, h]

end

/-! ## How a shape acts -/

/-- A short form and its long form under VX run one function, at their lengths (02 R30, R32). -/
theorem onBoth_of {short : Instr} {op : VOp} {f : VFields} {P : Instr → Word → VxFields → Prop}
    (hs : ∀ s, exec short s = run (shortForm op f) s)
    (h : ∀ i len x, x.qd = 0 → x.qa = 0 → x.qb = 0 →
      (∀ s, exec i s = run (vecOp { op := op, f := f, x := x, len := len }) s) → P i len x) : OnBoth short op f P :=
  ⟨h _ _ _ rfl rfl rfl hs, fun x hd ha hb => h _ _ x hd ha hb fun _ => rfl⟩

section
variable {len : Word} {m : Op Unit} {s : State}

/-- An instruction that needs lanes takes LANES without (02 R42). -/
theorem run_needLanes_of_zero (h : s.me.vl = 0) :
    run (straight len (do needLanes; m)) s = .next (s.takeFault s.cur cLANES (Config.freeWord s.tick)) := by
  refine run_trap (straight_error ?_)
  rw [Op.bind_apply, needLanes_of_zero h]
  rfl

/-- With lanes, one that changes the core alone. -/
theorem run_needLanes_of_ne {f : Core → Core} (h : s.me.vl ≠ 0) (hm : m s = .ok ((), s.setCore s.cur (f s.me)))
    (hpc : (f s.me).pc = s.me.pc) (hret : (f s.me).retired = s.me.retired) :
    run (straight len (do needLanes; m)) s = .next (s.after len f) := by
  refine run_straight_core ?_ hpc hret
  rw [Op.bind_apply, needLanes_of_ne h]
  exact hm

end

/-- The flags of the lanes that are active. -/
theorem foldl_flags_eq_orAll (p : Nat → Bool) (g : Nat → Lane × Flags) (l : List Nat) :
    (l.map (fun i => if p i then g i else (0, 0))).foldl (fun f r => f ||| r.2) (0 : Flags) =
      orAll ((l.filter p).map (fun i => (g i).2)) := by
  suffices ∀ z : Flags, (l.map (fun i => if p i then g i else (0, 0))).foldl (fun f r => f ||| r.2) z =
      ((l.filter p).map (fun i => (g i).2)).foldl (· ||| ·) z from this 0
  induction l with
  | nil => exact fun _ => rfl
  | cons i l ih =>
    intro z
    cases h : p i with
    | false => simpa [h] using ih z
    | true => simpa [h] using ih (z ||| (g i).2)

/-- Active lanes that come lane by lane from the sources and the old destination. -/
theorem run_perLane {v : VIns} {g : Lane → Lane → Lane → Lane × Flags} {res : Core → Nat → Lane} {fl : Core → Nat → Flags}
    {s : State} (hd : v.x.qd = 0) (ha : v.x.qa = 0) (hb : v.x.qb = 0) (h : s.me.vl ≠ 0)
    (hg : ∀ k, g ((source (vspec v.op).a v.x.swza v.f.a s.me).getD k 0) ((source (vspec v.op).b v.x.swzb v.f.b s.me).getD k 0)
      (lane s.me v.f.d k) = (res s.me k, fl s.me k)) :
    run (perLane v g) s = .next (s.after v.len (intoVector v.f.d v.f.m v.x res fl)) := by
  refine run_needLanes_of_ne h ?_ rfl rfl
  simp only [Op.bind_apply, vecSources_apply ha hb, getMe_apply, vecOut_apply hd, getD_vreg, hg, foldl_flags_eq_orAll,
    mergeLanes_vreg, intoVector_eq_writing]
  congr 4
  refine List.map_congr_left fun k hk => ?_
  have hon : s.me.active v k = on s.me v.f.m.toNat k := rfl
  cases h : on s.me v.f.m.toNat k <;> simp [hon, h, List.mem_range.1 hk]

theorem acts_of_perLane {i : Instr} {v : VIns} {g : Core → Lane → Lane → Lane → Lane × Flags} {res : Core → Nat → Lane}
    {fl : Core → Nat → Flags} (hd : v.x.qd = 0) (ha : v.x.qa = 0) (hb : v.x.qb = 0)
    (hi : ∀ s, exec i s = run (perLane v (g s.me)) s)
    (hg : ∀ c k, g c ((source (vspec v.op).a v.x.swza v.f.a c).getD k 0) ((source (vspec v.op).b v.x.swzb v.f.b c).getD k 0)
      (lane c v.f.d k) = (res c k, fl c k)) : Acts i v.len (intoVector v.f.d v.f.m v.x res fl) := fun s =>
  ⟨fun h => (hi s).trans (run_needLanes_of_zero h), fun h => (hi s).trans (run_perLane hd ha hb h (hg s.me))⟩

/-! ## Functions of elements -/

/-- A value of an element and its flags, kept to w bits. -/
def SameElem (w : Nat) (p : Nat × Flags) (q : Int × Flags) : Prop := (p.1 : Int) % 2 ^ w = q.1 % 2 ^ w ∧ p.2 = q.2

theorem foldl_snd_eq_orAll {α : Type} (l : List (α × Flags)) : l.foldl (fun f r => f ||| r.2) 0 = orAll (l.map (·.2)) := by
  rw [orAll, List.foldl_map]

theorem laneOf_eq {w : Nat} {g : Nat → Nat → Nat → Nat × Flags} {a b d : Lane} {at_ : Nat → Int × Flags}
    (h : ∀ j < 32 / w, SameElem w (g (elem w a.toNat j) (elem w b.toNat j) (elem w d.toNat j)) (at_ j)) :
    laneOf w g a b d = (join w (fun j => (at_ j).1), orAll ((List.range (32 / w)).map (fun j => (at_ j).2))) := by
  refine Prod.ext ?_ ?_
  · rw [laneOf, List.map_map]
    exact packElems_map_range (Nat.le_refl _) (fun j hj => (h j hj).1) (fun j hj hn => absurd hj (Nat.not_lt.2 hn))
  · simp only [laneOf, foldl_snd_eq_orAll, List.map_map]
    exact congrArg orAll (List.map_congr_left fun j hj => (h j (List.mem_range.1 hj)).2)

/-- An elementwise instruction; `hy`: its second source is a vector, or it has none and looks at none. -/
theorem acts_of_perElem {i : Instr} {v : VIns} {w : Nat} {g : Core → Nat → Nat → Nat → Nat × Flags}
    {at_ : Core → Nat → Nat → Int × Flags} (hd : v.x.qd = 0) (ha : v.x.qa = 0) (hb : v.x.qb = 0) (hw : v.w = w)
    (hvec : (vspec v.op).a = .vec) (hy : (vspec v.op).b = .vec ∨ ∀ c x y d, g c x 0 d = g c x y d)
    (hi : ∀ s, exec i s = run (perElem v (g s.me)) s)
    (hg : ∀ c k, ∀ j < 32 / w, SameElem w (g c (elem w (swz v.x.swza (lane c v.f.a k)) j)
      (elem w (swz v.x.swzb (lane c v.f.b k)) j) (elem w (lane c v.f.d k).toNat j)) (at_ c k j)) :
    Acts i v.len (intoVector v.f.d v.f.m v.x (fun c k => join w (fun j => (at_ c k j).1))
      (fun c k => orAll ((List.range (32 / w)).map (fun j => (at_ c k j).2)))) := by
  subst hw
  refine acts_of_perLane (g := fun c => laneOf v.w (g c)) hd ha hb hi fun c k => ?_
  refine laneOf_eq fun j hj => ?_
  rw [getD_source hvec, toNat_swizzle]
  by_cases h : (vspec v.op).b = .vec
  · rw [getD_source h, toNat_swizzle]
    exact hg c k j hj
  · rw [getD_source_of_ne h, show elem v.w (0 : Lane).toNat j = 0 by simp [elem], hy.resolve_left h]
    exact hg c k j hj

end Sys2Proof.VectorUnit

/-!
Tables 11.1 and 11.2 (11 R233, R234): each integer function of elements, kept to their width, is the table's arithmetic on
their views.
-/
namespace Sys2Proof.VectorUnit
open Sys2Proof.Machine Sys2Proof.Claim

/-! ## Views of an element -/

theorem signedOf_eq_sext {w x : Nat} (h : x < 2 ^ w) : signedOf w x = sext w x := by
  simp only [signedOf, sext, Nat.mod_eq_of_lt h]

theorem intCode_emod (w : Nat) (i : Int) : (intCode w i : Int) % 2 ^ w = i % 2 ^ w := by
  have h : 0 ≤ i % 2 ^ w := Int.emod_nonneg _ (Int.pow_ne_zero (by decide))
  rw [intCode, Int.toNat_of_nonneg h, Int.emod_emod]

theorem minInt_eq_min (x y : Int) : minInt x y = min x y := by
  rw [minInt, Int.min_def]

theorem maxInt_eq_max (x y : Int) : maxInt x y = max x y := by
  rw [maxInt, Int.max_def]

theorem shiftDown_eq_fdiv (x : Int) (k : Nat) : shiftDown x k = x.fdiv (2 ^ k) :=
  (Int.fdiv_eq_ediv_of_nonneg _ (Int.pow_nonneg (by decide))).symm

/-! ## Results of an element -/

theorem sameElem_plain {w n : Nat} {r : Int} (h : (n : Int) % 2 ^ w = r % 2 ^ w) : SameElem w (n, 0) (plain r) := ⟨h, rfl⟩

theorem sameElem_clampInt (w : Nat) {lo hi : Int} (h : lo ≤ hi) (r : Int) :
    SameElem w (clampInt w lo hi r) (clampTo lo hi r) := by
  by_cases h1 : hi < r
  · rw [clampInt, clampTo, if_pos h1, if_neg (by omega), if_pos h1]
    exact ⟨intCode_emod w _, rfl⟩
  · by_cases h2 : r < lo
    · rw [clampInt, clampTo, if_neg h1, if_pos h2, if_pos h2]
      exact ⟨intCode_emod w _, rfl⟩
    · rw [clampInt, clampTo, if_neg h1, if_neg h2, if_neg h2, if_neg h1]
      exact ⟨intCode_emod w _, rfl⟩

theorem sameElem_clampSigned (w : Nat) (r : Int) :
    SameElem w (clampSigned w r) (clampTo (-2 ^ (w - 1)) (2 ^ (w - 1) - 1) r) :=
  sameElem_clampInt w (by have : (0 : Int) < 2 ^ (w - 1) := Int.pow_pos (by decide); omega) r

theorem sameElem_clampUnsigned (w : Nat) (r : Int) : SameElem w (clampUnsigned w r) (clampTo 0 (2 ^ w - 1) r) :=
  sameElem_clampInt w (by have : (0 : Int) < 2 ^ w := Int.pow_pos (by decide); omega) r

/-! ## Rows of the tables -/

/-- An integer function of the elements acts elementwise. -/
theorem elementwise_of {i : Instr} {v : VIns} {h : Nat → Nat → Nat → Nat × Flags} {g : Nat → Nat → Nat → Int × Flags}
    (hd : v.x.qd = 0) (ha : v.x.qa = 0) (hb : v.x.qb = 0) (hvec : (vspec v.op).a = .vec)
    (hy : (vspec v.op).b = .vec ∨ ∀ x y d, h x 0 d = h x y d) (hi : ∀ s, exec i s = run (perElem v h) s)
    (hg : ∀ x y d, x < 2 ^ v.w → y < 2 ^ v.w → SameElem v.w (h x y d) (g x y d)) :
    Elementwise v.f.d v.f.a v.f.b v.f.m v.w g i v.len v.x :=
  acts_of_perElem (g := fun _ => h) (at_ := fun c k j => g (elem v.w (swz v.x.swza (lane c v.f.a k)) j)
      (elem v.w (swz v.x.swzb (lane c v.f.b k)) j) (elem v.w (lane c v.f.d k).toNat j))
    hd ha hb rfl hvec (hy.imp_right fun h _ => h) hi fun _ _ _ _ => hg _ _ _ (elem_lt _ _ _) (elem_lt _ _ _)

section
variable {op : VOp} {i : Reg → Reg → Reg → BitVec 3 → BitVec 2 → Instr}

/-- A row of one source. What the function is in the model, and which fields it has, is so by definition. -/
theorem intRow1_of {i : Reg → Reg → BitVec 3 → BitVec 2 → Instr} (h : Nat → Nat → Nat) {g : Nat → Nat → Int}
    (hg : ∀ w x, x < 2 ^ w → (h w x : Int) % 2 ^ w = g w x % 2 ^ w) (hvec : (vspec op).a = .vec := by rfl)
    (hs : ∀ d a m e s, exec (i d a m e) s = run (shortForm op ⟨d, a, 0, m, e, 0, 0⟩) s := by intros; rfl)
    (hv : ∀ f x len, vecOp ⟨op, f, x, len⟩ = perUnsigned ⟨op, f, x, len⟩ (fun x _ => h (elemBits f.e) x) := by intros; rfl) :
    IntRow1 op i g := fun d a m e =>
  onBoth_of (hs d a m e) fun _ len x hd ha hb hi =>
    elementwise_of (v := ⟨op, ⟨d, a, 0, m, e, 0, 0⟩, x, len⟩) (h := fun x _ _ => (h (elemBits e) x, 0)) hd ha hb hvec
      (.inr fun _ _ _ => rfl) (fun s => by rw [hi, hv]; rfl) fun x _ _ hx _ => sameElem_plain (hg _ x hx)

/-- A row of two sources. -/
theorem intRow_of (h : Nat → Nat → Nat → Nat → Nat × Flags) {g : Nat → Nat → Nat → Nat → Int × Flags}
    (hg : ∀ w x y d, x < 2 ^ w → y < 2 ^ w → SameElem w (h w x y d) (g w x y d))
    (hvec : (vspec op).a = .vec := by rfl) (hvec' : (vspec op).b = .vec := by rfl)
    (hs : ∀ d a b m e s, exec (i d a b m e) s = run (shortForm op ⟨d, a, b, m, e, 0, 0⟩) s := by intros; rfl)
    (hv : ∀ f x len, vecOp ⟨op, f, x, len⟩ = perElem ⟨op, f, x, len⟩ (h (elemBits f.e)) := by intros; rfl) :
    IntRow op i g := fun d a b m e =>
  onBoth_of (hs d a b m e) fun _ len x hd ha hb hi =>
    elementwise_of (v := ⟨op, ⟨d, a, b, m, e, 0, 0⟩, x, len⟩) (h := h (elemBits e)) hd ha hb hvec (.inl hvec')
      (fun s => by rw [hi, hv]) (hg _)

/-- A row of the unsigned views, with no flag. -/
theorem intRow_of_unsigned (h : Nat → Nat → Nat → Nat) {r : Nat → Nat → Nat → Int}
    (hg : ∀ w x y, x < 2 ^ w → y < 2 ^ w → (h w x y : Int) % 2 ^ w = r w x y % 2 ^ w)
    (hvec : (vspec op).a = .vec := by rfl) (hvec' : (vspec op).b = .vec := by rfl)
    (hs : ∀ d a b m e s, exec (i d a b m e) s = run (shortForm op ⟨d, a, b, m, e, 0, 0⟩) s := by intros; rfl)
    (hv : ∀ f x len, vecOp ⟨op, f, x, len⟩ = perUnsigned ⟨op, f, x, len⟩ (h (elemBits f.e)) := by intros; rfl) :
    IntRow op i (fun w x y _ => plain (r w x y)) :=
  intRow_of (fun w x y _ => (h w x y, 0)) (fun w x y _ hx hy => sameElem_plain (hg w x y hx hy)) hvec hvec' hs hv

/-- A row of the signed views, with no flag. -/
theorem intRow_of_signed (h : Nat → Int → Int → Int) {r : Nat → Int → Int → Int} (hg : ∀ w x y, h w x y = r w x y)
    (hvec : (vspec op).a = .vec := by rfl) (hvec' : (vspec op).b = .vec := by rfl)
    (hs : ∀ d a b m e s, exec (i d a b m e) s = run (shortForm op ⟨d, a, b, m, e, 0, 0⟩) s := by intros; rfl)
    (hv : ∀ f x len, vecOp ⟨op, f, x, len⟩ = perSigned ⟨op, f, x, len⟩ (h (elemBits f.e)) := by intros; rfl) :
    IntRow op i (fun w x y _ => plain (r w (sext w x) (sext w y))) :=
  intRow_of (fun w x y _ => (intCode w (h w (signedOf w x) (signedOf w y)), 0)) (fun w x y _ hx hy =>
    sameElem_plain (by rw [intCode_emod, hg, signedOf_eq_sext hx, signedOf_eq_sext hy])) hvec hvec' hs hv

end

/-! ## Bits -/

theorem xor_ones {w y : Nat} (h : y < 2 ^ w) : y ^^^ (2 ^ w - 1) = 2 ^ w - 1 - y := by
  rw [Nat.sub_sub, Nat.add_comm 1 y]
  refine Nat.eq_of_testBit_eq fun k => ?_
  rw [Nat.testBit_xor, Nat.testBit_two_pow_sub_one, Nat.testBit_two_pow_sub_succ h]
  by_cases hk : k < w
  · simp [hk]
  · simp [hk, Nat.testBit_lt_two_pow (Nat.lt_of_lt_of_le h (Nat.pow_le_pow_right (by decide) (Nat.not_lt.1 hk)))]

theorem popBits_eq_count (w x : Nat) : popBits w x = (bitsOf w x).count true := by
  induction w with
  | zero => rfl
  | succ w ih =>
    rw [popBits, List.range_succ, List.foldl_append, ← popBits, ih, Scalar.bitsOf_succ, List.count_append,
      Nat.testBit_eq_decide_div_mod_eq]
    rcases Nat.mod_two_eq_zero_or_one (x / 2 ^ w) with h | h <;> simp [h]

theorem leadZeros_eq_length {w x : Nat} (h : x < 2 ^ w) :
    leadZeros w x = ((bitsOf w x).reverse.takeWhile (!·)).length := by
  rw [Scalar.leadingZeros_eq w x h, leadZeros]

/-! ## The tables -/

/-- Tables 11.1 and 11.2, row by row. -/
theorem vectorInteger : VectorInteger := by
  refine ⟨?vadd, ?vsub, ?vmul, ?vmulh, ?vmulhu, ?vmin, ?vmax, ?vminu, ?vmaxu, ?vadds, ?vsubs, ?vaddsn, ?vsubsn, ?vabsd, ?vavg,
    ?vmac, ?vand, ?vor, ?vxor, ?vandn, ?vsll, ?vsrl, ?vsra, ?vrol, ?vnot, ?vpopc, ?vclz⟩
  case vadd => exact intRow_of_unsigned (fun _ x y => x + y) (by intros; rfl)
  case vsub =>
    refine intRow_of_unsigned (fun w x y => x + 2 ^ w - y) fun w x y _ hy => ?_
    have h : ((x + 2 ^ w - y : Nat) : Int) = (x - y : Int) + 2 ^ w := by
      rw [Int.natCast_sub (by omega), Int.natCast_add, Int.natCast_pow]
      show (x : Int) + 2 ^ w - y = x - y + 2 ^ w
      omega
    rw [h, Int.add_emod_right]
  case vmul => exact intRow_of_unsigned (fun _ x y => x * y) (by intros; rfl)
  case vmulh =>
    exact intRow_of_signed (fun w p q => shiftDown (p * q) w) (r := fun w p q => (p * q).fdiv (2 ^ w))
      fun _ _ _ => shiftDown_eq_fdiv _ _
  case vmulhu => exact intRow_of_unsigned (fun w x y => x * y / 2 ^ w) (by intros; rfl)
  case vmin => exact intRow_of_signed (fun _ => minInt) (r := fun _ => min) fun _ => minInt_eq_min
  case vmax => exact intRow_of_signed (fun _ => maxInt) (r := fun _ => max) fun _ => maxInt_eq_max
  case vminu => exact intRow_of_unsigned (fun _ x y => if x ≤ y then x else y) fun _ _ _ _ _ => by rw [Nat.min_def]
  case vmaxu => exact intRow_of_unsigned (fun _ x y => if x ≤ y then y else x) fun _ _ _ _ _ => by rw [Nat.max_def]
  case vadds =>
    refine intRow_of (fun w x y _ => clampSigned w (signedOf w x + signedOf w y)) fun w x y _ hx hy => ?_
    rw [signedOf_eq_sext hx, signedOf_eq_sext hy]
    exact sameElem_clampSigned w _
  case vsubs =>
    refine intRow_of (fun w x y _ => clampSigned w (signedOf w x - signedOf w y)) fun w x y _ hx hy => ?_
    rw [signedOf_eq_sext hx, signedOf_eq_sext hy]
    exact sameElem_clampSigned w _
  case vaddsn =>
    exact intRow_of (fun w x y _ => clampUnsigned w ((x : Int) + y)) fun w _ _ _ _ _ => sameElem_clampUnsigned w _
  case vsubsn =>
    exact intRow_of (fun w x y _ => clampUnsigned w ((x : Int) - y)) fun w _ _ _ _ _ => sameElem_clampUnsigned w _
  case vabsd => exact intRow_of_signed (fun _ p q => (p - q).natAbs) (r := fun _ p q => (p - q).natAbs) (by intros; rfl)
  case vavg =>
    exact intRow_of_signed (fun _ p q => shiftDown (p + q + 1) 1) (r := fun _ p q => (p + q + 1).fdiv 2)
      fun _ _ _ => shiftDown_eq_fdiv _ 1
  case vmac => exact intRow_of (fun _ x y d => (d + x * y, 0)) fun _ _ _ _ _ _ => sameElem_plain rfl
  case vand => exact intRow_of_unsigned (fun _ x y => x &&& y) (by intros; rfl)
  case vor => exact intRow_of_unsigned (fun _ x y => x ||| y) (by intros; rfl)
  case vxor => exact intRow_of_unsigned (fun _ x y => x ^^^ y) (by intros; rfl)
  case vandn => exact intRow_of_unsigned (fun w x y => x &&& (2 ^ w - 1 - y)) fun _ _ _ _ hy => by rw [xor_ones hy]
  case vsll => exact intRow_of_unsigned (fun w x y => x * 2 ^ (y % w)) (by intros; rfl)
  case vsrl => exact intRow_of_unsigned (fun w x y => x / 2 ^ (y % w)) (by intros; rfl)
  case vsra =>
    refine intRow_of (fun w x y _ => (intCode w (shiftDown (signedOf w x) (y % w)), 0)) fun w x y _ hx _ => sameElem_plain ?_
    rw [intCode_emod, shiftDown_eq_fdiv, signedOf_eq_sext hx]
  case vrol => exact intRow_of_unsigned (fun w x y => x * 2 ^ (y % w) + x / 2 ^ (w - y % w)) (by intros; rfl)
  case vnot => exact intRow1_of (fun w x => 2 ^ w - 1 - x) fun _ _ hx => by rw [xor_ones hx]
  case vpopc => exact intRow1_of popBits fun _ _ _ => by rw [popBits_eq_count]
  case vclz => exact intRow1_of leadZeros fun _ _ hx => by rw [leadZeros_eq_length hx]

end Sys2Proof.VectorUnit

/-!
Table 11.3 (11 R235): the float functions on decoded elements, in the three formats they have, each result rounded once.
-/
namespace Sys2Proof.VectorUnit
open Sys2Proof.Machine Sys2Proof.Claim

/-! ## Values whose only difference is the sign of a NaN -/

/-- A format with infinities and NaNs has one code for a NaN (03 R64). -/
theorem encodeNum_canon {f : Fmt} (hf : f.ieee = true) (md : Modes) (x : Num) : encodeNum f md (canon x) = encodeNum f md x := by
  cases x with
  | nan n =>
    have h : ¬(f = .t6 ∨ f = .k4) := by rintro (rfl | rfl) <;> cases hf
    show encodeNum f md (.nan false) = _
    simp only [encodeNum, if_neg h]
  | inf n => rfl
  | fin n m e => rfl

theorem isNan_nan (n : Bool) : (Num.nan n).isNan = true := rfl

/-- Table 11.3's smaller and larger value: the model's choice, but for the sign of a NaN that both are. -/
theorem canon_pickNum_false (x y : Num) : canon (pickNum false x y) = canon (smaller x y) := by
  cases hx : x.isNan <;> cases hy : y.isNan
  · simp only [pickNum, smaller, eqNum, hx, hy]
    cases ltNum x y <;> cases ltNum y x <;> simp
  all_goals simp [pickNum, smaller, hx, hy, canon, isNan_nan]

theorem canon_pickNum_true (x y : Num) : canon (pickNum true x y) = canon (larger x y) := by
  cases hx : x.isNan <;> cases hy : y.isNan
  · simp only [pickNum, larger, eqNum, hx, hy]
    cases ltNum x y <;> cases ltNum y x <;> cases x.isNeg <;> cases y.isNeg <;> simp
  all_goals simp [pickNum, larger, hx, hy, canon, isNan_nan]

theorem once_zero (f : Fmt) (md : Modes) (x : Num) : once f md (x, 0) = encodeNum f md x := by
  simp [once]

/-! ## Formats of the elements -/

theorem elemBits_setWidth (e : BitVec 1) : elemBits (e.setWidth 2) = 32 / 2 ^ e.toNat := by
  rw [elemBits, BitVec.toNat_setWidth_of_le (by decide)]

theorem fmt_eq_floatFmt (op : VOp) (d a b : Reg) (m : BitVec 3) (e : BitVec 1) (x : VxFields) (len : Word) :
    VIns.fmt ⟨op, ⟨d, a, b, m, e.setWidth 2, 0, 0⟩, x, len⟩ = floatFmt e x := by
  obtain rfl | rfl := BitVec.eq_zero_or_eq_one e <;> rfl

theorem ieee_floatFmt (e : BitVec 1) (x : VxFields) : (floatFmt e x).ieee = true := by
  rw [floatFmt]
  split
  · rfl
  · split <;> rfl

/-! ## The shape of a float function -/

/-- A float function of the elements: decoded operands, of those it has, and their flags with the result's. -/
def floatElem (f : Fmt) (md : Modes) (two three : Bool) (g : Num → Num → Num → Nat × Flags) (x y d : Nat) : Nat × Flags :=
  let p := decodeNum md f x
  let q := if two then decodeNum md f y else (Num.zero false, 0)
  let o := if three then decodeNum md f d else (Num.zero false, 0)
  ((g p.1 q.1 o.1).1, (g p.1 q.1 o.1).2 ||| p.2 ||| q.2 ||| o.2)

theorem run_congr {m n : Op Unit} {s : State} (h : m s = n s) : run m s = run n s := by rw [run, run, settle, settle, h]

theorem perFloat_apply (v : VIns) (g : Modes → Num → Num → Num → Nat × Flags) (s : State) :
    perFloat v g s = perElem v (floatElem v.fmt (modesOf s.me.nmode) ((vspec v.op).b == .vec) ((vspec v.op).d == .acc)
      (g (modesOf s.me.nmode))) s := by
  rw [perFloat, Op.bind_apply, modes_apply]
  rfl

/-- A float function of the elements in both forms. -/
theorem onBoth_of_perFloat {short : Instr} {op : VOp} {d a b : Reg} {m : BitVec 3} {e : BitVec 1}
    {g : Fmt → Modes → Num → Num → Num → Nat × Flags} {at_ : VxFields → Core → Nat → Nat → Int × Flags}
    (hvec : (vspec op).a = .vec) (hs : ∀ s, exec short s = run (shortForm op ⟨d, a, b, m, e.setWidth 2, 0, 0⟩) s)
    (hv : ∀ x len, let v : VIns := ⟨op, ⟨d, a, b, m, e.setWidth 2, 0, 0⟩, x, len⟩; vecOp v = perFloat v (g v.fmt))
    (hg : ∀ x c k j, SameElem (32 / 2 ^ e.toNat) (floatElem (floatFmt e x) (modesOf c.nmode) ((vspec op).b == .vec)
      ((vspec op).d == .acc) (g (floatFmt e x) (modesOf c.nmode)) (elem (32 / 2 ^ e.toNat) (swz x.swza (lane c a k)) j)
      (elem (32 / 2 ^ e.toNat) (swz x.swzb (lane c b k)) j) (elem (32 / 2 ^ e.toNat) (lane c d k).toNat j)) (at_ x c k j)) :
    OnBoth short op ⟨d, a, b, m, e.setWidth 2, 0, 0⟩ (fun i len x =>
      Acts i len (intoVector d m x (fun c k => join (32 / 2 ^ e.toNat) (fun j => (at_ x c k j).1))
        (fun c k => orAll ((List.range (32 / (32 / 2 ^ e.toNat))).map (fun j => (at_ x c k j).2))))) := by
  refine onBoth_of hs fun i len x hqd hqa hqb hi => ?_
  let v : VIns := ⟨op, ⟨d, a, b, m, e.setWidth 2, 0, 0⟩, x, len⟩
  refine acts_of_perElem (v := v) (g := fun c => floatElem (floatFmt e x) (modesOf c.nmode) ((vspec op).b == .vec)
    ((vspec op).d == .acc) (g (floatFmt e x) (modesOf c.nmode))) hqd hqa hqb (elemBits_setWidth e) hvec ?_ (fun s => ?_)
    fun c k j _ => hg x c k j
  · by_cases h : (vspec op).b = .vec
    · exact .inl h
    · exact .inr fun _ _ _ _ => by simp only [floatElem, beq_eq_false_iff_ne.2 h, Bool.false_eq_true, if_false]
  · rw [hi, hv, ← fmt_eq_floatFmt op d a b m e x len]
    exact run_congr (perFloat_apply v _ s)

section
variable {op : VOp}

/-- A row of one source. What the function is in the model, and which fields it has, is so by definition. -/
theorem floatRow1_of {i : Reg → Reg → BitVec 3 → BitVec 1 → Instr} (h : Fmt → Modes → Num → Num → Num → Nat × Flags)
    {g : Fmt → Modes → Num → Nat × Flags} (hg : ∀ f md x y d, f.ieee = true → h f md x y d = g f md x)
    (hvec : (vspec op).a = .vec := by rfl) (hb : ((vspec op).b == .vec) = false := by rfl)
    (hd : ((vspec op).d == .acc) = false := by rfl)
    (hs : ∀ d a m e s, exec (i d a m e) s = run (shortForm op ⟨d, a, 0, m, e.setWidth 2, 0, 0⟩) s := by intros; rfl)
    (hv : ∀ d a m (e : BitVec 1) x len, let v : VIns := ⟨op, ⟨d, a, 0, m, e.setWidth 2, 0, 0⟩, x, len⟩
      vecOp v = perFloat v (h v.fmt) := by intros; rfl) :
    FloatRow1 op i g := fun d a m e => onBoth_of_perFloat hvec (hs d a m e) (hv d a m e) fun x c k j => by
  simp [SameElem, floatElem, hb, hd, hg _ _ _ _ _ (ieee_floatFmt e x), asElem, orAll]

/-- A row of two sources. -/
theorem floatRow2_of {i : Reg → Reg → Reg → BitVec 3 → BitVec 1 → Instr} (h : Fmt → Modes → Num → Num → Num → Nat × Flags)
    {g : Fmt → Modes → Num → Num → Nat × Flags} (hg : ∀ f md x y d, f.ieee = true → h f md x y d = g f md x y)
    (hvec : (vspec op).a = .vec := by rfl) (hb : ((vspec op).b == .vec) = true := by rfl)
    (hd : ((vspec op).d == .acc) = false := by rfl)
    (hs : ∀ d a b m e s, exec (i d a b m e) s = run (shortForm op ⟨d, a, b, m, e.setWidth 2, 0, 0⟩) s := by intros; rfl)
    (hv : ∀ f x len, vecOp ⟨op, f, x, len⟩ = perFloat ⟨op, f, x, len⟩ (h (VIns.fmt ⟨op, f, x, len⟩)) := by intros; rfl) :
    FloatRow2 op i g := fun d a b m e => onBoth_of_perFloat hvec (hs d a b m e) (fun x len => hv _ x len) fun x c k j => by
  simp [SameElem, floatElem, hb, hd, hg _ _ _ _ _ (ieee_floatFmt e x), asElem, orAll]

/-- A row of two sources and the destination. -/
theorem floatRow3_of {i : Reg → Reg → Reg → BitVec 3 → BitVec 1 → Instr} (g : Modes → Num → Num → Num → Num × Flags)
    (hvec : (vspec op).a = .vec := by rfl) (hb : ((vspec op).b == .vec) = true := by rfl)
    (hd : ((vspec op).d == .acc) = true := by rfl)
    (hs : ∀ d a b m e s, exec (i d a b m e) s = run (shortForm op ⟨d, a, b, m, e.setWidth 2, 0, 0⟩) s := by intros; rfl)
    (hv : ∀ f x len, vecOp ⟨op, f, x, len⟩ = perFloat ⟨op, f, x, len⟩ (fun md x' y d =>
      once (VIns.fmt ⟨op, f, x, len⟩) md (g md x' y d)) := by intros; rfl) :
    FloatRow3 op i g := fun d a b m e =>
  onBoth_of_perFloat (g := fun f md x y d => once f md (g md x y d)) hvec (hs d a b m e) (fun x len => hv _ x len) fun x c k j => by
    simp [SameElem, floatElem, hb, hd, asElem, orAll]

end

/-! ## The table -/

/-- Table 11.3, row by row. -/
theorem vectorFloat : VectorFloat := by
  refine ⟨?vfadd, ?vfsub, ?vfmul, ?vfma, ?vfms, ?vfnma, ?vfmin, ?vfmax, ?vfabs, ?vfneg, ?vfdiv, ?vfsqrt⟩
  case vfadd => exact floatRow2_of (fun f md x y _ => once f md (addNum md.rm x y)) (by intros; rfl)
  case vfsub => exact floatRow2_of (fun f md x y _ => once f md (addNum md.rm x y.negate)) (by intros; rfl)
  case vfmul => exact floatRow2_of (fun f md x y _ => once f md (mulNum x y)) (by intros; rfl)
  case vfma => exact floatRow3_of (fun md x y d => fmaNum md.rm x y d)
  case vfms => exact floatRow3_of (fun md x y d => fmaNum md.rm x y d.negate)
  case vfnma => exact floatRow3_of (fun md x y d => fmaNum md.rm x.negate y d)
  case vfmin =>
    refine floatRow2_of (fun f md x y _ => once f md (pickNum false x y, 0)) fun f md x y _ hf => ?_
    rw [once_zero, ← encodeNum_canon hf, canon_pickNum_false, encodeNum_canon hf]
  case vfmax =>
    refine floatRow2_of (fun f md x y _ => once f md (pickNum true x y, 0)) fun f md x y _ hf => ?_
    rw [once_zero, ← encodeNum_canon hf, canon_pickNum_true, encodeNum_canon hf]
  case vfabs =>
    refine floatRow1_of (fun f md x _ _ => once f md (canon x.absNum, 0)) fun f md x _ _ hf => ?_
    rw [once_zero, encodeNum_canon hf]
  case vfneg =>
    refine floatRow1_of (fun f md x _ _ => once f md (canon x.negate, 0)) fun f md x _ _ hf => ?_
    rw [once_zero, encodeNum_canon hf]
  case vfdiv => exact floatRow2_of fdiv (by intros; rfl)
  case vfsqrt => exact floatRow1_of fsqrt (by intros; rfl)

/-- Settles O34: the tables of the integer and of the float functions, row by row. -/
theorem vectorArithmetic : Obligations.VectorArithmetic := by
  unfold Obligations.VectorArithmetic
  exact ⟨vectorInteger, vectorFloat⟩

end Sys2Proof.VectorUnit

/-!
Table 11.6 (11 R239): a reduction is a fold of the elements of the active lanes, in any order for the integer ones.
-/
namespace Sys2Proof.VectorUnit
open Sys2Proof.Machine Sys2Proof.Claim

/-! ## The shape of a reduction -/

theorem orAll_cons (f : Flags) (l : List Flags) : orAll (f :: l) = f ||| orAll l := by
  rw [orAll, orAll, List.foldl_cons]
  suffices ∀ z : Flags, l.foldl (· ||| ·) (z ||| f) = f ||| l.foldl (· ||| ·) z from this 0
  induction l with
  | nil => exact fun z => BitVec.or_comm z f
  | cons g l ih =>
    intro z
    rw [List.foldl_cons, List.foldl_cons, BitVec.or_assoc, BitVec.or_comm f g, ← BitVec.or_assoc, ih]

/-- The core with a register and flags written. -/
def scalarOut (d : Reg) (r : Word × Flags) (c : Core) : Core := { c.setReg d r.1 with nflags := c.nflags ||| r.2.setWidth 64 }

theorem scalarOut_zero (d : Reg) (r : Word) (c : Core) : scalarOut d (r, 0) c = c.setReg d r := by
  have h : c.nflags ||| (0 : Flags).setWidth 64 = (c.setReg d r).nflags := by simp
  rw [scalarOut, h]

theorem flatMap_ite {α β : Type} (p : α → Bool) (f : α → List β) (l : List α) :
    l.flatMap (fun i => if p i then f i else []) = (l.filter p).flatMap f := by
  induction l with
  | nil => rfl
  | cons x l ih => cases h : p x <;> simp [h, ih]

theorem lt_of_mem_activeElems {c : Core} {m : BitVec 3} {w : Nat} {z : BitVec 8} {a : Reg} {x : Nat}
    (h : x ∈ activeElems c m w z a) : x < 2 ^ w := by
  obtain ⟨i, -, h⟩ := List.mem_flatMap.1 h
  obtain ⟨j, -, rfl⟩ := List.mem_map.1 h
  exact elem_lt _ _ _

theorem acts_congr {i : Instr} {len : Word} {f g : Core → Core} (h : Acts i len f) (hfg : ∀ c, f c = g c) : Acts i len g :=
  funext hfg ▸ h

theorem acts_of_reduce {i : Instr} {v : VIns} {g : Core → List Nat → Word × Flags} (ha : v.x.qa = 0) (hb : v.x.qb = 0)
    (hvec : (vspec v.op).a = .vec) (hi : ∀ s, exec i s = run (reduce v (g s.me)) s) :
    Acts i v.len (fun c => scalarOut v.f.d (g c (activeElems c v.f.m v.w v.x.swza v.f.a)) c) := by
  refine fun s => ⟨fun h => (hi s).trans (run_needLanes_of_zero h), fun h => (hi s).trans
    (run_needLanes_of_ne h ?_ (by simp [scalarOut]) (by simp [scalarOut]))⟩
  have hels : (List.range s.me.vl).flatMap (fun i =>
      if s.me.active v i then elemsOf v.w ((source (vspec v.op).a v.x.swza v.f.a s.me).getD i 0) else []) =
      activeElems s.me v.f.m v.w v.x.swza v.f.a := by
    simp only [getD_source hvec, flatMap_ite, activeElems, ← toNat_swizzle]
    rfl
  simp only [Op.bind_apply, vecSources_apply ha hb, getMe_apply, hels, wr_apply, removeNone, raise_apply, State.updCore_cur,
    State.updCore_updCore]
  rw [State.updCore_def]
  simp only [Core.setReg_nflags]
  rfl

section
variable {op : VOp}

/-- A row of the integer reductions. What the function is in the model, and which fields it has, is so by definition. -/
theorem reduceRow_of {i : Reg → Reg → BitVec 3 → BitVec 2 → Instr} (h : Nat → List Nat → Word) {g : Nat → List Nat → Int}
    (hg : ∀ w l, (∀ x ∈ l, x < 2 ^ w) → h w l = BitVec.ofInt 64 (g w l)) (hvec : (vspec op).a = .vec := by rfl)
    (hs : ∀ d a m e s, exec (i d a m e) s = run (shortForm op ⟨d, a, 0, m, e, 0, 0⟩) s := by intros; rfl)
    (hv : ∀ f x len, vecOp ⟨op, f, x, len⟩ = reduce ⟨op, f, x, len⟩ (fun l => (h (elemBits f.e) l, 0)) := by intros; rfl) :
    ReduceRow op i g := by
  intro d a m e
  refine onBoth_of (hs d a m e) fun i len x _ hqa hqb hi => ?_
  refine acts_congr (acts_of_reduce (v := ⟨op, ⟨d, a, 0, m, e, 0, 0⟩, x, len⟩) (g := fun _ l => (h (elemBits e) l, 0)) hqa hqb
    hvec fun s => by rw [hi, hv]) fun c => ?_
  exact (scalarOut_zero d _ c).trans (congrArg (c.setReg d) (hg _ _ fun _ => lt_of_mem_activeElems))

/-- A row of the float reductions. -/
theorem floatReduceRow_of {i : Reg → Reg → BitVec 3 → BitVec 1 → Instr} (h : Modes → List Num → Word × Flags)
    {g : Modes → List Num → Nat × Flags} (hg : ∀ md l, h md l = (BitVec.ofNat 64 (g md l).1, (g md l).2))
    (hv : ∀ f x len s, vecOp ⟨op, f, x, len⟩ s = reduce ⟨op, f, x, len⟩ (fun els =>
      let ds := els.map (decodeNum (modesOf s.me.nmode) (VIns.fmt ⟨op, f, x, len⟩))
      let r := h (modesOf s.me.nmode) (ds.map (·.1))
      (r.1, orAll (ds.map (·.2)) ||| r.2)) s)
    (hvec : (vspec op).a = .vec := by rfl)
    (hs : ∀ d a m e s, exec (i d a m e) s = run (shortForm op ⟨d, a, 0, m, e.setWidth 2, 0, 0⟩) s := by intros; rfl) :
    FloatReduceRow op i g := by
  intro d a m e
  refine onBoth_of (hs d a m e) fun i len x _ hqa hqb hi => ?_
  have h := acts_of_reduce (v := ⟨op, ⟨d, a, 0, m, e.setWidth 2, 0, 0⟩, x, len⟩) (g := fun c els =>
      let ds := els.map (decodeNum (modesOf c.nmode) (floatFmt e x))
      let r := h (modesOf c.nmode) (ds.map (·.1))
      (r.1, orAll (ds.map (·.2)) ||| r.2)) hqa hqb hvec
    (fun s => by rw [hi, ← fmt_eq_floatFmt op d a 0 m e x len]; exact run_congr (hv ..))
  simp only [hg, BitVec.or_comm _ (g _ _).2, ← orAll_cons] at h
  simp only [VIns.w, elemBits_setWidth] at h
  exact h

end

/-! ## Integer folds -/

theorem foldl_eq_foldr_of_ac {α : Type} (f : α → α → α) [Std.Commutative f] [Std.Associative f] (z : α) (l : List α) :
    l.foldl f z = l.foldr f z := by
  induction l with
  | nil => rfl
  | cons x l ih => rw [List.foldl_cons, Std.Commutative.comm (op := f) z x, List.foldl_assoc, ih, List.foldr_cons]

/-- A fold of the views of the elements. -/
theorem fold_views {f g : Int → Int → Int} [Std.Commutative g] [Std.Associative g] (hfg : ∀ x y, f x y = g x y) {p q : Nat → Int}
    {l : List Nat} (hpq : ∀ x ∈ l, p x = q x) (z : Int) : (l.map p).foldl f z = (l.map q).foldr g z := by
  rw [funext fun x => funext (hfg x), List.map_congr_left hpq, foldl_eq_foldr_of_ac]

/-- A fold of numbers is that of integers. -/
theorem natCast_foldr {f : Nat → Nat → Nat} {g : Int → Int → Int} (h : ∀ x y : Nat, g x y = f x y) (l : List Nat) (z : Nat) :
    (l.map (fun x : Nat => (x : Int))).foldr g z = (l.foldr f z : Nat) := by
  induction l with
  | nil => rfl
  | cons x l ih => rw [List.map_cons, List.foldr_cons, ih, h, List.foldr_cons]

theorem natCast_ones (w : Nat) : ((2 ^ w - 1 : Nat) : Int) = 2 ^ w - 1 := by
  rw [Int.natCast_sub Nat.one_le_two_pow, Int.natCast_pow]
  rfl

/-! ## Float folds (R239) -/

theorem eq_or_nan_of_canon_eq {x y : Num} (h : canon x = canon y) : x = y ∨ x.isNan = true ∧ y.isNan = true := by
  cases hx : x.isNan <;> cases hy : y.isNan <;> simp only [canon, hx, hy, if_true, if_false, Bool.false_eq_true] at h
  · exact .inl h
  · rw [h] at hx
    cases hx
  · rw [← h] at hy
    cases hy
  · exact .inr ⟨rfl, rfl⟩

/-- A fold that never looks at the sign of a NaN. -/
theorem canon_foldl {f g : Num → Num → Num} (hfg : ∀ x y, canon (f x y) = canon (g x y))
    (hg : ∀ x x' y, x.isNan = true → x'.isNan = true → g x y = g x' y) (l : List Num) {x x' : Num} (h : canon x = canon x') :
    canon (l.foldl f x) = canon (l.foldl g x') := by
  induction l generalizing x x' with
  | nil => exact h
  | cons y l ih =>
    refine ih ((hfg x y).trans ?_)
    obtain rfl | ⟨hx, hx'⟩ := eq_or_nan_of_canon_eq h
    · rfl
    · rw [hg x x' y hx hx']

section
variable (v : VIns) (s : State)

theorem sumFloat_apply : sumFloat v s = reduce v (fun els =>
    let ds := els.map (decodeNum (modesOf s.me.nmode) v.fmt)
    let r := once .fp32 (modesOf s.me.nmode).rne (exactSum (ds.map (·.1)))
    (word r.1, orAll (ds.map (·.2)) ||| r.2)) s := by
  rw [sumFloat, Op.bind_apply, modes_apply]
  show reduce v _ s = _
  refine congrArg (fun g => reduce v g s) (funext fun els => ?_)
  simp only [foldl_snd_eq_orAll, BitVec.or_assoc, once]

theorem foldFloat_apply {g g' : Num → Num → Num} (hg : ∀ t x, canon (List.foldl g x t) = canon (List.foldl g' x t))
    (pre : Num → Num) (id : Nat) : foldFloat v g pre id s = reduce v (fun els =>
      let ds := els.map (decodeNum (modesOf s.me.nmode) v.fmt)
      let r := foldOr id g' (modesOf s.me.nmode) ((ds.map (·.1)).map pre)
      (word r.1, orAll (ds.map (·.2)) ||| r.2)) s := by
  rw [foldFloat, Op.bind_apply, modes_apply]
  show reduce v _ s = _
  refine congrArg (fun g => reduce v g s) (funext fun els => ?_)
  simp only [foldl_snd_eq_orAll, List.map_map, Function.comp_def]
  cases els with
  | nil => simp [foldOr, orAll]
  | cons x els =>
    simp only [List.map_cons, foldOr, hg, encodeNum_canon (show Fmt.fp32.ieee = true from rfl), Modes.rne]

end

theorem canon_foldl_smaller (l : List Num) (x : Num) : canon (l.foldl (pickNum false) x) = canon (l.foldl smaller x) :=
  canon_foldl canon_pickNum_false (fun _ _ _ hx hx' => by simp only [smaller, hx, hx', if_true]) l rfl

theorem canon_foldl_larger (l : List Num) (x : Num) : canon (l.foldl (pickNum true) x) = canon (l.foldl larger x) :=
  canon_foldl canon_pickNum_true (fun _ _ _ hx hx' => by simp only [larger, hx, hx', if_true]) l rfl

/-! ## The table -/

/-- Table 11.6, row by row. -/
theorem vectorReductions : VectorReductions := by
  refine ⟨?vrsum, ?vrmin, ?vrmax, ?vrminu, ?vrmaxu, ?vrand, ?vrior, ?vrxor, ?vfrsum, ?vfrmin, ?vfrmax, ?vframax⟩
  case vrsum =>
    exact reduceRow_of (fun w l => BitVec.ofInt 64 ((l.map (signedOf w)).foldl (fun x y => x + y) 0)) fun w l hl => by
      rw [fold_views (g := (· + ·)) (fun _ _ => rfl) fun x hx => signedOf_eq_sext (hl x hx)]; rfl
  case vrmin =>
    exact reduceRow_of (fun w l => BitVec.ofInt 64 ((l.map (signedOf w)).foldl minInt (2 ^ (w - 1) - 1))) fun w l hl => by
      rw [fold_views minInt_eq_min fun x hx => signedOf_eq_sext (hl x hx)]
  case vrmax =>
    exact reduceRow_of (fun w l => BitVec.ofInt 64 ((l.map (signedOf w)).foldl maxInt (-(2 ^ (w - 1))))) fun w l hl => by
      rw [fold_views maxInt_eq_max fun x hx => signedOf_eq_sext (hl x hx)]
  case vrminu =>
    exact reduceRow_of (fun w l => BitVec.ofInt 64 ((l.map (fun x : Nat => (x : Int))).foldl minInt (2 ^ w - 1))) fun w l _ => by
      rw [fold_views minInt_eq_min fun _ _ => rfl, ← natCast_foldr (f := min) (g := min) fun _ _ => by omega, natCast_ones]
  case vrmaxu =>
    exact reduceRow_of (fun w l => BitVec.ofInt 64 ((l.map (fun x : Nat => (x : Int))).foldl maxInt 0)) fun w l _ => by
      rw [fold_views maxInt_eq_max fun _ _ => rfl, ← natCast_foldr (f := max) (g := max) fun _ _ => by omega]
      rfl
  case vrand =>
    exact reduceRow_of (fun w l => word (l.foldl (fun x y => x &&& y) (2 ^ w - 1))) fun w l _ => by
      rw [foldl_eq_foldr_of_ac, BitVec.ofInt_natCast]
  case vrior =>
    exact reduceRow_of (fun w l => word (l.foldl (fun x y => x ||| y) 0)) fun w l _ => by
      rw [foldl_eq_foldr_of_ac, BitVec.ofInt_natCast]
  case vrxor =>
    exact reduceRow_of (fun w l => word (l.foldl (fun x y => x ^^^ y) 0)) fun w l _ => by
      rw [foldl_eq_foldr_of_ac, BitVec.ofInt_natCast]
  case vfrsum =>
    exact floatReduceRow_of (fun md l => let r := once .fp32 md.rne (exactSum l); (word r.1, r.2)) (fun _ _ => rfl)
      fun _ _ _ => sumFloat_apply _
  case vfrmin =>
    exact floatReduceRow_of (fun md l => let r := foldOr inf32 smaller md (l.map fun x => x); (word r.1, r.2))
      (fun _ _ => by rw [List.map_id']) fun f x len s =>
        foldFloat_apply ⟨.vfrmin, f, x, len⟩ s canon_foldl_smaller (fun x => x) inf32
  case vfrmax =>
    exact floatReduceRow_of (fun md l => let r := foldOr negInf32 larger md (l.map fun x => x); (word r.1, r.2))
      (fun _ _ => by rw [List.map_id']) fun f x len s =>
        foldFloat_apply ⟨.vfrmax, f, x, len⟩ s canon_foldl_larger (fun x => x) negInf32
  case vframax =>
    exact floatReduceRow_of (fun md l => let r := foldOr 0 larger md (l.map Num.absNum); (word r.1, r.2)) (fun _ _ => rfl)
      fun f x len s => foldFloat_apply ⟨.vframax, f, x, len⟩ s canon_foldl_larger Num.absNum 0

end Sys2Proof.VectorUnit

/-!
The functions of halves of lanes (11 R240–R242): widening, dot products, narrowing shifts and VPACK.
-/
namespace Sys2Proof.VectorUnit
open Sys2Proof.Machine Sys2Proof.Claim

/-! ## The shape of a function of lanes -/

/-- A function of lanes in both forms; `hy`: its second source is a vector, or it has none and looks at none. -/
theorem onBoth_lanewise {short : Instr} {op : VOp} {f : VFields} {h : VxFields → Core → Lane → Lane → Lane → Lane × Flags}
    {g : Core → VxFields → Nat → Nat → Nat → Lane × Flags}
    (hg : ∀ x c p q z, h x c p q z = g c x p.toNat q.toNat z.toNat)
    (hv : ∀ x len s, vecOp ⟨op, f, x, len⟩ s = perLane ⟨op, f, x, len⟩ (h x s.me) s)
    (hy : (vspec op).b = .vec ∨ ∀ x c p q z, h x c p 0 z = h x c p q z)
    (hvec : (vspec op).a = .vec := by rfl) (hs : ∀ s, exec short s = run (shortForm op f) s := by intros; rfl) :
    OnBoth short op f (Lanewise f.d f.a f.b f.m g) := by
  refine onBoth_of hs fun i len x hqd hqa hqb hi => ?_
  refine acts_of_perLane (v := ⟨op, f, x, len⟩) (g := h x) hqd hqa hqb (fun s => (hi s).trans (run_congr (hv x len s)))
    fun c k => ?_
  have hres := hg x c (swizzle x.swza (lane c f.a k)) (swizzle x.swzb (lane c f.b k)) (lane c f.d k)
  rw [toNat_swizzle, toNat_swizzle] at hres
  rw [getD_source hvec]
  by_cases hb : (vspec op).b = .vec
  · rw [getD_source hb]
    exact hres
  · rw [getD_source_of_ne hb, hy.resolve_left hb]
    exact hres

/-! ## Halves of a lane (R228) -/

theorem halfElem_lt (w : Nat) (h : BitVec 1) (l j : Nat) : halfElem w h l j < 2 ^ w := elem_lt _ _ _

theorem halfOf_eq_map (w : Nat) (h : BitVec 1) (l : Lane) :
    halfOf w h l = (List.range (32 / w / 2)).map (halfElem w h l.toNat) := by
  have hk : 32 / w / 2 ≤ 32 / w - (if h = 1 then 32 / w / 2 else 0) := by
    generalize 32 / w = n
    split <;> omega
  have hlen : (halfOf w h l).length = ((List.range (32 / w / 2)).map (halfElem w h l.toNat)).length := by
    simp only [halfOf, elemsOf, List.length_take, List.length_drop, List.length_map, List.length_range]
    exact Nat.min_eq_left hk
  refine List.ext_getElem hlen fun j hj hj' => ?_
  simp only [halfOf, elemsOf, List.getElem_take, List.getElem_drop, List.getElem_map, List.getElem_range]
  rw [Nat.add_comm]
  rfl

theorem zip_halfOf (w : Nat) (h k : BitVec 1) (p q : Lane) : (halfOf w h p).zip (halfOf w k q) =
    (List.range (32 / w / 2)).map (fun j => (halfElem w h p.toNat j, halfElem w k q.toNat j)) := by
  rw [halfOf_eq_map, halfOf_eq_map, List.zip_map']

theorem div_two_mul (w : Nat) : 32 / (2 * w) = 32 / w / 2 := by rw [Nat.div_div_eq_div_mul, Nat.mul_comm]

/-- A lane of elements of twice the width, one of each of a half. -/
theorem packElems_half {w : Nat} {f : Nat → Nat} {g : Nat → Int}
    (h : ∀ j < 32 / w / 2, (f j : Int) % 2 ^ (2 * w) = g j % 2 ^ (2 * w)) :
    packElems (2 * w) ((List.range (32 / w / 2)).map f) = join (2 * w) g := by
  rw [← div_two_mul] at h ⊢
  exact packElems_map_range (Nat.le_refl _) h fun j hj hn => absurd hj (Nat.not_lt.2 hn)

section
variable (w : Nat) (h k : BitVec 1) (p q : Lane)

theorem packElems_widen {f g : Nat → Nat → Int} (hfg : ∀ x y, x < 2 ^ w → y < 2 ^ w → f x y = g x y) :
    packElems (2 * w) (((halfOf w h p).zip (halfOf w k q)).map (fun y => intCode (2 * w) (f y.1 y.2))) =
      join (2 * w) (fun j => g (halfElem w h p.toNat j) (halfElem w k q.toNat j)) := by
  rw [zip_halfOf, List.map_map]
  refine packElems_half fun j _ => ?_
  rw [Function.comp_apply, intCode_emod, hfg _ _ (halfElem_lt ..) (halfElem_lt ..)]

theorem foldl_dot {f g : Nat → Int} (hfg : ∀ x, x < 2 ^ w → f x = g x) :
    ((halfOf w h p).zip (halfOf w k q)).foldl (fun t y => t + f y.1 * f y.2) 0 =
      ((List.range (32 / w / 2)).map (fun j => g (halfElem w h p.toNat j) * g (halfElem w k q.toNat j))).sum := by
  rw [zip_halfOf, List.foldl_map, List.sum_eq_foldl, List.foldl_map]
  simp only [hfg _ (halfElem_lt ..)]

end

/-! ## Rows of the widening functions and of the dot products -/

section
variable {op : VOp}

/-- A row of the widening functions (R240). What the function is in the model, and which fields it has, is so by definition. -/
theorem widenRow_of {i : Reg → Reg → Reg → BitVec 3 → BitVec 2 → BitVec 1 → BitVec 1 → Instr} (f : Nat → Nat → Nat → Int)
    {g : Nat → Nat → Nat → Int} (hg : ∀ w x y, x < 2 ^ w → y < 2 ^ w → f w x y = g w x y)
    (hvec : (vspec op).a = .vec := by rfl) (hvec' : (vspec op).b = .vec := by rfl)
    (hs : ∀ d a b m e h k s, exec (i d a b m e h k) s = run (shortForm op ⟨d, a, b, m, e, h, k⟩) s := by intros; rfl)
    (hv : ∀ y x len, vecOp ⟨op, y, x, len⟩ = widen ⟨op, y, x, len⟩ (f (elemBits y.e)) := by intros; rfl) : WidenRow op i g := by
  intro d a b m e h k _
  let w := elemBits e
  exact onBoth_lanewise (f := ⟨d, a, b, m, e, h, k⟩) (h := fun _ _ p q _ => (packElems (2 * w)
    (((halfOf w h p).zip (halfOf w k q)).map (fun y => intCode (2 * w) (f w y.1 y.2))), 0))
    (fun x c p q z => Prod.ext (packElems_widen w h k p q (hg w)) rfl) (fun x len s => by rw [hv]; rfl) (.inl hvec') hvec
    (hs d a b m e h k)

/-- A row of the integer dot products (R241). -/
theorem dotRow_of {i : Reg → Reg → Reg → BitVec 3 → BitVec 2 → BitVec 1 → BitVec 1 → Instr} (f : Nat → Nat → Int)
    {g : Nat → Nat → Int} (hg : ∀ w x, x < 2 ^ w → f w x = g w x)
    (hv : ∀ y x len, y.e ≠ 1 → vecOp ⟨op, y, x, len⟩ = dotInt ⟨op, y, x, len⟩ (f (elemBits y.e)))
    (hvec : (vspec op).a = .vec := by rfl) (hvec' : (vspec op).b = .vec := by rfl)
    (hs : ∀ d a b m e h k s, exec (i d a b m e h k) s = run (shortForm op ⟨d, a, b, m, e, h, k⟩) s := by intros; rfl) :
    DotRow op i g := by
  intro d a b m e h k he
  have he1 : e ≠ 1 := by rintro rfl; exact absurd he (by decide)
  let w := elemBits e
  refine onBoth_lanewise (f := ⟨d, a, b, m, e, h, k⟩) (h := fun _ _ p q z => (z + BitVec.ofInt 32
    (((halfOf w h p).zip (halfOf w k q)).foldl (fun t y => t + f w y.1 * f w y.2) 0), 0))
    (fun x c p q z => Prod.ext ?_ rfl) (fun x len s => by rw [hv _ _ _ he1]; rfl) (.inl hvec') hvec (hs d a b m e h k)
  show z + BitVec.ofInt 32 _ = BitVec.ofInt 32 _
  rw [foldl_dot w h k p q (hg w), BitVec.ofInt_add, Scalar.ofInt_toNat]
  rfl

end

/-! ## The floating dot product (R241) -/

/-- The exact sum of a lane and of the products of the halves of two, rounded once under RNE, with the flags on its way. -/
def dotLane (md : Modes) (f : Fmt) (w : Nat) (h k : BitVec 1) (p q z : Lane) : Lane × Flags :=
  let o := decodeNum md .fp32 z.toNat
  let ts := ((halfOf w h p).zip (halfOf w k q)).map (fun y =>
    let x := decodeNum md f y.1
    let y := decodeNum md f y.2
    let z := mulNum x.1 y.1
    (z.1, x.2 ||| y.2 ||| z.2))
  let r := once .fp32 md.rne (exactSum (o.1 :: ts.map (·.1)))
  (BitVec.ofNat 32 r.1, orAll (o.2 :: r.2 :: ts.map (·.2)))

theorem dotFloat_apply (v : VIns) (s : State) :
    dotFloat v s = perLane v (dotLane (modesOf s.me.nmode) v.fmt v.w v.f.ha v.f.hb) s := by
  rw [dotFloat, Op.bind_apply, modes_apply]
  show perLane v _ s = _
  refine congrArg (fun g => perLane v g s) (funext fun p => funext fun q => funext fun z => ?_)
  have h0 (f : Flags) : 0 ||| f = f := BitVec.zero_or
  simp only [dotLane, once, orAll, halfPairs, List.foldl_cons, List.foldl_map, BitVec.or_assoc, h0]

/-! ## Narrowing (R242) -/

/-- The nearest integer, told by a quotient and a remainder. -/
theorem nearest_of_eq {i q r : Int} {m : Nat} (h : r + m * q = i) (h0 : 0 ≤ r) (hlt : r < m) :
    nearest i m = if (m : Int) < 2 * r ∨ (2 * r = m ∧ q % 2 = 1) then q + 1 else q := by
  have hq : i.fdiv m = q := by
    rw [Int.fdiv_eq_ediv_of_nonneg _ (Int.natCast_nonneg m)]
    exact ((Int.ediv_emod_unique (by omega)).2 ⟨h, h0, hlt⟩).1
  have hr : i - q * m = r := by rw [← h, Int.mul_comm q, Int.add_sub_cancel]
  simp only [nearest, hq, hr]

/-- Rounding a magnitude to the nearest integer, a half to the even one, is rounding the signed value so. -/
theorem signMant_roundInt_eq_nearest (i : Int) {m : Nat} (hm : 0 < m) :
    signMant (i < 0) (roundInt 0 (i < 0) i.natAbs m) = nearest i m := by
  have hround : roundInt 0 (decide (i < 0)) i.natAbs m =
      if m < 2 * (i.natAbs % m) ∨ 2 * (i.natAbs % m) = m ∧ i.natAbs / m % 2 = 1 then i.natAbs / m + 1 else i.natAbs / m := by
    simp [roundInt]
  have hdiv : (m * (i.natAbs / m : Nat) + (i.natAbs % m : Nat) : Int) = i.natAbs := by
    exact_mod_cast Nat.div_add_mod i.natAbs m
  have hlt := Nat.mod_lt i.natAbs hm
  rw [hround]
  generalize i.natAbs / m = q at *
  generalize i.natAbs % m = r at *
  by_cases hi : i < 0
  · have habs : (i.natAbs : Int) = -i := Int.ofNat_natAbs_of_nonpos (by omega)
    rw [habs] at hdiv
    by_cases h0 : r = 0
    · subst h0
      rw [nearest_of_eq (q := -q) (r := 0) (by rw [Int.mul_neg]; omega) (by omega) (by omega)]
      simp only [signMant, hi, decide_true, if_true]
      split <;> split <;> omega
    · rw [nearest_of_eq (q := -q - 1) (r := m - r) (by rw [Int.mul_sub, Int.mul_neg, Int.mul_one]; omega) (by omega) (by omega)]
      simp only [signMant, hi, decide_true, if_true]
      split <;> split <;> omega
  · have habs : (i.natAbs : Int) = i := Int.natAbs_of_nonneg (by omega)
    rw [nearest_of_eq (q := q) (r := r) (by omega) (by omega) (by omega)]
    simp only [signMant, hi, decide_false, Bool.false_eq_true, if_false]
    split <;> split <;> omega

/-- The lower half of a lane of elements, one of each of twice the width. -/
theorem packElems_narrow {w : Nat} {f : Nat → Nat} {g : Nat → Int} (h : ∀ j < 32 / w / 2, (f j : Int) % 2 ^ w = g j % 2 ^ w) :
    packElems w ((List.range (32 / w / 2)).map f) = join w (fun j => if j < 32 / w / 2 then g j else 0) :=
  packElems_map_range (Nat.div_le_self _ _) (fun j hj => by rw [if_pos hj]; exact h j hj)
    fun j _ hj => if_neg (Nat.not_lt.2 hj)

/-- A narrowing shift by n, by the signed or the unsigned views. -/
def narrowLane (w : Nat) (sign : Bool) (n : Nat) (p : Lane) : Lane × Flags :=
  let rs := (elemsOf (2 * w) p).map (fun x =>
    let i : Int := if sign then signedOf (2 * w) x else x
    let q := signMant (i < 0) (roundInt 0 (i < 0) i.natAbs (2 ^ n))
    if sign then clampSigned w q else clampUnsigned w q)
  (packElems w (rs.map (·.1)), rs.foldl (fun f r => f ||| r.2) 0)

theorem narrow_apply (v : VIns) (sign : Bool) (s : State) :
    narrow v sign s = perLane v (fun p _ _ => narrowLane v.w sign ((s.me.reg v.f.b).toNat % (2 * v.w)) p) s := rfl

theorem narrowLane_eq (w : Nat) (sign : Bool) (n : Nat) (p : Lane) {ext : Nat → Int} {clamp : Int → Int × Flags}
    (hext : ∀ x, x < 2 ^ (2 * w) → (if sign then signedOf (2 * w) x else x) = ext x)
    (hclamp : ∀ q, SameElem w (if sign then clampSigned w q else clampUnsigned w q) (clamp q)) :
    let at_ := fun j => clamp (nearest (ext (elem (2 * w) p.toNat j)) (2 ^ n))
    narrowLane w sign n p = (join w (fun j => if j < 32 / w / 2 then (at_ j).1 else 0),
      orAll ((List.range (32 / w / 2)).map (fun j => (at_ j).2))) := by
  intro at_
  have hat (j : Nat) : SameElem w (let x := elem (2 * w) p.toNat j
    let i : Int := if sign then signedOf (2 * w) x else x
    let q := signMant (i < 0) (roundInt 0 (i < 0) i.natAbs (2 ^ n))
    if sign then clampSigned w q else clampUnsigned w q) (at_ j) := by
    simp only [hext _ (elem_lt ..), signMant_roundInt_eq_nearest _ (Nat.two_pow_pos n)]
    simpa using hclamp _
  rw [narrowLane, elemsOf, div_two_mul, List.map_map, foldl_snd_eq_orAll]
  simp only [List.map_map]
  exact Prod.ext (packElems_narrow fun j _ => (hat j).1) (congrArg orAll (List.map_congr_left fun j _ => (hat j).2))

/-- A row of the narrowing shifts. What the function is in the model, and which fields it has, is so by definition. -/
theorem narrowRow_of {op : VOp} {i : Reg → Reg → Reg → BitVec 3 → BitVec 2 → Instr} (sign : Bool) {ext : Nat → Nat → Int}
    {clamp : Nat → Int → Int × Flags} (hext : ∀ w x, x < 2 ^ w → (if sign then signedOf w x else x) = ext w x)
    (hclamp : ∀ w q, SameElem w (if sign then clampSigned w q else clampUnsigned w q) (clamp w q))
    (hvec : (vspec op).a = .vec := by rfl)
    (hs : ∀ d a b m e s, exec (i d a b m e) s = run (shortForm op ⟨d, a, b, m, e, 0, 0⟩) s := by intros; rfl)
    (hv : ∀ f x len, vecOp ⟨op, f, x, len⟩ = narrow ⟨op, f, x, len⟩ sign := by intros; rfl) : NarrowRow op i ext clamp := by
  intro d a b m e _
  let w := elemBits e
  exact onBoth_lanewise (f := ⟨d, a, b, m, e, 0, 0⟩) (h := fun _ c p _ _ => narrowLane w sign ((c.reg b).toNat % (2 * w)) p)
    (fun _ c p _ _ => narrowLane_eq w sign _ p (hext (2 * w)) (hclamp w)) (fun x len s => by rw [hv]; rfl)
    (.inr fun _ _ _ _ _ => rfl) hvec (hs d a b m e)

/-- VPACK: the elements of two lanes, each kept to half its width. -/
theorem packElems_pack {w : Nat} (hw : 32 / w = 2 * (32 / w / 2)) (p q : Lane) :
    packElems w (elemsOf (2 * w) p ++ elemsOf (2 * w) q) = join w (fun j =>
      if j < 32 / w / 2 then (elem (2 * w) p.toNat j : Int) else (elem (2 * w) q.toNat (j - 32 / w / 2) : Int)) := by
  have hlen (l : Lane) : (elemsOf (2 * w) l).length = 32 / w / 2 := by simp [elemsOf, div_two_mul]
  have hget (l : Lane) {j : Nat} (hj : j < 32 / w / 2) : (elemsOf (2 * w) l).getD j 0 = elem (2 * w) l.toNat j := by
    rw [← div_two_mul] at hj
    simp [elemsOf, hj, elemAt, elem]
  rw [packElems_eq_join (by rw [List.length_append, hlen, hlen]; omega)]
  refine join_congr fun j hj => ?_
  rw [List.getD_eq_getElem?_getD]
  by_cases hj' : j < 32 / w / 2
  · rw [if_pos hj', List.getElem?_append_left (by rw [hlen]; exact hj'), ← List.getD_eq_getElem?_getD, hget p hj']
  · rw [if_neg hj', List.getElem?_append_right (by rw [hlen]; omega), hlen, ← List.getD_eq_getElem?_getD, hget q (by omega)]

/-! ## The tables -/

theorem vdot_of_int (v : VIns) (hop : v.op = .vdot) (he : v.f.e ≠ 1) : vecOp v = dotInt v (signedOf v.w) := by
  simp only [vecOp, hop, if_neg he]

theorem vdot_of_float (v : VIns) (hop : v.op = .vdot) (he : v.f.e = 1) : vecOp v = dotFloat v := by
  simp only [vecOp, hop, if_pos he]

/-- R240–R242, row by row. -/
theorem vectorWidening : VectorWidening := by
  refine ⟨?vwadd, ?vwmul, ?vwmuln, ?vdot, ?vdotn, fun d a b m h k => ?vdotFloat, ?vnshr, ?vnshrn, fun d a b m e he => ?vpack⟩
  case vwadd =>
    exact widenRow_of (fun w x y => signedOf w x + signedOf w y) fun _ _ _ hx hy => by
      rw [signedOf_eq_sext hx, signedOf_eq_sext hy]
  case vwmul =>
    exact widenRow_of (fun w x y => signedOf w x * signedOf w y) fun _ _ _ hx hy => by
      rw [signedOf_eq_sext hx, signedOf_eq_sext hy]
  case vwmuln => exact widenRow_of (fun _ x y => x * y) (by intros; rfl)
  case vdot => exact dotRow_of signedOf (fun _ _ => signedOf_eq_sext) fun y x len he => vdot_of_int ⟨.vdot, y, x, len⟩ rfl he
  case vdotn => exact dotRow_of (fun _ x => (x : Int)) (fun _ _ _ => rfl) fun _ _ _ _ => rfl
  case vdotFloat =>
    refine onBoth_lanewise (f := ⟨d, a, b, m, 1, h, k⟩) (h := fun x c => dotLane (modesOf c.nmode) (floatFmt 1 x) 16 h k)
      (fun x c p q z => ?_) (fun x len s => ?_) (.inl rfl)
    · rw [dotLane, zip_halfOf]
      rfl
    · have hw : VIns.w ⟨.vdot, ⟨d, a, b, m, 1, h, k⟩, x, len⟩ = 16 := show elemBits 1 = 16 by decide
      have hf : VIns.fmt ⟨.vdot, ⟨d, a, b, m, 1, h, k⟩, x, len⟩ = floatFmt 1 x := rfl
      rw [vdot_of_float _ rfl rfl, dotFloat_apply, hw, hf]
  case vnshr =>
    exact narrowRow_of true (fun _ _ hx => signedOf_eq_sext hx) sameElem_clampSigned
  case vnshrn => exact narrowRow_of false (by intros; rfl) sameElem_clampUnsigned
  case vpack =>
    have hw : 32 / elemBits e = 2 * (32 / elemBits e / 2) := by revert e; decide
    exact onBoth_lanewise (f := ⟨d, a, b, m, e, 0, 0⟩)
      (h := fun _ _ p q _ => (packElems (elemBits e) (elemsOf (2 * elemBits e) p ++ elemsOf (2 * elemBits e) q), 0))
      (fun _ _ p q _ => Prod.ext (packElems_pack hw p q) rfl) (by intros; rfl) (.inl rfl)

/-- Settles O36: the reductions, and the functions of halves of lanes, row by row. -/
theorem vectorSums : Obligations.VectorSums := by
  unfold Obligations.VectorSums
  exact ⟨vectorReductions, vectorWidening⟩

end Sys2Proof.VectorUnit

/-!
Conversions, VSCALE, VFN and the fixed functions (11 R246–R256).
-/
namespace Sys2Proof.VectorUnit
open Sys2Proof.Machine Sys2Proof.Claim

/-! ## Between floats and integers of one width (R246) -/

theorem w_eq_bits_fmt (op : VOp) (d a b : Reg) (m : BitVec 3) (e : BitVec 1) (x : VxFields) (len : Word) :
    VIns.w ⟨op, ⟨d, a, b, m, e.setWidth 2, 0, 0⟩, x, len⟩ = (VIns.fmt ⟨op, ⟨d, a, b, m, e.setWidth 2, 0, 0⟩, x, len⟩).bits := by
  rw [fmt_eq_floatFmt]
  refine (elemBits_setWidth e).trans ?_
  obtain rfl | rfl := BitVec.eq_zero_or_eq_one e
  · rfl
  · rw [floatFmt, if_neg (by decide)]
    split <;> rfl

theorem intToFloat_apply {v : VIns} {w : Nat} {f : Fmt} (hw : v.w = w) (hf : v.fmt = f) (s : State) : intToFloat v s =
    perElem v (fun x _ _ => encodeNum f (modesOf s.me.nmode) (Num.ofInt (signedOf w x) 0)) s := by
  rw [← hw, ← hf]
  rfl

/-- An elementwise instruction whose elements are codes; `hy` as for `acts_of_perElem`. -/
theorem acts_of_codes {i : Instr} {v : VIns} {w : Nat} {g : Core → Nat → Nat → Nat → Nat × Flags}
    {at_ : Core → Nat → Nat → Nat × Flags} (hd : v.x.qd = 0) (ha : v.x.qa = 0) (hb : v.x.qb = 0) (hw : v.w = w)
    (hvec : (vspec v.op).a = .vec) (hy : (vspec v.op).b = .vec ∨ ∀ c x y d, g c x 0 d = g c x y d)
    (hi : ∀ s, exec i s = run (perElem v (g s.me)) s)
    (hg : ∀ c k j, g c (elem w (swz v.x.swza (lane c v.f.a k)) j) (elem w (swz v.x.swzb (lane c v.f.b k)) j)
      (elem w (lane c v.f.d k).toNat j) = at_ c k j) :
    Acts i v.len (intoVector v.f.d v.f.m v.x (fun c k => join w (fun j => ((at_ c k j).1 : Int)))
      (fun c k => orAll ((List.range (32 / w)).map (fun j => (at_ c k j).2)))) :=
  acts_of_perElem (at_ := fun c k j => ((at_ c k j).1, (at_ c k j).2)) hd ha hb hw hvec hy hi
    fun c k j _ => by rw [hg]; exact ⟨rfl, rfl⟩

theorem acts_of_intToFloat {i : Instr} {v : VIns} {w : Nat} {f : Fmt} (hqd : v.x.qd = 0) (hqa : v.x.qa = 0) (hqb : v.x.qb = 0)
    (hw : v.w = w) (hf : v.fmt = f) (hvec : (vspec v.op).a = .vec) (hv : vecOp v = intToFloat v)
    (hi : ∀ s, exec i s = run (vecOp v) s) :
    let at_ := fun (c : Core) (i j : Nat) =>
      encodeNum f (modesOf c.nmode) (Num.ofInt (sext w (elem w (swz v.x.swza (lane c v.f.a i)) j)) 0)
    Acts i v.len (intoVector v.f.d v.f.m v.x (fun c i => join w (fun j => ((at_ c i j).1 : Int)))
      (fun c i => orAll ((List.range (32 / w)).map (fun j => (at_ c i j).2)))) := by
  intro at_
  refine acts_of_codes (g := fun c x _ _ => encodeNum f (modesOf c.nmode) (Num.ofInt (signedOf w x) 0)) (at_ := at_) hqd hqa hqb
    hw hvec (.inr fun _ _ _ _ => rfl) (fun s => ?_) fun c k j => ?_
  · rw [hi, hv]
    exact run_congr (intToFloat_apply hw hf s)
  · exact congrArg (fun n => encodeNum f (modesOf c.nmode) (Num.ofInt n 0)) (signedOf_eq_sext (elem_lt ..))

/-! ## VCVTN (R247) -/

theorem source_eq_map {k : SKind} (hk : k = .vec) (z : BitVec 8) (r : Reg) (x : Core) :
    source k z r x = (List.range x.vl).map (fun i => swizzle z (lane x r i)) := by
  refine List.ext_getElem (by simp [source, hk]) fun i hi hi' => ?_
  have hget : (source k z r x).getD i 0 = (source k z r x)[i] := by
    rw [List.getD_eq_getElem?_getD, List.getElem?_eq_getElem hi, Option.getD_some]
  rw [← hget, getD_source hk, List.getElem_map, List.getElem_range]

/-- Elements by their number over the lanes, as many as there are lanes, with zeros above the last. -/
theorem unflat_map_range (w n : Nat) (f : Nat → Nat) : unflat w n ((List.range n).map f) = (List.range n).map (fun i =>
    join w (fun j => if i * (32 / w) + j < n then (f (i * (32 / w) + j) : Int) else 0)) := by
  refine List.map_congr_left fun i _ => ?_
  rw [packElems_eq_join (by rw [List.length_take]; exact Nat.min_le_left _ _)]
  refine join_congr fun j hj => ?_
  by_cases hn : i * (32 / w) + j < n
  · simp [List.getD_eq_getElem?_getD, List.getElem?_drop, hj, hn]
  · simp [List.getD_eq_getElem?_getD, List.getElem?_drop, hj, hn]

/-- Every lane of the destination and its flags, from the sources. -/
theorem acts_of_everyLane {i : Instr} {v : VIns} {g : Core → Nat → (Nat → Bool) → List Lane → List Lane → List Lane × Flags}
    {ls : Core → Nat → Lane} {fl : Core → Flags} (hd : v.x.qd = 0) (ha : v.x.qa = 0) (hb : v.x.qb = 0)
    (hi : ∀ s, exec i s = run (everyLane v (g s.me)) s)
    (hg : ∀ c, g c c.vl (c.active v) (source (vspec v.op).a v.x.swza v.f.a c) (source (vspec v.op).b v.x.swzb v.f.b c) =
      ((List.range c.vl).map (ls c), fl c)) :
    Acts i v.len (fun c => writing v.f.d ((List.range c.vl).map (ls c)) (fl c) c) := by
  refine fun s => ⟨fun h => (hi s).trans (run_needLanes_of_zero h), fun h => (hi s).trans ?_⟩
  refine run_needLanes_of_ne h ?_ rfl rfl
  simp only [Op.bind_apply, vecSources_apply ha hb, getMe_apply, hg, vecOut_apply hd, mergeLanes_vreg, if_true]
  congr 4
  exact List.map_congr_left fun k hk => by simp [List.mem_range.1 hk]

/-- A lane's value in a format, with the flags of decoding and encoding. -/
def narrowed (md : Modes) (f : Fmt) (l : Nat) : Nat × Flags :=
  let p := decodeNum md .fp32 l
  let r := encodeFmt f md p.1
  (r.1, p.2 ||| r.2)

theorem vecNarrow_apply {v : VIns} {f : Fmt} (hf : fmtOf v.f.b.toNat = some f) (s : State) :
    vecNarrow v s = everyLane v (fun vl _ a _ =>
      let rs := a.map (fun l => narrowed (modesOf s.me.nmode) f l.toNat)
      (unflat v.w vl (rs.map (·.1)), rs.foldl (fun f r => f ||| r.2) 0)) s := by
  rw [vecNarrow, Op.bind_apply, modes_apply]
  simp only [hf]
  rfl

theorem acts_of_vecNarrow {i : Instr} {d a k : Reg} {m : BitVec 3} {e : BitVec 2} {x : VxFields} {len : Word} {f : Fmt}
    (hf : fmtOf k.toNat = some f) (hqd : x.qd = 0) (hqa : x.qa = 0) (hqb : x.qb = 0)
    (hi : ∀ s, exec i s = run (vecOp ⟨.vcvtn, ⟨d, a, k, m, e, 0, 0⟩, x, len⟩) s) :
    let at_ := fun (c : Core) (i : Nat) => narrowed (modesOf c.nmode) f (swz x.swza (lane c a i))
    let w := 32 / 2 ^ e.toNat
    Acts i len (fun c => writing d ((List.range c.vl).map (fun i => join w (fun j =>
        if i * (32 / w) + j < c.vl then ((at_ c (i * (32 / w) + j)).1 : Int) else 0)))
      (orAll ((List.range c.vl).map (fun i => (at_ c i).2))) c) := by
  intro at_ w
  let v : VIns := ⟨.vcvtn, ⟨d, a, k, m, e, 0, 0⟩, x, len⟩
  have hv : vecOp v = vecNarrow v := rfl
  refine acts_of_everyLane (v := v) (g := fun c vl _ l _ =>
      let rs := l.map (fun l => narrowed (modesOf c.nmode) f l.toNat)
      (unflat w vl (rs.map (·.1)), rs.foldl (fun f r => f ||| r.2) 0))
    hqd hqa hqb (fun s => by rw [hi, hv]; exact run_congr (vecNarrow_apply hf s)) fun c => ?_
  simp only [source_eq_map (k := (vspec v.op).a) rfl, List.map_map, foldl_snd_eq_orAll]
  simp only [Function.comp_def, toNat_swizzle]
  exact Prod.ext (unflat_map_range _ _ _) rfl

/-! ## VCVTW (R248) -/

/-- An exact integer is not rounded. -/
theorem encodeInt_ofInt_rm (w : Nat) (md : Modes) (i : Int) : encodeInt w md.rne (Num.ofInt i 0) = encodeInt w md (Num.ofInt i 0) := by
  have hround (rm : BitVec 2) (neg : Bool) (n : Nat) : roundInt rm neg n 1 = n := by
    have : n % 1 = 0 := Nat.mod_one n
    simp only [roundInt, this, Nat.div_one]
    split <;> simp
  simp [encodeInt, Num.ofInt, shiftQ, hround]

theorem decodeNum_int8 (md : Modes) (c : Nat) : (decodeNum md .int8 c).1 = Num.ofInt (signedOf 8 c) 0 := by
  simp [decodeNum, decodeExact, subnormalCode, Fmt.isInt, Fmt.bits]

/-- The model's encoding of a widened value (Table 11.11). -/
def wideCode (md : Modes) (f : Fmt) (x : Num) : Nat × Flags :=
  match wideFmt f with
  | some dst => encodeFmt dst md.rne x
  | none => encodeInt 16 md x

theorem wideCode_eq_widened {k : Nat} {f : Fmt} (hf : fmtOf k = some f) (hk : slotSize k ≠ 0) (md : Modes) (c : Nat) :
    wideCode md f (decodeNum md f c).1 = widened k md.rne (decodeNum md f c).1 := by
  match k, hk with
  | 1, _ | 2, _ | 3, _ | 4, _ | 5, _ | 7, _ =>
    cases hf
    rfl
  | 6, _ =>
    cases hf
    rw [decodeNum_int8]
    exact (encodeInt_ofInt_rm 16 md _).symm

/-- The selected half of a lane, each element decoded and encoded wider. -/
def widenLane (md : Modes) (f : Fmt) (w : Nat) (h : BitVec 1) (p : Lane) : Lane × Flags :=
  let rs := (halfOf w h p).map (fun c =>
    let x := decodeNum md f c
    let r := wideCode md f x.1
    (r.1, x.2 ||| r.2))
  (packElems (2 * w) (rs.map (·.1)), rs.foldl (fun f r => f ||| r.2) 0)

theorem vecWiden_apply {v : VIns} {f : Fmt} (hf : fmtOf v.f.b.toNat = some f) (s : State) :
    vecWiden v s = perLane v (fun p _ _ => widenLane (modesOf s.me.nmode) f v.w v.f.ha p) s := by
  rw [vecWiden, Op.bind_apply, modes_apply]
  simp only [hf]
  rfl

theorem widenLane_eq {k : Nat} {f : Fmt} (hf : fmtOf k = some f) (hk : slotSize k ≠ 0) (md : Modes) (w : Nat) (h : BitVec 1)
    (p : Lane) :
    let at_ := fun (j : Nat) =>
      let x := decodeNum md f (halfElem w h p.toNat j)
      let r := widened k md.rne x.1
      (r.1, x.2 ||| r.2)
    widenLane md f w h p =
      (join (2 * w) (fun j => ((at_ j).1 : Int)), orAll ((List.range (32 / w / 2)).map (fun j => (at_ j).2))) := by
  simp only [widenLane, wideCode_eq_widened hf hk, halfOf_eq_map, foldl_snd_eq_orAll, List.map_map]
  exact Prod.ext (packElems_half fun j _ => rfl) rfl

/-- Which field is called the second source of a function of one source. -/
theorem lanewise_of_one_source (d a b k : Reg) (m : BitVec 3) (g : Core → VxFields → Nat → Lane × Flags) :
    Lanewise d a b m (fun c x p _ _ => g c x p) = Lanewise d a k m (fun c x p _ _ => g c x p) := rfl

/-! ## Functions of FP32 lanes -/

theorem elemBits_zero : elemBits 0 = 32 := by decide

theorem laneOf_32 (g : Nat → Nat → Nat → Nat × Flags) (p q z : Lane) : laneOf 32 g p q z =
    (BitVec.ofNat 32 (g p.toNat q.toNat z.toNat).1, (g p.toNat q.toNat z.toNat).2) := by
  have hel (l : Lane) : elemAt 32 l 0 = l.toNat := by simp [elemAt, Nat.mod_eq_of_lt l.isLt]
  have h0 (f : Flags) : 0 ||| f = f := BitVec.zero_or
  simp only [laneOf, show List.range (32 / 32) = [0] from rfl, List.map_cons, List.map_nil, List.foldl_cons, List.foldl_nil, hel,
    h0]
  refine Prod.ext (BitVec.eq_of_toNat_eq ?_) rfl
  simp [packElems]

/-- VSCALE of one lane (R249). -/
def scaleLane (md : Modes) (x y : Nat) : Nat × Flags :=
  let p := decodeNum md .fp32 x
  let r := encodeNum .fp32 md (canon (p.1.scale (maxInt (-300) (minInt 300 (signedOf 32 y)))))
  (r.1, p.2 ||| r.2)

theorem vecScale_apply {v : VIns} (hw : v.w = 32) (s : State) :
    vecScale v s = perLane v (laneOf 32 (fun x y _ => scaleLane (modesOf s.me.nmode) x y)) s := by
  rw [← hw]
  rfl

theorem scaleLane_eq (md : Modes) {x y : Nat} (hy : y < 2 ^ 32) : scaleLane md x y =
    (let p := decodeNum md .fp32 x
     let r := encodeNum .fp32 md (p.1.scale (max (-300) (min 300 (sext 32 y))))
     (r.1, p.2 ||| r.2)) := by
  simp only [scaleLane, encodeNum_canon (f := .fp32) rfl, signedOf_eq_sext hy, minInt_eq_min, maxInt_eq_max]

/-- A special function of one lane: of its value, with the flags of its decoding. -/
def fixedLane (md : Modes) (g : Modes → Num → Nat × Flags) (x : Nat) : Lane × Flags :=
  let p := decodeNum md .fp32 x
  let r := g md p.1
  (BitVec.ofNat 32 r.1, r.2 ||| p.2)

theorem fixedFn_apply {v : VIns} (g : Modes → Num → Nat × Flags) (s : State) (hw : v.w = 32) (hf : v.fmt = .fp32)
    (hb : ((vspec v.op).b == .vec) = false) (hd : ((vspec v.op).d == .acc) = false) :
    fixedFn v g s = perLane v (fun p _ _ => fixedLane (modesOf s.me.nmode) g p.toNat) s := by
  rw [fixedFn, perFloat_apply, perElem, hw, hf, hb, hd]
  refine congrArg (fun h => perLane v h s) (funext fun p => funext fun q => funext fun z => ?_)
  rw [laneOf_32]
  simp [floatElem, fixedLane]

/-- A fixed function. What it is in the model, and which fields it has, is so by definition. -/
theorem fixedRow_of {op : VOp} {i : Reg → Reg → BitVec 3 → Instr} (g : Modes → Num → Nat × Flags)
    (hvec : (vspec op).a = .vec := by rfl) (hb : ((vspec op).b == .vec) = false := by rfl)
    (hd : ((vspec op).d == .acc) = false := by rfl)
    (hs : ∀ d a m s, exec (i d a m) s = run (shortForm op ⟨d, a, 0, m, 0, 0, 0⟩) s := by intros; rfl)
    (hv : ∀ f x len, vecOp ⟨op, f, x, len⟩ = fixedFn ⟨op, f, x, len⟩ g := by intros; rfl) : FixedRow op i g := by
  intro d a m
  refine onBoth_lanewise (f := ⟨d, a, 0, m, 0, 0, 0⟩) (h := fun _ c p _ _ => fixedLane (modesOf c.nmode) g p.toNat)
    (by intros; rfl) (fun x len s => ?_) (.inr (by intros; rfl)) hvec (hs d a m)
  rw [hv]
  exact fixedFn_apply (v := ⟨op, ⟨d, a, 0, m, 0, 0, 0⟩, x, len⟩) g s elemBits_zero rfl hb hd

/-! ## The statement -/

/-- Settles O37: the conversions by format, and the functions of FP32 lanes, row by row. -/
theorem vectorConversions : Obligations.VectorConversions := by
  unfold Obligations.VectorConversions
  refine ⟨?vcvti, fun d a m e => ?vcvtf, fun d a k e f hf he he0 => ?vcvtn, fun d a k m e h f hf he he0 => ?vcvtw,
    fun d a b m => ?vscale, fun d a t m => ?vfn, fixedRow_of (vtrigOf false), fixedRow_of (vtrigOf true), fixedRow_of vexpOf,
    fixedRow_of vlogOf, fixedRow_of vrcpOf, fixedRow_of vrsqOf, fixedRow_of vtanhOf, fixedRow_of vsigmOf⟩
  case vcvti =>
    refine floatRow1_of (fun f md x _ _ => encodeInt f.bits md x) (by intros; rfl) (hv := fun d a m e x len => ?_)
    exact congrArg (fun w => perFloat ⟨.vcvti, ⟨d, a, 0, m, e.setWidth 2, 0, 0⟩, x, len⟩ (fun md x _ _ => encodeInt w md x))
      (w_eq_bits_fmt .vcvti d a 0 m e x len)
  case vcvtf =>
    refine onBoth_of (fun _ => rfl) fun i len x hqd hqa hqb hi => ?_
    exact acts_of_intToFloat (v := ⟨.vcvtf, ⟨d, a, 0, m, e.setWidth 2, 0, 0⟩, x, len⟩) hqd hqa hqb (elemBits_setWidth e)
      (fmt_eq_floatFmt .vcvtf d a 0 m e x len) rfl rfl hi
  case vcvtn =>
    refine onBoth_of (fun _ => rfl) fun i len x hqd hqa hqb hi => ?_
    exact acts_of_vecNarrow (x := x) hf hqd hqa hqb hi
  case vcvtw =>
    have hk : slotSize k.toNat ≠ 0 := fun h0 => he0 (BitVec.eq_of_toNat_eq (he.symm.trans h0))
    rw [lanewise_of_one_source d a 0 k]
    exact onBoth_lanewise (f := ⟨d, a, k, m, e, h, 0⟩)
      (h := fun _ c p _ _ => widenLane (modesOf c.nmode) f (elemBits e) h p)
      (fun x c p q z => widenLane_eq hf hk (modesOf c.nmode) (elemBits e) h p)
      (fun x len s => vecWiden_apply (v := ⟨.vcvtw, ⟨d, a, k, m, e, h, 0⟩, x, len⟩) hf s)
      (.inr (by intros; rfl))
  case vscale =>
    refine onBoth_lanewise (f := ⟨d, a, b, m, 0, 0, 0⟩)
      (h := fun _ c => laneOf 32 (fun x y _ => scaleLane (modesOf c.nmode) x y))
      (fun x c p q z => ?_) (fun x len s => ?_) (.inl rfl)
    · rw [laneOf_32, scaleLane_eq _ q.isLt]
    · exact vecScale_apply (v := ⟨.vscale, ⟨d, a, b, m, 0, 0, 0⟩, x, len⟩) elemBits_zero s
  case vfn =>
    refine onBoth_of (fun _ => rfl) fun i len x hqd hqa hqb hi s hvl => ?_
    let v : VIns := ⟨.vfn, ⟨d, a, t, m, 0, 0, 0⟩, x, len⟩
    let table := (s.ens (ensOf s.cur)).sfu.get {} t.toNat
    let g := vfnOf (fun j => let p := table.seg.get (0, 0) j; (p.1.toNat, p.2.toNat)) table.lo.toNat table.inv.toNat
    have htable : vecOp v s = fixedFn v g s := rfl
    rw [hi, run_congr (htable.trans (fixedFn_apply (v := v) g s elemBits_zero rfl rfl rfl))]
    refine run_perLane (v := v) hqd hqa hqb hvl fun k => ?_
    rw [getD_source (k := (vspec v.op).a) rfl, toNat_swizzle]
    rfl

end Sys2Proof.VectorUnit
